-- ==== Sys2Proof/Word.lean ====
section
/-! DEFINITION. The word types of the D7 (spec/03_state_formats_assembly.md R84, R97). -/

namespace Sys2Proof

/-- A byte. -/
abbrev Byte := BitVec 8

/-- A 32-bit register's contents (R84). -/
abbrev Word := BitVec 32

/-- A 64-bit value: a register pair, a shared register, an instruction word (R84, R86, R97). -/
abbrev DWord := BitVec 64

end Sys2Proof
end

