-- ==== Sys2Proof/Syntax.lean ====
section
/-! DEFINITION. The instruction formats of spec/03_state_formats_assembly.md (R97 to R105), the arguments of the
events of spec/opcode_table.json, and the one inductive of its rows. A format record holds the fields of one word
that are not fixed by the row (major and function code); a reserved field of a format is no field here, and the
decoder refuses a word whose reserved field is nonzero. -/

namespace Sys2Proof

/-- The guard field [9:6] of R97: bit 9 negates, bits [8:6] select g0 to g7. -/
structure Guard where
  neg : Bool
  idx : BitVec 3
deriving DecidableEq, Repr

/-- Format A (R98): M[5:3] are the s-context flags of A, B and C, M[2:0] is `mode`; FN[9:6] is `var`. -/
structure FmtA where
  sA   : Bool
  sB   : Bool
  sC   : Bool
  mode : BitVec 3
  var  : BitVec 4
  d    : BitVec 9
  a    : BitVec 9
  b    : BitVec 9
  c    : BitVec 9
deriving DecidableEq, Repr

/-- Format I (R99). -/
structure FmtI where
  d   : BitVec 9
  a   : BitVec 9
  imm : BitVec 32
deriving DecidableEq, Repr

/-- Format B (R100), the CALL form: a link pair and a signed offset in instruction words. -/
structure FmtB where
  link : BitVec 9
  off  : BitVec 40
deriving DecidableEq, Repr

/-- Format M (R101). -/
structure FmtM where
  t   : BitVec 9
  ba  : BitVec 9
  ub  : Bool
  sz  : BitVec 3
  sx  : Bool
  ord : BitVec 2
  sc  : BitVec 3
  ch  : BitVec 2
  off : BitVec 23
deriving DecidableEq, Repr

/-- Format N (R102). -/
structure FmtN where
  t   : BitVec 9
  ba  : BitVec 9
  ub  : Bool
  sz  : BitVec 3
  sx  : Bool
  ord : BitVec 2
  sc  : BitVec 3
  db  : BitVec 9
  dc  : BitVec 9
deriving DecidableEq, Repr

/-- Format X (R103). -/
structure FmtX where
  d : BitVec 9
  a : BitVec 9
  b : BitVec 9
  c : BitVec 9
  p : BitVec 10
deriving DecidableEq, Repr

/-- The CSR form (R105): `sA` is M[5], `wide` is M[2]. -/
structure FmtC where
  sA   : Bool
  wide : Bool
  csr  : BitVec 12
  d    : BitVec 9
  a    : BitVec 9
deriving DecidableEq, Repr

/-! ## What the events name -/

/-- A core: die 0 to 5 and core number (R2). -/
structure CoreId where
  die  : Nat
  core : Nat
deriving DecidableEq, Repr

/-- A group slot of a SIMT core, or a hardware thread (0 or 1) of a latency core (R2, R10). -/
structure SlotId where
  die  : Nat
  core : Nat
  slot : Nat
deriving DecidableEq, Repr

/-- A thread's place: a lane of a slot (R3). -/
structure LaneId where
  die  : Nat
  core : Nat
  slot : Nat
  lane : Nat
deriving DecidableEq, Repr

/-- A copy channel: `unit` is the SIMT core, or 48 to 63 for a die-level engine of an L-die (R3, R245). -/
structure ChanId where
  die  : Nat
  unit : Nat
  chan : Nat
deriving DecidableEq, Repr

/-- What a request that arrives at a home asks for (R194, R200). -/
inductive HomeOp where
  | read   (n : Nat)
  | write  (bytes : List (BitVec 8))
  | atomic (aop : BitVec 4) (n : Nat) (b c : BitVec 128)
  | stand  (core : CoreId) (slot : BitVec 64)
  | unstand (core : CoreId) (slot : BitVec 64)
deriving DecidableEq, Repr

/-- A request of another package that arrives at a home of this one (R194, R369), a release with its attribution: token, agent
and SEQ (R288); the tag that its response carries (R364). -/
structure HomeReq where
  peer : Nat
  pa   : Nat
  op   : HomeOp
  attr : Option (BitVec 64 × BitVec 32 × BitVec 32) := none
  tag  : Nat := 0
deriving DecidableEq, Repr

/-- A DMA of a root-port device (R336): the L-die and port, its requester id, and the access. -/
structure DmaReq where
  die       : Nat
  port      : Nat
  requester : Nat
  va        : BitVec 64
  store     : Bool
  bytes     : List (BitVec 8)
deriving DecidableEq, Repr

/-- A queue wait over threshold at an engine, port or home (R290): the waiting agent, the attribution it held and
the reference cycles it held it for. -/
structure QueueWait where
  agent  : BitVec 32
  wkind  : Nat
  pred   : BitVec 32
  predSeq : BitVec 32
  token  : BitVec 64
  cycles : Nat
deriving DecidableEq, Repr

/-- One 80-byte flit of R364: its 12-byte header, 64-byte payload and 4-byte CRC. -/
structure Flit where
  hdr     : BitVec 96
  payload : List (BitVec 8)
  crc     : BitVec 32
deriving DecidableEq, Repr

/-- What the controller's sensors report for one die (R390, R391, R396): its power in mW, its temperature in eighths of a degree
(signed), its supply in mV. -/
structure PowerReading where
  die    : Nat
  dieMw  : Nat
  temp8  : Int
  mv     : Nat
deriving DecidableEq, Repr

/-- What an event concerns: the agent, or the choice the outside makes. An event row of the table has no word; its
subject is the environment's choice and stands in the state (Turn.event), never in the instruction. -/
inductive Subject where
  | nothing
  | die     (d : Nat)
  | dieIdx  (d i : Nat)
  | core    (c : CoreId)
  | coreIdx (c : CoreId) (i : Nat)
  | slot    (g : SlotId)
  | meet    (g : SlotId) (m : DWord)
  | entry   (h : SlotId) (kind : Nat)
  | lane    (l : LaneId)
  | signal  (l : LaneId) (n : Nat)
  | idx     (i : Nat)
  | chan    (ch : ChanId)
  | chanIdx (ch : ChanId) (i : Nat)
  | plan    (cores : List CoreId)
  | home    (r : HomeReq)
  | queue   (q : QueueWait)
  | dma     (d : DmaReq)
  | command (die t arg : Nat)
  | regLoad (die : Nat) (h : SlotId) (t : BitVec 9)
  | regStore (pa : Nat) (h : SlotId) (v : DWord)
  | trained (die c pkg epoch : Nat)
  | flit    (die c : Nat) (f : Flit)
  | link    (die peer n : Nat)
  | peer    (p : Nat)
  | unit    (u : Nat)
  | unitFlag (u : Nat) (b : Bool)
  | unitPa  (u pa n : Nat)
  | stretch (die region depth cycles : Nat)
  | power   (r : PowerReading)
  | sample  (pkgMw : Nat) (rs : List PowerReading)
  | doorbell (v : Word)
  | ucie    (lo hi : Nat)
  | laser   (die fibre wave : Nat)
deriving DecidableEq, Repr

/-- The rows of spec/opcode_table.json, one constructor each. A row with a word carries the fields of its format but
the guard and the keep field, which every word has (R97, R98) and Decoded holds; the rows whose words have no other
field, and the events, carry nothing. The field-carrying rows come first. -/
inductive Instr where
  /-- ADD (R156): Integer register add, modulo the width. -/
  | add (f : FmtA)
  /-- SUB (R156): Integer register subtract. -/
  | sub (f : FmtA)
  /-- MUL (R156): Low w bits of the product. -/
  | mul (f : FmtA)
  /-- MULH (R156): High w bits of the signed product. -/
  | mulh (f : FmtA)
  /-- MULHU (R156): High w bits of the natural product. -/
  | mulhu (f : FmtA)
  /-- MAD (R156): Multiply-add a times b plus c. -/
  | mad (f : FmtA)
  /-- MADW (R156): Widening 32x32 multiply plus a 64-bit addend. -/
  | madw (f : FmtA)
  /-- DIV (R158): Signed division truncating toward zero; a zero divisor faults with cause 0x10. -/
  | div (f : FmtA)
  /-- DIVU (R158): Natural division. -/
  | divu (f : FmtA)
  /-- REM (R158): Signed remainder. -/
  | rem (f : FmtA)
  /-- REMU (R158): Natural remainder. -/
  | remu (f : FmtA)
  /-- MIN (R156): Signed minimum. -/
  | min (f : FmtA)
  /-- MAX (R156): Signed maximum. -/
  | max (f : FmtA)
  /-- MINU (R156): Natural minimum. -/
  | minu (f : FmtA)
  /-- MAXU (R156): Natural maximum. -/
  | maxu (f : FmtA)
  /-- ABS (R156): Absolute value. -/
  | abs (f : FmtA)
  /-- NEG (R156): Negation. -/
  | neg (f : FmtA)
  /-- ADDSAT (R159): Saturating add at width 8, 16, 32 or 64. -/
  | addsat (f : FmtA)
  /-- SUBSAT (R159): Saturating subtract. -/
  | subsat (f : FmtA)
  /-- ADDX (R160): Add with carry-in guard and carry-out guard. -/
  | addx (f : FmtA)
  /-- AND (R156): Bitwise AND. -/
  | and (f : FmtA)
  /-- OR (R156): Bitwise OR. -/
  | or (f : FmtA)
  /-- XOR (R156): Bitwise XOR. -/
  | xor (f : FmtA)
  /-- ANDN (R156): a AND NOT b. -/
  | andn (f : FmtA)
  /-- NOT (R156): Bitwise complement. -/
  | not (f : FmtA)
  /-- SHL (R156): Left shift by b mod w. -/
  | shl (f : FmtA)
  /-- SHR (R156): Logical right shift. -/
  | shr (f : FmtA)
  /-- SAR (R156): Arithmetic right shift. -/
  | sar (f : FmtA)
  /-- ROL (R156): Rotate left. -/
  | rol (f : FmtA)
  /-- ROR (R156): Rotate right. -/
  | ror (f : FmtA)
  /-- BFX (R161): Bit-field extract. -/
  | bfx (f : FmtA)
  /-- BFI (R161): Bit-field insert into D. -/
  | bfi (f : FmtA)
  /-- POPC (R156): Population count. -/
  | popc (f : FmtA)
  /-- CLZ (R156): Count leading zeros. -/
  | clz (f : FmtA)
  /-- CTZ (R156): Count trailing zeros. -/
  | ctz (f : FmtA)
  /-- BREV (R156): Bit reversal. -/
  | brev (f : FmtA)
  /-- PRMT (R161): Byte permute of two registers. -/
  | prmt (f : FmtA)
  /-- SEL (R156): Select a or b by a guard. -/
  | sel (f : FmtA)
  /-- LEA (R156): a plus b shifted by s, 32-bit. -/
  | lea (f : FmtA)
  /-- DP4 (R159): Four byte products added to c. -/
  | dp4 (f : FmtA)
  /-- DP2 (R159): Two half-word products added to c. -/
  | dp2 (f : FmtA)
  /-- ADD_IMM (R162): Add a 32-bit immediate. -/
  | addImm (f : FmtI)
  /-- MOVI (R162): Move a 32-bit immediate. -/
  | movi (f : FmtI)
  /-- MUL_IMM (R162): Multiply by an immediate. -/
  | mulImm (f : FmtI)
  /-- MIN_IMM (R162): Signed minimum with an immediate. -/
  | minImm (f : FmtI)
  /-- MAX_IMM (R162): Signed maximum with an immediate. -/
  | maxImm (f : FmtI)
  /-- MINU_IMM (R162): Natural minimum with an immediate. -/
  | minuImm (f : FmtI)
  /-- MAXU_IMM (R162): Natural maximum with an immediate. -/
  | maxuImm (f : FmtI)
  /-- AND_IMM (R162): AND with an immediate mask. -/
  | andImm (f : FmtI)
  /-- OR_IMM (R162): OR with an immediate mask. -/
  | orImm (f : FmtI)
  /-- XOR_IMM (R162): XOR with an immediate mask. -/
  | xorImm (f : FmtI)
  /-- SHL_IMM (R162): Left shift by an immediate count. -/
  | shlImm (f : FmtI)
  /-- SHR_IMM (R162): Logical right shift by an immediate. -/
  | shrImm (f : FmtI)
  /-- SAR_IMM (R162): Arithmetic right shift by an immediate. -/
  | sarImm (f : FmtI)
  /-- ROL_IMM (R162): Rotate left by an immediate. -/
  | rolImm (f : FmtI)
  /-- ROR_IMM (R162): Rotate right by an immediate. -/
  | rorImm (f : FmtI)
  /-- BFX_IMM (R162): Bit-field extract with immediate position and length. -/
  | bfxImm (f : FmtI)
  /-- ADDD (R163): 64-bit address add with an extended b. -/
  | addd (f : FmtA)
  /-- SUBD (R163): 64-bit address subtract. -/
  | subd (f : FmtA)
  /-- SHLD (R163): 64-bit left shift. -/
  | shld (f : FmtA)
  /-- SHRD (R163): 64-bit logical right shift. -/
  | shrd (f : FmtA)
  /-- MULWD (R163): Widening 32x32 to 64 multiply. -/
  | mulwd (f : FmtA)
  /-- MADWD (R163): Widening multiply plus a 64-bit addend. -/
  | madwd (f : FmtA)
  /-- LEAD (R163): a plus extended b shifted by s, 64-bit. -/
  | lead (f : FmtA)
  /-- ADDD_IMM (R164): 64-bit add of a sign-extended immediate. -/
  | adddImm (f : FmtI)
  /-- SUBD_IMM (R164): 64-bit subtract of a sign-extended immediate. -/
  | subdImm (f : FmtI)
  /-- SHLD_IMM (R164): 64-bit left shift by an immediate. -/
  | shldImm (f : FmtI)
  /-- SHRD_IMM (R164): 64-bit right shift by an immediate. -/
  | shrdImm (f : FmtI)
  /-- MULWD_IMM (R164): Widening multiply by an immediate. -/
  | mulwdImm (f : FmtI)
  /-- LEAD_IMM (R164): a plus a shifted immediate. -/
  | leadImm (f : FmtI)
  /-- LEAPC (R164): Forms the LEAPC's address plus a displacement. -/
  | leapc (f : FmtI)
  /-- SADD (R172): Shared-register add, written once for the group under R14. -/
  | sadd (f : FmtA)
  /-- SSUB (R172): Shared-register subtract. -/
  | ssub (f : FmtA)
  /-- SMUL (R172): Shared-register multiply. -/
  | smul (f : FmtA)
  /-- SAND (R172): Shared-register AND. -/
  | sand (f : FmtA)
  /-- SOR (R172): Shared-register OR. -/
  | sor (f : FmtA)
  /-- SXOR (R172): Shared-register XOR. -/
  | sxor (f : FmtA)
  /-- SSHL (R172): Shared-register left shift. -/
  | sshl (f : FmtA)
  /-- SSHR (R172): Shared-register logical right shift. -/
  | sshr (f : FmtA)
  /-- SSAR (R172): Shared-register arithmetic right shift. -/
  | ssar (f : FmtA)
  /-- SMIN (R172): Shared-register signed minimum. -/
  | smin (f : FmtA)
  /-- SMAX (R172): Shared-register signed maximum. -/
  | smax (f : FmtA)
  /-- SMOV (R172): Shared-register move. -/
  | smov (f : FmtA)
  /-- SLD (R174): Lane f loads 8 bytes into an s-register for the group, register address form. -/
  | sld (f : FmtA)
  /-- SADD_IMM (R172): Shared-register add of an immediate. -/
  | saddImm (f : FmtI)
  /-- SMOVI (R172): Shared-register move of a sign-extended immediate. -/
  | smovi (f : FmtI)
  /-- SMUL_IMM (R172): Shared-register multiply by an immediate. -/
  | smulImm (f : FmtI)
  /-- SAND_IMM (R172): Shared-register AND with an immediate. -/
  | sandImm (f : FmtI)
  /-- SOR_IMM (R172): Shared-register OR with an immediate. -/
  | sorImm (f : FmtI)
  /-- SXOR_IMM (R172): Shared-register XOR with an immediate. -/
  | sxorImm (f : FmtI)
  /-- SSHL_IMM (R172): Shared-register left shift by an immediate. -/
  | sshlImm (f : FmtI)
  /-- SSHR_IMM (R172): Shared-register logical right shift by an immediate. -/
  | sshrImm (f : FmtI)
  /-- SSAR_IMM (R172): Shared-register arithmetic right shift by an immediate. -/
  | ssarImm (f : FmtI)
  /-- SMIN_IMM (R172): Shared-register minimum with an immediate. -/
  | sminImm (f : FmtI)
  /-- SMAX_IMM (R172): Shared-register maximum with an immediate. -/
  | smaxImm (f : FmtI)
  /-- SLD_IMM (R174): Relaxed group load from an s-register plus immediate. -/
  | sldImm (f : FmtI)
  /-- MOV (R171): Register move. -/
  | mov (f : FmtA)
  /-- RDFL (R171): Reads A from the first lane of P into each lane. -/
  | rdfl (f : FmtA)
  /-- RDFL_S (R171): Writes the first lane's A into an s-register under R14. -/
  | rdflS (f : FmtA)
  /-- RDLN (R171): Reads A from a literal lane. -/
  | rdln (f : FmtA)
  /-- BCAST (R171): Broadcasts A from a lane chosen by lane f's B. -/
  | bcast (f : FmtA)
  /-- SHFL (R171): Lane shuffle with a validity guard. -/
  | shfl (f : FmtA)
  /-- ELECT (R171): Sets a guard in the lowest issuing lane only. -/
  | elect (f : FmtA)
  /-- BALLOT (R171): Writes the mask of lanes whose guard holds. -/
  | ballot (f : FmtA)
  /-- BALLOT_S (R171): Writes the ballot mask into an s-register under R14. -/
  | ballotS (f : FmtA)
  /-- MATCH (R171): Writes the mask of lanes holding the same value. -/
  | matchEq (f : FmtA)
  /-- PMOV (R171): Copies guards g1-g7 into a register. -/
  | pmov (f : FmtA)
  /-- PMOV_TO_GUARDS (R171): Loads guards g1-g7 from a register. -/
  | pmovToGuards (f : FmtA)
  /-- FADD (R177): Binary32 add. -/
  | fadd (f : FmtA)
  /-- FSUB (R177): Binary32 subtract. -/
  | fsub (f : FmtA)
  /-- FMUL (R177): Binary32 multiply. -/
  | fmul (f : FmtA)
  /-- FFMA (R177): Binary32 fused multiply-add. -/
  | ffma (f : FmtA)
  /-- FMIN (R178): Binary32 minimumNumber. -/
  | fmin (f : FmtA)
  /-- FMAX (R178): Binary32 maximumNumber. -/
  | fmax (f : FmtA)
  /-- FCLAMP (R178): FMIN of FMAX. -/
  | fclamp (f : FmtA)
  /-- FRINT (R178): Round to an integral binary32 value. -/
  | frint (f : FmtA)
  /-- FSCALE (R178): a times 2 to the b. -/
  | fscale (f : FmtA)
  /-- FDIV (R178): Binary32 divide. -/
  | fdiv (f : FmtA)
  /-- FSQRT (R178): Binary32 square root. -/
  | fsqrt (f : FmtA)
  /-- FABSNEG (R178): Sign-bit operations abs, neg, nabs, copysign. -/
  | fabsneg (f : FmtA)
  /-- HADD2 (R179): Packed half add. -/
  | hadd2 (f : FmtA)
  /-- HSUB2 (R179): Packed half subtract. -/
  | hsub2 (f : FmtA)
  /-- HMUL2 (R179): Packed half multiply. -/
  | hmul2 (f : FmtA)
  /-- HFMA2 (R179): Packed half fused multiply-add. -/
  | hfma2 (f : FmtA)
  /-- HMIN2 (R179): Packed half minimum. -/
  | hmin2 (f : FmtA)
  /-- HMAX2 (R179): Packed half maximum. -/
  | hmax2 (f : FmtA)
  /-- HDOT2 (R179): Two-element dot product into binary32, single rounding. -/
  | hdot2 (f : FmtA)
  /-- DADD (R180): Binary64 add. -/
  | dadd (f : FmtA)
  /-- DMUL (R180): Binary64 multiply. -/
  | dmul (f : FmtA)
  /-- DFMA (R180): Binary64 fused multiply-add. -/
  | dfma (f : FmtA)
  /-- DMIN (R180): Binary64 minimum. -/
  | dmin (f : FmtA)
  /-- DMAX (R180): Binary64 maximum. -/
  | dmax (f : FmtA)
  /-- DDIV (R180): Binary64 divide. -/
  | ddiv (f : FmtA)
  /-- DSQRT (R180): Binary64 square root. -/
  | dsqrt (f : FmtA)
  /-- CVTIF (R185): Integer to float conversion. -/
  | cvtif (f : FmtA)
  /-- CVTFI (R185): Float to integer conversion, always saturating. -/
  | cvtfi (f : FmtA)
  /-- CVTFF (R186): Float to float conversion. -/
  | cvtff (f : FmtA)
  /-- PKF8 (R187): Packs four values into E4M3 or E5M2 bytes. -/
  | pkf8 (f : FmtA)
  /-- UPF8 (R187): Unpacks 8-bit floats exactly. -/
  | upf8 (f : FmtA)
  /-- PKH (R183): Packs two binary32 values into halves. -/
  | pkh (f : FmtA)
  /-- RCP (R181): Reciprocal within 1 ulp. -/
  | rcp (f : FmtA)
  /-- RSQ (R181): Reciprocal square root. -/
  | rsq (f : FmtA)
  /-- SQRTA (R181): Approximate square root. -/
  | sqrta (f : FmtA)
  /-- EXP2 (R181): Two to the a. -/
  | exp2 (f : FmtA)
  /-- LOG2 (R181): Base-2 logarithm. -/
  | log2 (f : FmtA)
  /-- SIN (R181): Sine in radians. -/
  | sin (f : FmtA)
  /-- COS (R181): Cosine in radians. -/
  | cos (f : FmtA)
  /-- TANH (R181): Hyperbolic tangent. -/
  | tanh (f : FmtA)
  /-- BPACK (R189): Packs one 64-element BX block from the issuing lanes. -/
  | bpack (f : FmtA)
  /-- BUNPK (R190): Decodes two BX codes to binary32. -/
  | bunpk (f : FmtA)
  /-- BEXP (R191): Adds a shift to the exponents of scale halfwords. -/
  | bexp (f : FmtA)
  /-- SETP (R166): Integer compare into a guard with optional combine. -/
  | setp (f : FmtA)
  /-- FSETP (R166): Floating compare into a guard. -/
  | fsetp (f : FmtA)
  /-- PAND (R167): Guard AND. -/
  | pand (f : FmtA)
  /-- POR (R167): Guard OR. -/
  | por (f : FmtA)
  /-- PXOR (R167): Guard XOR. -/
  | pxor (f : FmtA)
  /-- PNOT (R167): Guard complement. -/
  | pnot (f : FmtA)
  /-- VOTE (R167): any, all or uni reduction of a guard over the issuing lanes. -/
  | vote (f : FmtA)
  /-- ALWP (R168): Sets a guard when a peer or die allowance reaches a threshold. -/
  | alwp (f : FmtA)
  /-- SSETP (R166): 64-bit shared-register compare into a guard. -/
  | ssetp (f : FmtA)
  /-- BRA (R125): PC-relative branch. -/
  | bra (off : BitVec 40)
  /-- CALL (R125): PC-relative call writing a link pair. -/
  | call (f : FmtB)
  /-- JR (R125): Indirect jump; lane-varying targets split the subset. -/
  | jr (f : FmtA)
  /-- CALLR (R125): Indirect call. -/
  | callr (f : FmtA)
  /-- RET (R126): Return to a link value; the return stack only predicts. -/
  | ret (f : FmtA)
  /-- JRS (R126): Jump to a target in an s-register. -/
  | jrs (f : FmtA)
  /-- MEET (R128): Sets the meeting register, returning the old value. -/
  | meet (f : FmtA)
  /-- REJOIN (R128): Restores the meeting register. -/
  | rejoin (f : FmtA)
  /-- LOOP (R130): Arms a hardware loop context. -/
  | loop (f : FmtA)
  /-- LPEXIT (R130): Leaves an active loop context. -/
  | lpexit (f : FmtA)
  /-- MIGRATE (R28): Drains, writes the thread's frame at TFRAME and departs to a target die. -/
  | migrate (f : FmtA)
  /-- FANOUT (R134): Releases, reads and checks a launch header and queues a cohort. -/
  | fanout (f : FmtA)
  /-- SLEEP (R137): Waits for the lane's wake bit or a timeout. -/
  | sleep (f : FmtA)
  /-- WAKE (R137): Sets wake bits of the named lanes with release at group scope. -/
  | wake (f : FmtA)
  /-- BAR (R24): Barrier over a level-k unit of the cohort. -/
  | bar (f : FmtA)
  /-- WAITV (R141): Waits until a memory word meets a condition. -/
  | waitv (f : FmtA)
  /-- WAITS (R142): Waits until a sync word's GEN differs or ERR is set. -/
  | waits (f : FmtA)
  /-- WAITP (R143): Waits until a slot's PUSHES differs, SUB is 0 or ERR is 1. -/
  | waitp (f : FmtA)
  /-- TRAP (R147): Takes user trap cause 0x0D with a datum. -/
  | trap (f : FmtA)
  /-- BRKPT (R147): Takes breakpoint cause 0x0C, as user trap or fault. -/
  | brkpt (f : FmtA)
  /-- CSRR (R148): Reads a CSR. -/
  | csrr (f : FmtC)
  /-- CSRW (R148): Writes a CSR, returning the old value. -/
  | csrw (f : FmtC)
  /-- CSRSET (R148): Sets CSR bits. -/
  | csrset (f : FmtC)
  /-- CSRCLR (R148): Clears CSR bits. -/
  | csrclr (f : FmtC)
  /-- LIVE (R149): Names a liveness record; takes a pending pre-emption. -/
  | live (off : BitVec 40)
  /-- STEP_BEGIN (R150): Clears PATHTOK and appends a step-begin record. -/
  | stepBegin (f : FmtA)
  /-- STEP_END (R150): Appends a step record with the current PATHTOK. -/
  | stepEnd (f : FmtA)
  /-- PTAG (R150): Appends a tag record. -/
  | ptag (f : FmtA)
  /-- LD (R196): Global load. -/
  | ld (f : FmtM)
  /-- ST (R196): Global store, combined for relaxed peer stores. -/
  | st (f : FmtM)
  /-- AADD (R201): Global atomic add. -/
  | aadd (f : FmtN)
  /-- AAND (R201): Global atomic AND. -/
  | aand (f : FmtN)
  /-- AOR (R201): Global atomic OR. -/
  | aor (f : FmtN)
  /-- AXOR (R201): Global atomic XOR. -/
  | axor (f : FmtN)
  /-- AMIN (R201): Global atomic signed minimum. -/
  | amin (f : FmtN)
  /-- AMAX (R201): Global atomic signed maximum. -/
  | amax (f : FmtN)
  /-- AMINN (R201): Global atomic natural minimum. -/
  | aminn (f : FmtN)
  /-- AMAXN (R201): Global atomic natural maximum. -/
  | amaxn (f : FmtN)
  /-- ASWAP (R201): Global atomic swap. -/
  | aswap (f : FmtN)
  /-- ACAS (R201): Global compare-and-swap. -/
  | acas (f : FmtN)
  /-- AFADD (R202): Global atomic float add at the home. -/
  | afadd (f : FmtN)
  /-- AADD_SPAD (R201): Scratchpad atomic add. -/
  | aaddSpad (f : FmtN)
  /-- AAND_SPAD (R201): Scratchpad atomic AND. -/
  | aandSpad (f : FmtN)
  /-- AOR_SPAD (R201): Scratchpad atomic OR. -/
  | aorSpad (f : FmtN)
  /-- AXOR_SPAD (R201): Scratchpad atomic XOR. -/
  | axorSpad (f : FmtN)
  /-- AMIN_SPAD (R201): Scratchpad atomic signed minimum. -/
  | aminSpad (f : FmtN)
  /-- AMAX_SPAD (R201): Scratchpad atomic signed maximum. -/
  | amaxSpad (f : FmtN)
  /-- AMINN_SPAD (R201): Scratchpad atomic natural minimum. -/
  | aminnSpad (f : FmtN)
  /-- AMAXN_SPAD (R201): Scratchpad atomic natural maximum. -/
  | amaxnSpad (f : FmtN)
  /-- ASWAP_SPAD (R201): Scratchpad atomic swap. -/
  | aswapSpad (f : FmtN)
  /-- ACAS_SPAD (R201): Scratchpad compare-and-swap. -/
  | acasSpad (f : FmtN)
  /-- AFADD_SPAD (R202): Scratchpad atomic float add. -/
  | afaddSpad (f : FmtN)
  /-- LDS (R199): Scratchpad load. -/
  | lds (f : FmtN)
  /-- STS (R199): Scratchpad store. -/
  | sts (f : FmtN)
  /-- FENCE (R204): Orders accesses at a scope and starts write-combining drains. -/
  | fence (f : FmtN)
  /-- IINV (R205): Invalidates instruction caches over a range within a scope. -/
  | iinv (f : FmtN)
  /-- CLEAN (R206): Writes dirty copies of a range to DRAM. -/
  | clean (f : FmtN)
  /-- PREF (R207): Prefetch hint with no architectural effect. -/
  | pref (f : FmtN)
  /-- TLBI (R151): Supervisor TLB invalidation of a kind within a scope. -/
  | tlbi (f : FmtN)
  /-- STAND (R210): Reads a location and registers a standing subscription into a slot. -/
  | stand (f : FmtN)
  /-- UNSTAND (R212): Sends an unsubscribe request to the home without blocking. -/
  | unstand (f : FmtN)
  /-- MMAB4 (R238): Queues a BX4 matrix multiply-accumulate. -/
  | mmab4 (f : FmtX)
  /-- MMAB6 (R238): Queues a BX6 matrix multiply-accumulate. -/
  | mmab6 (f : FmtX)
  /-- MMAB8 (R238): Queues a BX8 matrix multiply-accumulate. -/
  | mmab8 (f : FmtX)
  /-- MMAF8 (R238): Queues an 8-bit float matrix multiply-accumulate. -/
  | mmaf8 (f : FmtX)
  /-- MMAH (R238): Queues an FP16 or BF16 matrix multiply-accumulate. -/
  | mmah (f : FmtX)
  /-- MMAI8 (R238): Queues an 8-bit integer matrix multiply-accumulate. -/
  | mmai8 (f : FmtX)
  /-- MMAG (R239): Queues a ragged grouped multiply driven by a scratchpad table. -/
  | mmag (f : FmtX)
  /-- MMAS (R240): Queues a multiply with a sparse A tile. -/
  | mmas (f : FmtX)
  /-- AZERO (R241): Queues zeroing of a tile, clearing its error. -/
  | azero (f : FmtX)
  /-- ALD (R241): Queues a load of a tile from scratchpad binary32. -/
  | ald (f : FmtX)
  /-- AST (R242): Queues a conversion of a tile to scratchpad. -/
  | ast (f : FmtX)
  /-- MTRN (R243): Queues a tile transpose. -/
  | mtrn (f : FmtX)
  /-- MPRM (R243): Queues a row permutation. -/
  | mprm (f : FmtX)
  /-- MRED (R243): Queues a segmented row reduction. -/
  | mred (f : FmtX)
  /-- TCPY (R227): Issues a tensor copy command to a copy channel. -/
  | tcpy (f : FmtX)
  /-- TCPYM (R229): Issues a load copy carrying a follow-on matrix command. -/
  | tcpym (f : FmtX)
  /-- TGATH (R228): Issues a gather copy with dim 1 from an index list. -/
  | tgath (f : FmtX)
  /-- CCHN (R230): Queues a transfer-record chain on a named channel. -/
  | cchn (f : FmtX)
  /-- SWINIT (R219): Arms a sync word with a new TARGET. -/
  | swinit (f : FmtX)
  /-- SWADD (R219): Performs a software arrival of n bytes at a sync word. -/
  | swadd (f : FmtX)
  /-- SHAPE (R222): Checks a shape record and writes a copy descriptor. -/
  | shape (f : FmtX)
  /-- GSYNC (R15): Waits until every member waits in a GSYNC. -/
  | gsync
  /-- EXIT (R135): Ends the thread after completing loads and drains, incrementing the completion word. -/
  | exit
  /-- YIELD (R136): Moves the group to the pending set if another is ready. -/
  | yield
  /-- NOP (R146): No effect; an instruction boundary. -/
  | nop
  /-- SYSCALL (R146): Migrates to the latency pool on a SIMT core, or enters the system-call entry on a latency core. -/
  | syscall
  /-- ERET (R147): Clears the in-handler flag and continues at UEPC. -/
  | eret
  /-- ERET_SUPERVISOR (R350): In supervisor mode loads the thread whose frame is at SFRAME(t) and continues in user mode. -/
  | eretSupervisor
  /-- FALLOW_INSTRUCTION (R116): A word of a fallow major faults precisely with detail fallow. -/
  | fallowInstruction
  /-- ILLEGAL_MAJOR (R115): A word of a permanently illegal or reserved major faults undefined. -/
  | illegalMajor
  /-- HOLDLIM_EXPIRY (R17): Held threads are released after HOLDLIM core cycles. -/
  | holdlimExpiry
  /-- FRAME_ACCEPT (R12): An S-die admission unit accepts a migrating frame into its key, forming a group on 32 frames or a 257th key. -/
  | frameAccept
  /-- PACKWIN_EXPIRY (R12): PACKWIN cycles after a key's oldest frame, its group forms. -/
  | packwinExpiry
  /-- READY_QUEUE_ACCEPT (R402): An L-die accepts a frame and appends it to its ready queue. -/
  | readyQueueAccept
  /-- ADMISSION_PLACEMENT (R403): When resources free on a die, waiting cohorts and packed groups are placed in priority order. -/
  | admissionPlacement
  /-- TIMER_EXPIRY (R39): GCYC reaching TMR resets GCYC and makes a timer trap pending in every unparked member. -/
  | timerExpiry
  /-- AGEING (R35): A group ready and pending for AGEMAX/4 cycles is promoted, evicting the longest-active group. -/
  | ageing
  /-- PRELIM_EXPIRY (R40): A pre-emption request not taken at a LIVE is taken after PRELIM cycles and the group saved whole. -/
  | prelimExpiry
  /-- PREEMPT_COMPLETE (R347): The save engine finishes a group save frame, setting complete and INTPEND[2]. -/
  | preemptComplete
  /-- SIGNAL (R32): A signal aimed at a thread migrates it to the latency pool or records it for a parked thread. -/
  | signal
  /-- SLEEP_TIMEOUT (R137): A SLEEP times out and writes 0. -/
  | sleepTimeout
  /-- WAITV_REREAD (R141): The core re-reads a WAITV word after invalidation or every 1,024 cycles for peer memory. -/
  | waitvReread
  /-- LOAD_REPLY (R34): Data of a load, atomic or SLD arrives, writing its register and readying the group. -/
  | loadReply
  /-- DEFERRED_FAULT (R401): A failure learned after issue is taken at the next instruction boundary. -/
  | deferredFault
  /-- QUEUE_FAULT_RECORD (R349): A held fault record is appended when the fault ring has room. -/
  | queueFaultRecord
  /-- WCAGE_EXPIRY (R67): A write-combining entry drains WCAGE cycles after allocation. -/
  | wcageExpiry
  /-- ACKNOWLEDGE (R283): A home acknowledges a drain or far write, performing it and returning egress or UCIe credit. -/
  | acknowledge
  /-- HOME_REQUEST (R194): A home performs an arriving access, deciding push fates and queuing during page moves. -/
  | homeRequest
  /-- IINV_COMPLETE (R205): Every cache in scope has dropped the lines; the lane fences locally and continues. -/
  | iinvComplete
  /-- CLEAN_COMPLETE (R206): Every write of a CLEAN has reached DRAM and the lane continues. -/
  | cleanComplete
  /-- TLBI_COMPLETE (R151): Every TLB and walk in scope has dropped the entries and the lane continues. -/
  | tlbiComplete
  /-- STAND_REPLY (R210): The home's reply updates the slot as registered or not and sets the status guard. -/
  | standReply
  /-- PUSH (R211): A queued push is delivered to its slot in queue order. -/
  | push
  /-- OWED_PUSH (R211): When a push-queue entry frees, the home sends an owed slot its current value and count with OVR. -/
  | owedPush
  /-- UNSTAND_ACK (R64): The home's acknowledgement closes the slot with SUB clear and CLOSED set. -/
  | unstandAck
  /-- COPY_COMMAND_START (R227): A copy channel starts its next queued command, performing its acquire. -/
  | copyCommandStart
  /-- SYNC_WORD_ARRIVAL (R218): A performed copy or matrix write counts its bytes at a sync word, possibly advancing GEN. -/
  | syncWordArrival
  /-- COPY_ERROR (R60): A far-side failure ends a command with ERR on its sync words. -/
  | copyError
  /-- CCHN_RECORD (R232): A channel reads, checks and performs one transfer record, clearing OWN when done. -/
  | cchnRecord
  /-- MATRIX_COMMAND_START (R233): The arrays start the next command of a group's matrix queue. -/
  | matrixCommandStart
  /-- MATRIX_COMMAND_COMPLETE (R238): A matrix command finishes its last block, counting events and any sync word. -/
  | matrixCommandComplete
  /-- NWIN_EXPIRY (R263): At the end of a numeric window all NCNT registers become 0. -/
  | nwinExpiry
  /-- QUEUE_EDGE_THRESHOLD (R290): An agent holding an attribution past its threshold writes an edge record as a waiter. -/
  | queueEdgeThreshold
  /-- GAP_RECORD (R292): In drop mode, when space frees a gap record counting lost records is written. -/
  | gapRecord
  /-- HOT_PAGE_WINDOW_EXPIRY (R345): The tracker's 1,048,576-cycle window restarts its counts. -/
  | hotPageWindowExpiry
  /-- SUPERVISOR_ENTRY (R350): A latency thread's system call, fault, signal or interrupt writes its frame and entry record and continues at SVEC. -/
  | supervisorEntry
  /-- INTERRUPT (R350): An interrupt to a latency hardware thread causes a supervisor entry of kind 3. -/
  | interrupt
  /-- DEVICE_DMA (R336): Root-port device DMA is translated by the L-die IOMMU or dropped with AER. -/
  | deviceDma
  /-- RESUME (R37): Die command resuming a parked thread at a given or default PC. -/
  | resume
  /-- KILL (R37): Die command ending a parked thread. -/
  | kill
  /-- MIGRATE_COMMAND (R347): Die command writing a parked thread's frame and migrating it. -/
  | migrateCommand
  /-- EXTRACT (R347): Die command writing a parked thread's frame to a PA. -/
  | extract
  /-- LOADRESUME (R347): Die command loading a frame into a parked thread and resuming it. -/
  | loadresume
  /-- PREEMPT (R347): Die command requesting pre-emption of a group into a save area. -/
  | preempt
  /-- RESTORE (R355): Die command placing a saved group and reloading it. -/
  | restore
  /-- MOVEPAGE (R346): Die command copying a page to a new home under R74. -/
  | movepage
  /-- MOVEPAGE_COMPLETE (R346): A page move finishes and replays queued accesses, setting INTPEND[2]. -/
  | movepageComplete
  /-- FINISHMOVE (R346): Die command freeing the old PA of a moved page. -/
  | finishmove
  /-- RQPOP (R402): A load removes the oldest ready-queue frame and returns its PA. -/
  | rqpop
  /-- CCDATA_READ (R339): A load of CCDATA reads the selected core or die CSR. -/
  | ccdataRead
  /-- CCDATA_WRITE (R339): A store to CCDATA performs a supervisor CSR write on the selected core. -/
  | ccdataWrite
  /-- CEN_WRITE (R357): Setting core enable bits permits placement and releases latency cores at LCENTRY. -/
  | cenWrite
  /-- HTEN_WRITE (R358): Enables the home table once until reset. -/
  | htenWrite
  /-- REGISTER_WRITE (R338): A write to a block register with no behaviour of its own. -/
  | registerWrite
  /-- IDENTIFY (R329): Mailbox command returning identity data and the certificate chain. -/
  | identify
  /-- ATTEST (R333): Mailbox command returning a signed attestation report. -/
  | attest
  /-- LOAD (R331): Mailbox command copying a boot image body and entering STAGED. -/
  | loadImage
  /-- VERIFY (R331): Mailbox command checking slot, key, version, signature and digest. -/
  | verify
  /-- BOOT (R332): Mailbox command releasing latency core 0 of die 4 and the root ports. -/
  | boot
  /-- RESET_COLD (R329): Mailbox reset clearing every memory, returning to ROM. -/
  | resetCold
  /-- RESET_WARM (R329): Mailbox reset keeping LPDDR 6 and HBM4E contents. -/
  | resetWarm
  /-- HALT (R383): Mailbox command halting the whole package. -/
  | halt
  /-- HALTDRAIN_EXPIRY (R383): Copy commands unfinished after HALTDRAIN cycles are aborted. -/
  | haltdrainExpiry
  /-- HALT_COMPLETE (R383): When all six dies report halted, PKSTATE becomes 4 and vectors 0 and 3 signal. -/
  | haltComplete
  /-- DUMP (R386): Mailbox command writing the frozen state to a host buffer. -/
  | dump
  /-- TELEM (R397): Mailbox command writing a snapshot of telemetry records and draining events. -/
  | telem
  /-- HEALTH (R398): Mailbox command returning a 64-byte summary. -/
  | health
  /-- FWUPDATE_ROM_PATCH (R335): Stages a signed ROM patch bundle. -/
  | fwupdateRomPatch
  /-- FWUPDATE_ENROL (R335): Fuses an empty owner slot. -/
  | fwupdateEnrol
  /-- FWUPDATE_REVOKE (R335): Sets a slot's revoked bit. -/
  | fwupdateRevoke
  /-- FWUPDATE_SVMIN (R335): Raises a slot's SVMIN. -/
  | fwupdateSvmin
  /-- SETPOWER (R329): Mailbox command setting the package power cap. -/
  | setpower
  /-- ENDPOINT_RESET (R325): A function-level or hot reset resets BAR0 without touching the package. -/
  | endpointReset
  /-- POWER_ON (R332): The ROM starts, brings up UCIe and LPDDR 6, and waits for doorbells. -/
  | powerOn
  /-- YAGON_ENABLE (R362): Setting YCTL.EN starts training of enabled channels. -/
  | yagonEnable
  /-- CHANNEL_TRAINED (R361): A channel completes training, checking PKG and EPOCH and bringing a peer up. -/
  | channelTrained
  /-- FLIT_RECEIVE (R365): A received flit is checked and passed up in SEQ order, or NAKed. -/
  | flitReceive
  /-- NEGATIVE_ACKNOWLEDGE (R365): The sender resends every unacknowledged flit from n onward. -/
  | negativeAcknowledge
  /-- CUMULATIVE_ACKNOWLEDGE (R365): The sender frees acknowledged flits from its replay buffer. -/
  | cumulativeAcknowledge
  /-- REPLAY_TIMEOUT (R365): No acknowledge for 4,096 fabric cycles replays from the oldest unacknowledged flit. -/
  | replayTimeout
  /-- CHANNEL_DROP (R366): A channel over its CRC threshold or out of lock is failed and the link re-striped. -/
  | channelDrop
  /-- LOCK_LOST (R367): A wavelength loses lock. -/
  | lockLost
  /-- PARK_CHANNEL (R367): A link below PARKLO for PARKWIN parks one active channel. -/
  | parkChannel
  /-- WAKE_TIMEOUT (R367): A woken channel not active in four times WAKEBUD is failed. -/
  | wakeTimeout
  /-- PEER_LOST (R369): A peer declared lost by LOSSTO, reset notice or new epoch has its traffic discarded and faults delivered. -/
  | peerLost
  /-- PEERADMIT (R371): Admits a lost peer on the next channel that trains. -/
  | peeradmit
  /-- STACK_INIT (R374): STKCTL.INIT trains a memory interface. -/
  | stackInit
  /-- STACK_READY (R374): Training completes, setting READY or FAIL. -/
  | stackReady
  /-- STACK_ZERO (R374): STKCTL.ZERO writes zeros everywhere. -/
  | stackZero
  /-- ZERO_DONE (R374): Zero-fill completes. -/
  | zeroDone
  /-- MSC_ENABLE (R375): Setting or clearing MSCEN; clearing writes back every dirty line. -/
  | mscEnable
  /-- POISONPA (R373): Poisons a 512-byte block. -/
  | poisonpa
  /-- PATROL_SCRUB (R378): Patrol scrubbing reads each block once per period, rewriting corrected ones. -/
  | patrolScrub
  /-- RETRAIN (R378): A channel retrains every RTINT refreshes; a failure sets DEGRADED. -/
  | retrain
  /-- CLOCK_STRETCH (R390): A supply sag stretches or gates a region's clock. -/
  | clockStretch
  /-- POWER_STEP (R391): The controller steps region frequencies toward the power cap and temperature limit. -/
  | powerStep
  /-- THERMAL_TRIP (R391): A die at 115 C halts the package and raises class 0x2A. -/
  | thermalTrip
  /-- TELEMETRY_SAMPLE (R392): The controller samples telemetry every 10 ms. -/
  | telemetrySample
  /-- DOORBELL (R324): A host write to DOORBELL starts the command in CMDBUF, or sets LOST when BUSY, or answers an unknown opcode with status 1. -/
  | doorbell
  /-- CHANNEL_JOINS_STRIPE (R367): A woken parked channel becomes active and joins the link's stripe within WAKEBUD fabric cycles. -/
  | channelJoinsStripe
  /-- UCIE_LANE_REPAIR (R395): A lane of a die-to-die UCIe link is replaced by a spare lane and class 0x10 is queued. -/
  | ucieLaneRepair
  /-- LASER_WORN (R395): A transmit laser's bias current passes 130% of its bias at manufacture and class 0x21 is queued. -/
  | laserWorn
  /-- SURPRISE_LINK_DOWN (R336): A root port's link goes down unexpectedly and the event is reported through AER. -/
  | surpriseLinkDown
deriving DecidableEq, Repr

/-- One decoded word: its guard (R97), its keep field (R90, R98; 0 in a format without one) and its row. -/
structure Decoded where
  g    : Guard
  keep : BitVec 2
  i    : Instr
deriving DecidableEq, Repr

end Sys2Proof
end

