-- ==== Sys2Proof/Machine/Fields.lean ====
section
/-! DEFINITION. What each instruction's fields may hold and which registers they name: the static checks of R97
(spec/03_state_formats_assembly.md), from the entry of each instruction and R119 (spec/04_opcode_map.md). One form
per instruction serves the decoder, the footprint check (R26), the wait for outstanding registers (R34) and the
volatility of the q registers (R88). -/

namespace Sys2Proof.Machine

/-- The details of cause 0x01, R96. -/
inductive Detail where
  | undefined
  | reservedField
  | fallow
  | beyondFootprint
  | privilege
deriving DecidableEq, Repr

/-- The DETAIL codes of R96. -/
def Detail.code : Detail → Nat
  | .undefined => 1
  | .reservedField => 2
  | .fallow => 3
  | .beyondFootprint => 4
  | .privilege => 5

/-- The register files an operand field can name (R84, R85): v-context (main, operand and last-result registers by
index), s-context, guards. -/
inductive File where
  | v
  | s
  | g
deriving DecidableEq, Repr

/-- `n` consecutive registers of a file from index `idx`. -/
structure Use where
  file : File
  idx  : Nat
  n    : Nat
deriving DecidableEq, Repr

/-- The single registers of a use, as (file, index). -/
def Use.regs (u : Use) : List (File × Nat) := (List.range u.n).map fun i => (u.file, u.idx + i)

/-- The file of a v-context index (R85): 0 main, 1 operand, 2 last-result. -/
def vFile (i : Nat) : Nat := if i < 0x1E0 then 0 else if i < 0x1F8 then 1 else 2

/-- A q register (R85). -/
def isQ (i : Nat) : Bool := 0x1F8 ≤ i

/-- A block of `n` v-context registers lies in one file (R214, R235). -/
def oneFile (i n : Nat) : Bool := (i + n ≤ 0x200) && (vFile i == vFile (i + n - 1))

/-- What a check of a field finds: an illegal value (order 2 of R97), a nonzero bit that must be zero (order 3), and
the registers named. -/
structure Chk where
  undef : Bool := false
  rsvd  : Bool := false
  uses  : List Use := []
deriving DecidableEq, Repr

/-- How an instruction uses an operand field. -/
inductive Opd where
  | none              -- not read: zero
  | reg               -- a 32-bit register, or an s-register by its s-flag (R87)
  | pair              -- a pair (R86), or an s-register by its s-flag
  | blk (n : Nat)     -- n registers of one file, the index a multiple of n; index 0 is the literal zero (R101, R200)
  | blkX (n al : Nat) -- n registers of one file from a multiple of al (R214, R225); index 0 starts at v0
  | sreg              -- an s-register by function code (R85)
  | guard             -- a guard number in bits [2:0] (R119, R155)
  | lit (n : Nat)     -- a literal below the power of two n
  | raw               -- read by the entry itself
deriving DecidableEq, Repr

/-- The check of one operand field `x` with its s-flag `sf`. -/
def Opd.chk (o : Opd) (x : BitVec 9) (sf : Bool) : Chk :=
  let i := x.toNat
  match o with
  | .none => { rsvd := i != 0 || sf }
  | .reg => if sf then { uses := [⟨.s, i, 1⟩] } else { uses := if i == 0 then [] else [⟨.v, i, 1⟩] }
  | .pair =>
    if sf then { uses := [⟨.s, i, 1⟩] }
    else { undef := i % 2 == 1, uses := if i == 0 then [] else [⟨.v, i, 2⟩] }
  | .blk n =>
    { undef := i % n != 0 || !oneFile i n, rsvd := sf, uses := if i == 0 then [] else [⟨.v, i, n⟩] }
  | .blkX n al => { undef := i % al != 0 || !oneFile i n, rsvd := sf, uses := [⟨.v, i, n⟩] }
  | .sreg => { rsvd := sf, uses := [⟨.s, i, 1⟩] }
  | .guard => { rsvd := sf || 8 ≤ i, uses := [⟨.g, i % 8, 1⟩] }
  | .lit n => { rsvd := sf || n ≤ i }
  | .raw => { rsvd := sf }

/-- How an instruction of format A uses M[2:0]. -/
inductive MUse where
  | zero                       -- zero (R155, R175)
  | round                      -- a rounding mode, 0 to 4 (R119)
  | roundZero                  -- 5 to 7 illegal, and zero because the result does not round (R119)
  | convert (sr : Bool)        -- 0 to 4, and 5 where stochastic rounding is legal (R175, R183)
  | any                        -- every value
  | bits (m : BitVec 3)        -- the bits of m are used, the others are zero
deriving DecidableEq, Repr

/-- The check of M[2:0]. -/
def MUse.chk (u : MUse) (m : BitVec 3) : Chk :=
  match u with
  | .zero => { rsvd := m != 0 }
  | .round => { undef := 5 ≤ m.toNat }
  | .roundZero => { undef := 5 ≤ m.toNat, rsvd := m != 0 }
  | .convert sr => { undef := 6 ≤ m.toNat || (m.toNat == 5 && !sr) }
  | .any => {}
  | .bits k => { rsvd := (m &&& ~~~k) != 0 }

/-- What an instruction's fields amount to: the two static checks, the supervisor-only mark, the registers it reads
and writes, the accumulator tiles it names, and whether it is absent on a latency core (R122).
DEDUCED (unsafe): notes/assumptions/29.md. -/
structure Form where
  undef  : Bool := false
  rsvd   : Bool := false
  priv   : Bool := false
  src    : List Use := []
  dst    : List Use := []
  tiles  : List Nat := []
  absent : Bool := false
deriving DecidableEq, Repr

/-- The form of a format A instruction from how it uses each field; `ok` says which variants its entry lists. -/
def formA (f : FmtA) (ok : Bool) (m : MUse) (d a b c : Opd) : Form :=
  let M := m.chk f.mode
  let D := d.chk f.d false
  let A := a.chk f.a f.sA
  let B := b.chk f.b f.sB
  let C := c.chk f.c f.sC
  { undef := !ok || M.undef || D.undef || A.undef || B.undef || C.undef,
    rsvd := M.rsvd || D.rsvd || A.rsvd || B.rsvd || C.rsvd,
    src := A.uses ++ B.uses ++ C.uses, dst := D.uses }

/-- `formA` with further static checks. -/
def Form.also (f : Form) (undef rsvd : Bool) : Form := { f with undef := f.undef || undef, rsvd := f.rsvd || rsvd }

/-- D is also a source (BFI, R157; STAND's slot, SHAPE's and the copies' addresses). -/
def Form.dIsSrc (f : Form) : Form := { f with src := f.dst ++ f.src }

/-- The C field names the guard written, and is no source. -/
def Form.cIsDst (f : FmtA) (x : Form) : Form :=
  { x with src := x.src.filter (fun u => u != ⟨.g, f.c.toNat % 8, 1⟩),
           dst := ⟨.g, f.c.toNat % 8, 1⟩ :: x.dst }

/-- A load, an atomic, LDS, SLD or an engine instruction may not name a q register as its destination (R88). -/
def Form.noQ (x : Form) : Form :=
  { x with undef := x.undef || x.dst.any fun u => u.file == .v && isQ u.idx }

/-- 32-bit variant 0 or 64-bit variant 1 (R156). -/
def okW (f : FmtA) : Bool := f.var.toNat < 2
/-- Variant 0 alone. -/
def ok0 (f : FmtA) : Bool := f.var == 0
/-- The operand of a W operation. -/
def wOp (f : FmtA) : Opd := if f.var.getLsbD 0 then .pair else .reg
/-- A register or a pair. -/
def rp (wide : Bool) : Opd := if wide then .pair else .reg

def formBin (f : FmtA) : Form := formA f (okW f) .zero (wOp f) (wOp f) (wOp f) .none
def formUn (f : FmtA) : Form := formA f (okW f) .zero (wOp f) (wOp f) .none .none

/-- The width of ADDSAT and SUBSAT is in variant [1:0]; only 64 bits use pairs (R159). -/
def formSat (f : FmtA) : Form :=
  let o := rp (f.var.toNat % 4 == 3)
  formA f (f.var.toNat < 8) .zero o o o .none

/-- ADDX (R160): C holds the carry-in and carry-out guards. -/
def formAddx (f : FmtA) : Form :=
  let x := formA f (okW f) .zero (wOp f) (wOp f) (wOp f) .raw
  let c := f.c.toNat
  { x with rsvd := x.rsvd || 128 ≤ c,
           src := if f.c.getLsbD 3 then x.src else ⟨.g, c % 8, 1⟩ :: x.src,
           dst := ⟨.g, c / 16 % 8, 1⟩ :: x.dst }

/-- The immediate forms of major 0x02 (R162). -/
def formImm (f : FmtI) (d a : Opd) : Form :=
  let D := d.chk f.d false
  let A := a.chk f.a false
  { undef := D.undef || A.undef, rsvd := D.rsvd || A.rsvd, src := A.uses, dst := D.uses }

/-- An immediate of which only the low `n` bits may be nonzero. -/
def formImmBits (f : FmtI) (d a : Opd) (n : Nat) : Form :=
  (formImm f d a).also false (2 ^ n ≤ f.imm.toNat)

/-- ORD in C[4:3], 0 or 1, and SC in C[2:0], up to 5; C[8:5] zero (R138, R174). -/
def cOrdSc (c : BitVec 9) : Chk :=
  { undef := 2 ≤ c.toNat / 8 % 4 || 6 ≤ c.toNat % 8, rsvd := 32 ≤ c.toNat }

/-- The conversions' option field (R183): C[0] SAT, C[1] NAN, accepted as `sat` and `nan` say. -/
def formConv (f : FmtA) (ok sr sat nan : Bool) (d a b : Opd) : Form :=
  (formA f ok (.convert sr) d a b .raw).also false
    (4 ≤ f.c.toNat || (f.c.getLsbD 0 && !sat) || (f.c.getLsbD 1 && !nan))

/-- SETP and SSETP (R165): a combine of 0 requires C = 0. -/
def formCombine (f : FmtA) (x : Form) : Form :=
  let none := f.mode.toNat / 2 == 0
  let src := if none then x.src.filter (fun u => u != ⟨.g, f.c.toNat % 8, 1⟩) else x.src
  { x with rsvd := x.rsvd || (none && f.c != 0), src := src }

/-- The base of formats M and N: an s-register (UB = 1) or a pair. -/
def baseChk (ub : Bool) (ba : BitVec 9) : Chk := Opd.chk .pair ba ub

/-- The data registers of an access of size code `sz` (R101). -/
def dataOpd (sz : BitVec 3) : Opd :=
  match sz.toNat with
  | 3 => .pair
  | 4 => .blk 4
  | 5 => .blk 8
  | _ => .reg

/-- SZ, SX and SC of a load or store (R101, R195). -/
def formMem (load : Bool) (t ba : BitVec 9) (ub : Bool) (sz : BitVec 3) (sx : Bool)
    (ord : BitVec 2) (sc : BitVec 3) : Form :=
  let T := (dataOpd sz).chk t false
  let A := baseChk ub ba
  let x : Form :=
    { undef := 6 ≤ sz.toNat || 6 ≤ sc.toNat || T.undef || A.undef ||
        (if load then 2 ≤ ord.toNat else ord.getLsbD 0),
      rsvd := sx && (!load || 3 ≤ sz.toNat),
      src := if load then A.uses else A.uses ++ T.uses,
      dst := if load then T.uses else [] }
  if load then x.noQ else x

/-- An atomic of R200; `sizes` are the SZ codes its row accepts, `cmp` says DC is the comparand. -/
def formAtomic (f : FmtN) (sizes : List Nat) (cmp : Bool) : Form :=
  let o := dataOpd f.sz
  let T := o.chk f.t false
  let A := baseChk f.ub f.ba
  let B := o.chk f.db false
  let C := if cmp then o.chk f.dc false else Opd.chk .none f.dc false
  Form.noQ { undef := !sizes.contains f.sz.toNat || 6 ≤ f.sc.toNat || T.undef || A.undef || B.undef || C.undef,
                rsvd := f.sx || C.rsvd, src := A.uses ++ B.uses ++ C.uses, dst := T.uses }

/-- Major 0x1B (R203, R151): which fields a row leaves zero. -/
def formCache (f : FmtN) (base db : Opd) (undef rsvd : Bool) : Form :=
  let A := match base with
    | .none => { Opd.chk .none f.ba false with rsvd := f.ba != 0 || f.ub }
    | _ => baseChk f.ub f.ba
  let B := db.chk f.db false
  { undef := undef || A.undef || B.undef, rsvd := rsvd || f.t != 0 || f.sx || f.dc != 0 || A.rsvd || B.rsvd,
      src := A.uses ++ B.uses }

/-- A format X instruction: which fields name registers; `d` may be a tile number instead. -/
def formX (f : FmtX) (d a b c : Opd) (undef rsvd : Bool) : Form :=
  let D := d.chk f.d false
  let A := a.chk f.a false
  let B := b.chk f.b false
  let C := c.chk f.c false
  { undef := undef || D.undef || A.undef || B.undef || C.undef,
      rsvd := rsvd || D.rsvd || A.rsvd || B.rsvd || C.rsvd,
      src := A.uses ++ B.uses ++ C.uses, dst := D.uses }

/-- kb of P[3:0] (R235). -/
def xKb (f : FmtX) : Nat := f.p.toNat % 16 + 1

/-- The scale registers from SA: nonzero, 4·kb of them in one file (R235), from an even index (R214). -/
def scaleChk (i kb : Nat) : Chk :=
  { undef := i == 0 || i % 2 == 1 || !oneFile i (4 * kb), uses := [⟨.v, i, 4 * kb⟩] }

/-- The matrix multiply family (R235): D is a tile, A and B are address pairs. -/
def formMma (f : FmtX) (scales : Chk) (undef rsvd : Bool) : Form :=
  let x := formX f (.lit 16) .pair .pair .raw (undef || scales.undef) rsvd
  { x with src := x.src ++ scales.uses, tiles := [f.d.toNat], absent := true }

/-- The BX forms read SA, and SB after it when SBSEP is set. -/
def formMmaBx (f : FmtX) : Form :=
  let sa := scaleChk f.c.toNat (xKb f)
  let sb : Chk := if f.p.getLsbD 7 then scaleChk (f.c.toNat + 4 * (xKb f)) (xKb f) else {}
  formMma f { undef := sa.undef || sb.undef, uses := sa.uses ++ sb.uses } false (256 ≤ f.p.toNat)

/-- MMAG (R235): P[9:7] is the format; a BX format needs SA, the others need C = 0 and HSA = 0. -/
def formMmag (f : FmtX) : Form :=
  if f.p.toNat / 128 < 3 then formMma f (scaleChk f.c.toNat (xKb f)) false (f.p.getLsbD 5)
  else formMma f {} (f.c != 0 || f.p.getLsbD 4) (f.p.getLsbD 5)

/-- Accumulator commands (R241): tile numbers below 16 in D and, where it is a tile, A. -/
def formAcc (f : FmtX) (a b c : Opd) (srcTile : Bool) (undef rsvd : Bool) : Form :=
  let x := formX f (.lit 16) a b c undef rsvd
  { x with tiles := if srcTile then [f.d.toNat, f.a.toNat] else [f.d.toNat], absent := true }

/-- SC of a copy in P[4:2] (R225). -/
def xSc (f : FmtX) : Nat := f.p.toNat / 4 % 8

/-- The CSR scopes of R91. -/
inductive CsrScope where
  | thread
  | group
  | core
  | die
  | space
deriving DecidableEq, Repr

/-- A listed CSR (R92, R298): 64-bit or 32-bit, its scope, and whether user and supervisor may read and write it. -/
structure CsrInfo where
  wide  : Bool
  scope : CsrScope
  uR    : Bool
  uW    : Bool
  sW    : Bool
deriving DecidableEq, Repr

/-- The CSR lists of R92 and R298; an index that neither lists is `none`. -/
def csrInfo (i : Nat) : Option CsrInfo :=
  let rwrw (w : Bool) (s : CsrScope) : Option CsrInfo := some ⟨w, s, true, true, true⟩
  let rorw (w : Bool) (s : CsrScope) : Option CsrInfo := some ⟨w, s, true, false, true⟩
  let roro (w : Bool) (s : CsrScope) : Option CsrInfo := some ⟨w, s, true, false, false⟩
  let sup (w : Bool) (s : CsrScope) : Option CsrInfo := some ⟨w, s, false, false, true⟩
  if i ≤ 0x002 then rwrw false .thread
  else if i == 0x003 then rorw true .thread
  else if i ≤ 0x006 then rwrw true .thread
  else if i == 0x007 then rwrw false .thread
  else if i == 0x008 then roro true .thread
  else if i == 0x009 then roro false .thread
  else if i == 0x00A then rorw true .thread
  else if i == 0x00B then roro false .thread
  else if i == 0x00C then rorw true .space
  else if i == 0x100 then rorw true .group
  else if i == 0x101 then rwrw true .group
  else if i == 0x102 then roro false .group
  else if 0x180 ≤ i && i ≤ 0x1C7 then roro false .core
  else if i == 0x1C8 then rorw false .core
  else if 0x1D0 ≤ i && i ≤ 0x1D7 then rorw false .core
  else if 0x800 ≤ i && i ≤ 0x806 then sup false .core
  else if 0x808 ≤ i && i ≤ 0x80F then sup false .core
  else if i == 0x900 then sup false .die
  else if i == 0xA00 then rorw false .thread
  else if i == 0xA01 || i == 0xA09 then sup true .core
  else if i == 0xA02 || i == 0xA0A then sup false .core
  else if i == 0xA03 || i == 0xA0B then rorw true .core
  else if i == 0xA04 || i == 0xA0C then rwrw true .core
  else if i == 0xA05 || i == 0xA0D then rorw false .core
  else if i == 0xA08 || i == 0xA10 then sup false .core
  else if 0xA20 ≤ i && i ≤ 0xA2F then sup true .core
  else if 0xA30 ≤ i && i ≤ 0xA3F then rorw true .core
  else if 0xA40 ≤ i && i ≤ 0xA5F then rorw false .core
  else if 0xA60 ≤ i && i ≤ 0xA67 then sup true .core
  else none

/-- The CSR form (R105, R145): the index is listed; CSRR has A zero. -/
def formCsr (f : FmtC) (read : Bool) : Form :=
  let D := (rp f.wide).chk f.d false
  let A := if read then Opd.chk .none f.a f.sA else (rp f.wide).chk f.a f.sA
  let x : Form := { undef := (csrInfo f.csr.toNat).isNone || D.undef || A.undef, rsvd := A.rsvd,
                    src := A.uses, dst := D.uses }
  x

/-- A CSR access the current mode may not make (the access codes of R91). -/
def csrDenied (sup : Bool) (i : Nat) (write : Bool) : Bool :=
  match csrInfo i with
  | none => false
  | some c => if sup then write && !c.sW else !c.uR || (write && !c.uW)

/-- The form of each instruction, from its entry. Events have no fields of a word. -/
def form : Instr → Form
  | .add f | .sub f | .mul f | .mulh f | .mulhu f => formBin f
  | .mad f => formA f (okW f) .zero (wOp f) (wOp f) (wOp f) (wOp f)
  | .madw f => formA f (okW f) .zero .pair .reg .reg .pair
  | .div f | .divu f | .rem f | .remu f | .min f | .max f | .minu f | .maxu f => formBin f
  | .abs f | .neg f => formUn f
  | .addsat f | .subsat f => formSat f
  | .addx f => formAddx f
  | .and f | .or f | .xor f | .andn f => formBin f
  | .not f => formUn f
  | .shl f | .shr f | .sar f | .rol f | .ror f => formBin f
  | .bfx f => formA f (f.var.toNat < 4) .zero (wOp f) (wOp f) (wOp f) (wOp f)
  | .bfi f => (formA f (okW f) .zero (wOp f) (wOp f) (wOp f) (wOp f)).dIsSrc
  | .popc f | .clz f | .ctz f | .brev f => formUn f
  | .prmt f => formA f (ok0 f) .zero .reg .reg .reg .reg
  | .sel f => formA f (okW f) .zero (wOp f) (wOp f) (wOp f) .guard
  | .lea f => formA f (f.var.toNat < 5) .zero .reg .reg .reg .none
  | .dp4 f | .dp2 f => formA f (f.var.toNat < 8) .zero .reg .reg .reg .reg
  | .addImm f | .mulImm f | .minImm f | .maxImm f | .minuImm f | .maxuImm f => formImm f .reg .reg
  | .andImm f | .orImm f | .xorImm f => formImm f .reg .reg
  | .movi f => formImm f .reg .none
  | .shlImm f | .shrImm f | .sarImm f | .rolImm f | .rorImm f => formImmBits f .reg .reg 5
  | .bfxImm f => formImmBits f .reg .reg 12
  | .addd f | .subd f => formA f (f.var.toNat < 3) .zero .pair .pair (rp (f.var == 2)) .none
  | .shld f | .shrd f => formA f (ok0 f) .zero .pair .pair .reg .none
  | .mulwd f => formA f (okW f) .zero .pair .reg .reg .none
  | .madwd f => formA f (okW f) .zero .pair .reg .reg .pair
  | .lead f => formA f (okW f) .any .pair .pair .reg .none
  | .adddImm f | .subdImm f | .leadImm f => formImm f .pair .pair
  | .shldImm f | .shrdImm f => formImmBits f .pair .pair 6
  | .mulwdImm f => formImm f .pair .reg
  | .leapc f => formImm f .pair .none
  | .sadd f | .ssub f | .smul f | .sand f | .sor f | .sxor f | .sshl f | .sshr f | .ssar f | .smin f | .smax f =>
      formA f (ok0 f) .zero .sreg .reg .reg .none
  | .smov f => formA f (ok0 f) .zero .sreg .reg .none .none
  | .sld f =>
      let C := cOrdSc f.c
      (formA f (ok0 f) .zero .sreg .pair .reg .raw).also C.undef C.rsvd
  | .saddImm f | .smulImm f | .sandImm f | .sorImm f | .sxorImm f | .sminImm f | .smaxImm f | .sldImm f =>
      formImm f .sreg .sreg
  | .smovi f => formImm f .sreg .none
  | .sshlImm f | .sshrImm f | .ssarImm f => formImmBits f .sreg .sreg 6
  | .mov f | .rdfl f => formUn f
  | .rdflS f => formA f (okW f) .zero .sreg (wOp f) .none .none
  | .rdln f => formA f (okW f) .zero (wOp f) (wOp f) (.lit 32) .none
  | .bcast f => formA f (okW f) .zero (wOp f) (wOp f) .reg .none
  | .shfl f =>
      let o := rp (f.var.getLsbD 2)
      (formA f (f.var.toNat < 8) .zero o o .reg .guard).cIsDst f
  | .elect f => formA f (ok0 f) .zero .guard .none .none .none
  | .ballot f => formA f (ok0 f) .zero .reg .guard .none .none
  | .ballotS f => formA f (ok0 f) .zero .sreg .guard .none .none
  | .matchEq f => formA f (okW f) .zero .reg (wOp f) .none .none
  | .pmov f => { formA f (ok0 f) .zero .reg .none .none .none with src := [⟨.g, 1, 7⟩] }
  | .pmovToGuards f => { formA f (f.var == 1) .zero .none .reg .none .none with dst := [⟨.g, 1, 7⟩] }
  | .fadd f | .fsub f | .fmul f | .fscale f | .fdiv f => formA f (ok0 f) .round .reg .reg .reg .none
  | .ffma f => formA f (ok0 f) .round .reg .reg .reg .reg
  | .fmin f | .fmax f => formA f (ok0 f) .roundZero .reg .reg .reg .none
  | .fclamp f => formA f (ok0 f) .roundZero .reg .reg .reg .reg
  | .frint f | .fsqrt f => formA f (ok0 f) .round .reg .reg .none .none
  | .fabsneg f => formA f (f.var.toNat < 4) .roundZero .reg .reg (if f.var == 3 then .reg else .none) .none
  | .hadd2 f | .hsub2 f | .hmul2 f => formA f (okW f) .round .reg .reg .reg .none
  | .hfma2 f | .hdot2 f => formA f (okW f) .round .reg .reg .reg .reg
  | .hmin2 f | .hmax2 f => formA f (okW f) .roundZero .reg .reg .reg .none
  | .dadd f | .dmul f | .ddiv f => formA f (ok0 f) .round .pair .pair .pair .none
  | .dfma f => formA f (ok0 f) .round .pair .pair .pair .pair
  | .dmin f | .dmax f => formA f (ok0 f) .roundZero .pair .pair .pair .none
  | .dsqrt f => formA f (ok0 f) .round .pair .pair .none .none
  | .cvtif f => formConv f true false false false (rp (f.var.toNat / 4 == 3)) (rp (2 ≤ f.var.toNat % 4)) .none
  | .cvtfi f => formConv f true false false false (rp (2 ≤ f.var.toNat / 4)) (rp (f.var.toNat % 4 == 3)) .none
  | .cvtff f =>
      let s := f.var.toNat % 4
      let d := f.var.toNat / 4
      formConv f true ((s == 3 && d != 3) || (s == 2 && d < 2)) true false (rp (d == 3)) (rp (s == 3)) .none
  | .pkf8 f =>
      let o := rp (f.var.toNat % 4 == 0)
      formConv f (f.var.toNat % 4 != 3 && f.var.toNat < 8) true false true .reg o o
  | .upf8 f =>
      (formConv f (f.var.toNat / 2 % 4 != 3 && f.var.toNat < 8) false false false .pair .reg
        (if f.var.toNat / 2 % 4 == 2 then .lit 2 else .none)).also false (f.mode != 0)
  | .pkh f => formConv f (okW f) true true false .reg .reg .reg
  | .rcp f | .rsq f | .sqrta f | .exp2 f | .log2 f | .sin f | .cos f | .tanh f =>
      formA f (ok0 f) .round .reg .reg .none .none
  | .bpack f => formA f (f.var.toNat < 3) .zero .reg .pair .none .none
  | .bunpk f => formA f (f.var.toNat % 4 != 3 && f.var.toNat < 8) .zero .pair .reg .reg .none
  | .bexp f => formA f (ok0 f) .zero .reg .reg .reg .none
  | .setp f =>
      let o := rp (f.mode.getLsbD 0)
      formCombine f (formA f (f.var.toNat % 8 < 6) .any .guard o o .guard)
  | .fsetp f =>
      let o := rp (f.mode.getLsbD 0)
      formCombine f (formA f (f.var.toNat < 8) .any .guard o o .guard)
  | .pand f | .por f | .pxor f => formA f (ok0 f) .zero .guard .guard .guard .none
  | .pnot f => formA f (ok0 f) .zero .guard .guard .none .none
  | .vote f => formA f (f.var.toNat < 3) .zero .guard .guard .none .none
  | .alwp f => formA f (f.var.toNat < 2) .zero .guard .reg .reg .none
  | .ssetp f => formCombine f (formA f (f.var.toNat % 8 < 6) (.bits 6#3) .guard .sreg .sreg .guard)
  | .bra _ => {}
  | .call f =>
      let L := Opd.chk .pair f.link false
      { undef := L.undef, rsvd := f.link == 0, dst := L.uses }
  | .jr f | .ret f => formA f (ok0 f) .zero .none .pair .none .none
  | .callr f => formA f (ok0 f) .zero .pair .pair .none .none
  | .jrs f => formA f (ok0 f) .zero .none .sreg .none .none
  | .meet f => formA f (ok0 f) .zero .pair .pair .none .none
  | .rejoin f => formA f (ok0 f) .zero .none .pair .none .none
  | .loop f =>
      (formA f (ok0 f) (.bits 1#3) (.lit 2) (rp (f.mode.getLsbD 0)) .raw .raw).also (f.b == 0 && f.c == 0) false
  | .lpexit f => formA f (ok0 f) .zero (.lit 2) .none .none .none
  | .migrate f | .wake f => formA f (ok0 f) .zero .none .reg .none .none
  | .fanout f => formA f (ok0 f) .zero .pair .pair .none .none
  | .sleep f => formA f (ok0 f) .zero .reg .reg .none .none
  | .bar f => formA f (f.var.toNat < 6) .zero .none .none .none .none
  | .waitv f =>
      let o := rp (f.var.getLsbD 3)
      let C := cOrdSc f.c
      (formA f true .zero o .pair o .raw).also C.undef C.rsvd
  | .waits f | .waitp f => formA f (ok0 f) .zero .none .pair .reg .none
  | .trap f => formA f (ok0 f) .zero .none .pair .none .none
  | .brkpt f => formA f (ok0 f) .zero .none .raw .none .none
  | .csrr f => formCsr f true
  | .csrw f | .csrset f | .csrclr f => formCsr f false
  | .stepBegin f => formA f (f.var == 0) .zero .none .reg .none .none
  | .stepEnd f => formA f (f.var == 1) .zero .none .reg .none .none
  | .ptag f => formA f (ok0 f) .zero .none .reg .none .none
  | .ld f => formMem true f.t f.ba f.ub f.sz f.sx f.ord f.sc
  | .st f => formMem false f.t f.ba f.ub f.sz f.sx f.ord f.sc
  | .aadd f | .aand f | .aor f | .axor f | .amin f | .amax f | .aminn f | .amaxn f | .afadd f => formAtomic f [2, 3] false
  | .aswap f => formAtomic f [2, 3, 4] false
  | .acas f => formAtomic f [2, 3, 4] true
  | .aaddSpad f | .aandSpad f | .aorSpad f | .axorSpad f | .aminSpad f | .amaxSpad f | .aminnSpad f | .amaxnSpad f
  | .afaddSpad f => formAtomic f [2, 3] false
  | .aswapSpad f => formAtomic f [2, 3, 4] false
  | .acasSpad f => formAtomic f [2, 3, 4] true
  | .lds f => (formMem true f.t f.ba f.ub f.sz f.sx f.ord f.sc).also false (f.db != 0 || f.dc != 0)
  | .sts f => (formMem false f.t f.ba f.ub f.sz f.sx f.ord f.sc).also false (f.db != 0 || f.dc != 0)
  | .fence f => formCache f .none .none (6 ≤ f.sc.toNat || 6 ≤ f.sz.toNat) (f.sz != 0)
  | .iinv f => formCache f .pair .reg (5 ≤ f.sc.toNat || 6 ≤ f.sz.toNat) (f.sz != 0 || f.ord != 0)
  | .clean f => formCache f .pair .reg (6 ≤ f.sc.toNat || 6 ≤ f.sz.toNat) (f.sz != 0 || f.ord != 0 || f.sc != 0)
  | .pref f => formCache f .pair .none (6 ≤ f.sc.toNat || 4 ≤ f.sz.toNat) (f.ord != 0 || f.sc != 0)
  | .tlbi f =>
      let k := f.sz.toNat
      { formCache f (if k == 1 || k == 2 then .none else .pair) (if k == 2 || k == 3 then .none else .reg)
          (6 ≤ f.sc.toNat || 4 ≤ k) (f.ord != 0) with priv := true }
  | .stand f =>
      let T := Opd.chk .pair f.t false
      let A := baseChk f.ub f.ba
      let B := Opd.chk .guard f.db false
      { undef := f.sz != 3 || 2 ≤ f.ord.toNat || 6 ≤ f.sc.toNat || T.undef || A.undef,
          rsvd := f.sx || f.dc != 0 || B.rsvd, src := T.uses ++ A.uses, dst := B.uses }
  | .unstand f =>
      let T := Opd.chk .pair f.t false
      { undef := f.sz != 3 || 6 ≤ f.sc.toNat || T.undef,
          rsvd := f.sx || f.dc != 0 || f.db != 0 || f.ba != 0 || f.ub || f.ord != 0 || f.sc != 0, src := T.uses }
  | .mmab4 f | .mmab6 f | .mmab8 f => formMmaBx f
  | .mmaf8 f => formMma f {} false (f.c != 0 || 128 ≤ f.p.toNat)
  | .mmah f => formMma f {} false (f.c != 0 || f.p.getLsbD 5 || 128 ≤ f.p.toNat)
  | .mmai8 f => formMma f {} false (f.c != 0 || 128 ≤ f.p.toNat)
  | .mmag f => formMmag f
  | .mmas f => formMma f {} ((xKb f) != 8 && (xKb f) != 16) (f.c != 0 || 128 ≤ f.p.toNat)
  | .azero f => formAcc f .none .none .none false false (f.p != 0)
  | .ald f => formAcc f .pair .none .pair false false (f.p != 0)
  | .ast f => formAcc f .pair .none .pair false (f.p.toNat % 4 == 3) (16 ≤ f.p.toNat)
  | .mtrn f => formAcc f (.lit 16) .none .none true false (f.p != 0)
  | .mprm f => formAcc f (.lit 16) .pair .none true false (f.p != 0)
  | .mred f => formAcc f (.lit 16) .none .none true false (8 ≤ f.p.toNat)
  | .tcpy f =>
      { (formX f .pair .pair (.blkX 5 2) .pair (6 ≤ xSc f) (f.p.getLsbD 5 && 64 ≤ f.p.toNat)).dIsSrc with dst := [] }
  | .tcpym f =>
      { (formX f .pair .pair (.blkX 5 2) (.blkX 4 4) (6 ≤ xSc f) (32 ≤ f.p.toNat)).dIsSrc with dst := [], absent := true }
  | .tgath f =>
      { (formX f .pair .pair (.blkX 6 2) .pair (6 ≤ xSc f) (f.p.getLsbD 5)).dIsSrc with dst := [] }
  | .cchn f => formX f .none .pair .none .pair false (4 ≤ f.p.toNat)
  | .swinit f | .swadd f => (formX f .pair .pair .reg .none (f.p.getLsbD 0 || 6 ≤ xSc f) (32 ≤ f.p.toNat)).noQ
  | .shape f => { (formX f .pair .pair .pair .none false (f.p != 0)).dIsSrc with dst := [] }
  | _ => {}

/-- The form of a decoded word: the row's, with its guard as a further source (R97). -/
def formOf (d : Decoded) : Form :=
  { form d.i with src := if d.g.idx == 0 then (form d.i).src else ⟨.g, d.g.idx.toNat, 1⟩ :: (form d.i).src }

/-- A negated g0 is illegal (R97). -/
def guardUndef (g : Guard) : Bool := g.neg && g.idx == 0

/-- LIVE allows no guard (R104, R119); format A alone has a keep field (R98, R105). -/
def guardRsvd (d : Decoded) : Bool :=
  match d.i with
  | .live _ => d.g != ⟨false, 0⟩
  | _ => false

/-- Checks 2 and 3 of R97, in their order.
DEDUCED (unsafe): notes/assumptions/71.md. -/
def staticCheck (d : Decoded) : Option Detail :=
  if guardUndef d.g || (form d.i).undef then some .undefined
  else if guardRsvd d || (form d.i).rsvd then some .reservedField
  else none

/-- The rows of format A, whose words have a keep field (R90, R98). -/
def hasKeep : Instr → Bool
  | .add _ | .sub _ | .mul _ | .mulh _ | .mulhu _ | .mad _ | .madw _ | .div _ | .divu _ | .rem _ | .remu _
  | .min _ | .max _ | .minu _ | .maxu _ | .abs _ | .neg _ | .addsat _ | .subsat _ | .addx _ | .and _
  | .or _ | .xor _ | .andn _ | .not _ | .shl _ | .shr _ | .sar _ | .rol _ | .ror _ | .bfx _ | .bfi _
  | .popc _ | .clz _ | .ctz _ | .brev _ | .prmt _ | .sel _ | .lea _ | .dp4 _ | .dp2 _ | .addd _ | .subd _
  | .shld _ | .shrd _ | .mulwd _ | .madwd _ | .lead _ | .sadd _ | .ssub _ | .smul _ | .sand _ | .sor _
  | .sxor _ | .sshl _ | .sshr _ | .ssar _ | .smin _ | .smax _ | .smov _ | .sld _ | .mov _ | .rdfl _
  | .rdflS _ | .rdln _ | .bcast _ | .shfl _ | .elect _ | .ballot _ | .ballotS _ | .matchEq _ | .pmov _
  | .pmovToGuards _ | .fadd _ | .fsub _ | .fmul _ | .ffma _ | .fmin _ | .fmax _ | .fclamp _ | .frint _
  | .fscale _ | .fdiv _ | .fsqrt _ | .fabsneg _ | .hadd2 _ | .hsub2 _ | .hmul2 _ | .hfma2 _ | .hmin2 _
  | .hmax2 _ | .hdot2 _ | .dadd _ | .dmul _ | .dfma _ | .dmin _ | .dmax _ | .ddiv _ | .dsqrt _ | .cvtif _
  | .cvtfi _ | .cvtff _ | .pkf8 _ | .upf8 _ | .pkh _ | .rcp _ | .rsq _ | .sqrta _ | .exp2 _ | .log2 _
  | .sin _ | .cos _ | .tanh _ | .bpack _ | .bunpk _ | .bexp _ | .setp _ | .fsetp _ | .pand _ | .por _
  | .pxor _ | .pnot _ | .vote _ | .alwp _ | .ssetp _ | .jr _ | .callr _ | .ret _ | .jrs _ | .meet _
  | .rejoin _ | .gsync | .loop _ | .lpexit _ | .migrate _ | .fanout _ | .exit | .yield | .sleep _ | .wake _
  | .bar _ | .waitv _ | .waits _ | .waitp _ | .nop | .syscall | .trap _ | .eret | .eretSupervisor
  | .brkpt _ | .stepBegin _ | .stepEnd _ | .ptag _ => true
  | _ => false

/-- A keep field stands only in format A. -/
def keepOk (d : Decoded) : Bool := hasKeep d.i || d.keep == 0

/-- A word of a fallow major, 0x25 to 0x3E (R114, R116). -/
def isFallow (w : DWord) : Bool :=
  let m := (w.extractLsb' 0 6).toNat
  0x25 ≤ m && m ≤ 0x3E

/-- A word of a permanently illegal or reserved major (R115). -/
def isIllegalMajor (w : DWord) : Bool :=
  [0x00, 0x0F, 0x1E, 0x1F, 0x24, 0x3F].contains (w.extractLsb' 0 6).toNat

/-- A core that exists (R1, R2). -/
def coreOk (die core : Nat) : Bool := (die < 4 && core < 32) || (4 ≤ die && die < 6 && core < 48)

/-- A slot that exists (R2). -/
def slotOk (die core slot : Nat) : Bool := coreOk die core && (if die < 4 then slot < 1024 else slot < 2)

def slotIdOk (g : SlotId) : Bool := slotOk g.die g.core g.slot
/-- A thread: a lane of a group, or a hardware thread's user or supervisor context, the latter two slots above. -/
def laneIdOk (l : LaneId) : Bool :=
  coreOk l.die l.core && (if l.die < 4 then l.slot < 1024 && l.lane < 32 else l.slot < 4 && l.lane == 0)
def coreIdOk (c : CoreId) : Bool := coreOk c.die c.core
/-- A copy channel that exists: a SIMT core's, or a die-level engine's of an L-die (R3). -/
def chanOk (c : ChanId) : Bool :=
  c.chan < 4 && ((c.die < 4 && c.unit < 32) || (4 ≤ c.die && c.die < 6 && 48 ≤ c.unit && c.unit < 64))
/-- A latency hardware thread. -/
def hwOk (h : SlotId) : Bool := 4 ≤ h.die && slotIdOk h
def sDie (d : Nat) : Bool := d < 4
def lDie (d : Nat) : Bool := d == 4 || d == 5

/-- An agent id of a package that R3's layout allows: a thread, a copy channel, a fabric port or a home. -/
def agentOk (pkg : Nat) (a : BitVec 32) : Bool :=
  let die := (a.extractLsb' 23 3).toNat
  let unit := (a.extractLsb' 17 6).toNat
  let slot := (a.extractLsb' 7 10).toNat
  let lane := (a.extractLsb' 2 5).toNat
  (a.extractLsb' 26 6).toNat == pkg && match (a.extractLsb' 0 2).toNat with
    | 0 => slotOk die unit slot && (die < 4 || lane == 0)
    | 1 => lane == 0 && chanOk ⟨die, unit, slot⟩
    | 2 => sDie die && unit < 16 && slot < 16 && lane == 0
    | _ => die < 6 && unit == 0 && slot == 0 && lane == 0

/-- The agents a subject names exist (R1, R2, R3, R361, R373): hardware thread numbers below 192 (two on each of 48
cores of two dies), channels below 256 and memory units 0 to 15 for stacks, 16 and 17 for the LPDDR of dies 4 and 5. -/
def subjectOk : Subject → Bool
  | .nothing => true
  | .die d | .dieIdx d _ => d < 6
  | .core c | .coreIdx c _ => coreIdOk c
  | .slot g | .meet g _ => slotIdOk g
  | .entry h k => hwOk h && k < 4
  | .lane l | .signal l _ => laneIdOk l
  | .idx _ => true
  | .chan ch | .chanIdx ch _ => chanOk ch
  | .plan cs => cs.all fun c => coreIdOk c && sDie c.die
  | .home r => r.peer < 64 && r.attr.all fun a => agentOk r.peer a.2.1
  | .queue _ => true
  | .dma d => lDie d.die && d.port < 4
  | .command d t x => d < 6 && t < 192 && x < 16
  | .regLoad d h _ => d < 6 && hwOk h
  | .regStore _ h _ => hwOk h
  | .trained d c _ _ | .flit d c _ => sDie d && c < 256
  | .link d p _ => sDie d && p < 64
  | .peer p => p < 64
  | .unit u | .unitFlag u _ | .unitPa u _ _ => u < 18
  | .stretch d r _ _ => d < 6 && (if d < 4 then r < 9 else r < 13)
  | .power r => r.die < 6
  | .sample _ rs => rs.map (·.die) == List.range 6
  | .doorbell _ => true
  | .ucie lo hi => lo < hi && hi < 6
  | .laser d f w => sDie d && f < 16 && w < 16

end Sys2Proof.Machine
end

