-- ==== Sys2Proof/WellFormed.lean ====
section
/-! DEFINITION. Which decoded words are instructions of the machine: the static checks of R97, and a keep field only
in format A (R98). The checks themselves are Machine.staticCheck and Machine.keepOk; the ranges of the agents an event
names are Machine.subjectOk (spec/00_scope.md R1 to R3). -/

namespace Sys2Proof

/-- A well-formed instruction word. -/
def WellFormed (d : Decoded) : Prop := Machine.staticCheck d = none ∧ Machine.keepOk d = true

/-- `WellFormed` as a Bool. -/
def wellFormed (d : Decoded) : Bool := (Machine.staticCheck d).isNone && Machine.keepOk d

end Sys2Proof
end

