-- ==== Sys2Proof/Decode.lean ====
section
/-! DEFINITION. The decoder and the encoder of one 64-bit instruction word (spec/03_state_formats_assembly.md R97 to
R105, spec/04_opcode_map.md R114 to R120). The decoder is total: it answers an instruction or the detail of cause 0x01
that R97 reports first. A word of a fallow major and a word of a permanently illegal or reserved major decode to the
table's rows of those names. A reserved field is one that no format record holds, so a word with a nonzero reserved
field differs from the encoding of what its fields say. -/

namespace Sys2Proof

/-- Bits [lo+n-1:lo] of a word. -/
abbrev bitsOf (w : DWord) (lo n : Nat) : BitVec n := w.extractLsb' lo n

/-- The major, bits [5:0] (R97). -/
def majorOf (w : DWord) : Nat := (bitsOf w 0 6).toNat

/-- The guard field (R97). -/
def guardOf (w : DWord) : Guard := ⟨w.getLsbD 9, bitsOf w 6 3⟩

def unpackA (w : DWord) : FmtA :=
  { sA := w.getLsbD 63, sB := w.getLsbD 62, sC := w.getLsbD 61,
    mode := bitsOf w 58 3, var := bitsOf w 54 4, d := bitsOf w 10 9, a := bitsOf w 19 9, b := bitsOf w 28 9,
    c := bitsOf w 37 9 }

def unpackI (w : DWord) : FmtI :=
  { d := bitsOf w 10 9, a := bitsOf w 19 9, imm := bitsOf w 32 32 }

def unpackB (w : DWord) : FmtB := { link := bitsOf w 10 9, off := bitsOf w 24 40 }

def unpackM (w : DWord) : FmtM :=
  { t := bitsOf w 10 9, ba := bitsOf w 19 9, ub := w.getLsbD 28, sz := bitsOf w 29 3,
    sx := w.getLsbD 32, ord := bitsOf w 33 2, sc := bitsOf w 35 3, ch := bitsOf w 38 2, off := bitsOf w 41 23 }

def unpackN (w : DWord) : FmtN :=
  { t := bitsOf w 10 9, ba := bitsOf w 19 9, ub := w.getLsbD 28, sz := bitsOf w 29 3,
    sx := w.getLsbD 32, ord := bitsOf w 33 2, sc := bitsOf w 35 3, db := bitsOf w 42 9, dc := bitsOf w 51 9 }

/-- Format X (R103): C in [45:37].
DEDUCED (unsafe): notes/assumptions/17.md. -/
def unpackX (w : DWord) : FmtX :=
  { d := bitsOf w 10 9, a := bitsOf w 19 9, b := bitsOf w 28 9, c := bitsOf w 37 9,
    p := bitsOf w 54 10 }

def unpackC (w : DWord) : FmtC :=
  { sA := w.getLsbD 63, wide := w.getLsbD 60, csr := bitsOf w 28 12, d := bitsOf w 10 9,
    a := bitsOf w 19 9 }

/-- The guard's four bits. -/
def packG (g : Guard) : BitVec 4 := BitVec.ofBool g.neg ++ g.idx

def packA (g : Guard) (k : BitVec 2) (maj : BitVec 6) (fn : Nat) (f : FmtA) : DWord :=
  BitVec.ofBool f.sA ++ BitVec.ofBool f.sB ++ BitVec.ofBool f.sC ++ f.mode ++ f.var ++ BitVec.ofNat 6 fn ++ k ++
    f.c ++ f.b ++ f.a ++ f.d ++ packG g ++ maj

def packI (g : Guard) (maj : BitVec 6) (fn : Nat) (f : FmtI) : DWord :=
  f.imm ++ BitVec.ofNat 4 fn ++ f.a ++ f.d ++ packG g ++ maj

def packB (g : Guard) (link : BitVec 9) (off : BitVec 40) : DWord :=
  off ++ 0#5 ++ link ++ packG g ++ 0x10#6

def packM (g : Guard) (maj : BitVec 6) (f : FmtM) : DWord :=
  f.off ++ 0#1 ++ f.ch ++ f.sc ++ f.ord ++ BitVec.ofBool f.sx ++ f.sz ++ BitVec.ofBool f.ub ++ f.ba ++ f.t ++
    packG g ++ maj

def packN (g : Guard) (maj : BitVec 6) (aop : Nat) (f : FmtN) : DWord :=
  0#4 ++ f.dc ++ f.db ++ BitVec.ofNat 4 aop ++ f.sc ++ f.ord ++ BitVec.ofBool f.sx ++ f.sz ++ BitVec.ofBool f.ub ++
    f.ba ++ f.t ++ packG g ++ maj

def packX (g : Guard) (maj : BitVec 6) (fn : Nat) (f : FmtX) : DWord :=
  f.p ++ BitVec.ofNat 8 fn ++ f.c ++ f.b ++ f.a ++ f.d ++ packG g ++ maj

def packL (g : Guard) (off : BitVec 40) : DWord := off ++ 0#14 ++ packG g ++ 0x16#6

/-- A format A word whose row has no field of its own. -/
def packA0 (g : Guard) (k : BitVec 2) (maj : BitVec 6) (fn : Nat) : DWord :=
  packA g k maj fn ⟨false, false, false, 0, 0, 0, 0, 0, 0⟩

def packC (g : Guard) (maj : BitVec 6) (fn : Nat) (f : FmtC) : DWord :=
  BitVec.ofBool f.sA ++ 0#2 ++ BitVec.ofBool f.wide ++ 0#2 ++ BitVec.ofNat 10 fn ++ 0#8 ++ f.csr ++ f.a ++ f.d ++
    packG g ++ maj

/-- Entry `n` of a function-code list; a code past its end is unassigned (R118). -/
def nth {α : Type} : List α → Nat → Option α
  | [], _ => none
  | x :: _, 0 => some x
  | _ :: xs, n + 1 => nth xs n

/-- The format A rows of R118 by major and FN[5:0]; PMOV and STEP name two rows by their variant (R150, R169). -/
def opsA (maj fn : Nat) (f : FmtA) : Option (FmtA → Instr) :=
  match maj with
  | 0x01 => nth [.add, .sub, .mul, .mulh, .mulhu, .mad, .madw, .div, .divu, .rem, .remu, .min, .max, .minu, .maxu, .abs, .neg, .addsat, .subsat, .addx, .and, .or, .xor, .andn, .not, .shl, .shr, .sar, .rol, .ror, .bfx, .bfi, .popc, .clz, .ctz, .brev, .prmt, .sel, .lea, .dp4, .dp2] fn
  | 0x03 => nth [.addd, .subd, .shld, .shrd, .mulwd, .madwd, .lead] fn
  | 0x05 => nth [.sadd, .ssub, .smul, .sand, .sor, .sxor, .sshl, .sshr, .ssar, .smin, .smax, .smov, .sld] fn
  | 0x07 => nth [.mov, .rdfl, .rdflS, .rdln, .bcast, .shfl, .elect, .ballot, .ballotS, .matchEq, .pmov] fn
  | 0x08 => nth [.fadd, .fsub, .fmul, .ffma, .fmin, .fmax, .fclamp, .frint, .fscale, .fdiv, .fsqrt, .fabsneg] fn
  | 0x09 => nth [.hadd2, .hsub2, .hmul2, .hfma2, .hmin2, .hmax2, .hdot2] fn
  | 0x0A => nth [.dadd, .dmul, .dfma, .dmin, .dmax, .ddiv, .dsqrt] fn
  | 0x0B => nth [.cvtif, .cvtfi, .cvtff, .pkf8, .upf8, .pkh] fn
  | 0x0C => nth [.rcp, .rsq, .sqrta, .exp2, .log2, .sin, .cos, .tanh] fn
  | 0x0D => nth [.bpack, .bunpk, .bexp] fn
  | 0x0E => nth [.setp, .fsetp, .pand, .por, .pxor, .pnot, .vote, .alwp, .ssetp] fn
  | 0x11 => nth [.jr, .callr, .ret, .jrs] fn
  | 0x12 => nth [.meet, .rejoin, fun _ => .gsync, .loop, .lpexit] fn
  | 0x13 => nth [.migrate, .fanout, fun _ => .exit, fun _ => .yield, .sleep, .wake] fn
  | 0x14 => nth [.bar, .waitv, .waits, .waitp] fn
  | 0x15 => nth [fun _ => .nop, fun _ => .syscall, .trap, fun _ => .eret, .brkpt] fn
  | 0x17 => nth [if f.var == 1 then .stepEnd else .stepBegin, .ptag] fn
  | _ => none

/-- PMOV with variant 1 is the row PMOV_TO_GUARDS (R169). -/
def opsAVar (maj fn : Nat) (f : FmtA) : Option (FmtA → Instr) :=
  if maj == 0x07 && fn == 0x0A && f.var == 1 then some .pmovToGuards else opsA maj fn f

/-- The CSR rows of major 0x15, codes 08 to 0B (R118, R145). -/
def opsC (fn : Nat) : Option (FmtC → Instr) :=
  if fn < 8 then none else nth [.csrr, .csrw, .csrset, .csrclr] (fn - 8)

/-- The format I rows of R118. -/
def opsI (maj fn : Nat) : Option (FmtI → Instr) :=
  match maj with
  | 0x02 => nth [.addImm, .movi, .mulImm, .minImm, .maxImm, .minuImm, .maxuImm, .andImm, .orImm, .xorImm, .shlImm, .shrImm, .sarImm, .rolImm, .rorImm, .bfxImm] fn
  | 0x04 => nth [.adddImm, .subdImm, .shldImm, .shrdImm, .mulwdImm, .leadImm, .leapc] fn
  | 0x06 => nth [.saddImm, .smovi, .smulImm, .sandImm, .sorImm, .sxorImm, .sshlImm, .sshrImm, .ssarImm, .sminImm, .smaxImm, .sldImm] fn
  | _ => none

/-- The format N rows of R118. -/
def opsN (maj fn : Nat) : Option (FmtN → Instr) :=
  match maj with
  | 0x1A => nth [.aadd, .aand, .aor, .axor, .amin, .amax, .aminn, .amaxn, .aswap, .acas, .afadd] fn
  | 0x1B => nth [.fence, .iinv, .clean, .pref, .tlbi] fn
  | 0x1C => nth [.stand, .unstand] fn
  | 0x1D => if fn == 0xC then some .lds else if fn == 0xD then some .sts else nth [.aaddSpad, .aandSpad, .aorSpad, .axorSpad, .aminSpad, .amaxSpad, .aminnSpad, .amaxnSpad, .aswapSpad, .acasSpad, .afaddSpad] fn
  | _ => none

/-- The format X rows of R118. -/
def opsX (maj fn : Nat) : Option (FmtX → Instr) :=
  match maj with
  | 0x20 => nth [.mmab4, .mmab6, .mmab8, .mmaf8, .mmah, .mmai8, .mmag, .mmas] fn
  | 0x21 => nth [.azero, .ald, .ast, .mtrn, .mprm, .mred] fn
  | 0x22 => nth [.tcpy, .tcpym, .tgath, .cchn, .swinit, .swadd] fn
  | 0x23 => nth [.shape] fn
  | _ => none

/-- The format A rows that take no operand: a variant other than 0 is an unassigned function code (R117, R118). -/
def plainRow : Instr → Bool
  | .gsync | .exit | .yield | .nop | .syscall | .eret => true
  | _ => false

/-- A row of opsA with its fields; a row without operands has variant 0. -/
def rowA (c : FmtA → Instr) (f : FmtA) : Option Instr :=
  if plainRow (c f) && f.var != 0 then none else some (c f)

/-- The instruction a word's major and function code name, with the fields of its format (R114, R117, R118). -/
def candidate (w : DWord) : Option Instr :=
  let maj := majorOf w
  match maj with
  | 0x02 | 0x04 | 0x06 => (opsI maj (bitsOf w 28 4).toNat).map (· (unpackI w))
  | 0x10 =>
    if bitsOf w 10 9 == 0 then some (.bra (bitsOf w 24 40)) else some (.call (unpackB w))
  | 0x16 => some (.live (bitsOf w 24 40))
  | 0x18 => some (.ld (unpackM w))
  | 0x19 => some (.st (unpackM w))
  | 0x1A | 0x1B | 0x1C | 0x1D => (opsN maj (bitsOf w 38 4).toNat).map (· (unpackN w))
  | 0x20 | 0x21 | 0x22 | 0x23 => (opsX maj (bitsOf w 46 8).toNat).map (· (unpackX w))
  | _ =>
    if maj == 0x15 && 8 ≤ (bitsOf w 48 6).toNat then
      if bitsOf w 54 4 == 0 then (opsC (bitsOf w 48 6).toNat).map (· (unpackC w)) else none
    else (opsAVar maj (bitsOf w 48 6).toNat (unpackA w)).bind fun c => rowA c (unpackA w)

/-- The word of a decoded instruction, from the same tables; an event of the table has no word. -/
def encode (x : Decoded) : Option DWord :=
  let g := x.g
  let k := x.keep
  match x.i with
  | .add f => some (packA g k 0x01#6 0x00 f)
  | .sub f => some (packA g k 0x01#6 0x01 f)
  | .mul f => some (packA g k 0x01#6 0x02 f)
  | .mulh f => some (packA g k 0x01#6 0x03 f)
  | .mulhu f => some (packA g k 0x01#6 0x04 f)
  | .mad f => some (packA g k 0x01#6 0x05 f)
  | .madw f => some (packA g k 0x01#6 0x06 f)
  | .div f => some (packA g k 0x01#6 0x07 f)
  | .divu f => some (packA g k 0x01#6 0x08 f)
  | .rem f => some (packA g k 0x01#6 0x09 f)
  | .remu f => some (packA g k 0x01#6 0x0A f)
  | .min f => some (packA g k 0x01#6 0x0B f)
  | .max f => some (packA g k 0x01#6 0x0C f)
  | .minu f => some (packA g k 0x01#6 0x0D f)
  | .maxu f => some (packA g k 0x01#6 0x0E f)
  | .abs f => some (packA g k 0x01#6 0x0F f)
  | .neg f => some (packA g k 0x01#6 0x10 f)
  | .addsat f => some (packA g k 0x01#6 0x11 f)
  | .subsat f => some (packA g k 0x01#6 0x12 f)
  | .addx f => some (packA g k 0x01#6 0x13 f)
  | .and f => some (packA g k 0x01#6 0x14 f)
  | .or f => some (packA g k 0x01#6 0x15 f)
  | .xor f => some (packA g k 0x01#6 0x16 f)
  | .andn f => some (packA g k 0x01#6 0x17 f)
  | .not f => some (packA g k 0x01#6 0x18 f)
  | .shl f => some (packA g k 0x01#6 0x19 f)
  | .shr f => some (packA g k 0x01#6 0x1A f)
  | .sar f => some (packA g k 0x01#6 0x1B f)
  | .rol f => some (packA g k 0x01#6 0x1C f)
  | .ror f => some (packA g k 0x01#6 0x1D f)
  | .bfx f => some (packA g k 0x01#6 0x1E f)
  | .bfi f => some (packA g k 0x01#6 0x1F f)
  | .popc f => some (packA g k 0x01#6 0x20 f)
  | .clz f => some (packA g k 0x01#6 0x21 f)
  | .ctz f => some (packA g k 0x01#6 0x22 f)
  | .brev f => some (packA g k 0x01#6 0x23 f)
  | .prmt f => some (packA g k 0x01#6 0x24 f)
  | .sel f => some (packA g k 0x01#6 0x25 f)
  | .lea f => some (packA g k 0x01#6 0x26 f)
  | .dp4 f => some (packA g k 0x01#6 0x27 f)
  | .dp2 f => some (packA g k 0x01#6 0x28 f)
  | .addImm f => some (packI g 0x02#6 0x00 f)
  | .movi f => some (packI g 0x02#6 0x01 f)
  | .mulImm f => some (packI g 0x02#6 0x02 f)
  | .minImm f => some (packI g 0x02#6 0x03 f)
  | .maxImm f => some (packI g 0x02#6 0x04 f)
  | .minuImm f => some (packI g 0x02#6 0x05 f)
  | .maxuImm f => some (packI g 0x02#6 0x06 f)
  | .andImm f => some (packI g 0x02#6 0x07 f)
  | .orImm f => some (packI g 0x02#6 0x08 f)
  | .xorImm f => some (packI g 0x02#6 0x09 f)
  | .shlImm f => some (packI g 0x02#6 0x0A f)
  | .shrImm f => some (packI g 0x02#6 0x0B f)
  | .sarImm f => some (packI g 0x02#6 0x0C f)
  | .rolImm f => some (packI g 0x02#6 0x0D f)
  | .rorImm f => some (packI g 0x02#6 0x0E f)
  | .bfxImm f => some (packI g 0x02#6 0x0F f)
  | .addd f => some (packA g k 0x03#6 0x00 f)
  | .subd f => some (packA g k 0x03#6 0x01 f)
  | .shld f => some (packA g k 0x03#6 0x02 f)
  | .shrd f => some (packA g k 0x03#6 0x03 f)
  | .mulwd f => some (packA g k 0x03#6 0x04 f)
  | .madwd f => some (packA g k 0x03#6 0x05 f)
  | .lead f => some (packA g k 0x03#6 0x06 f)
  | .adddImm f => some (packI g 0x04#6 0x00 f)
  | .subdImm f => some (packI g 0x04#6 0x01 f)
  | .shldImm f => some (packI g 0x04#6 0x02 f)
  | .shrdImm f => some (packI g 0x04#6 0x03 f)
  | .mulwdImm f => some (packI g 0x04#6 0x04 f)
  | .leadImm f => some (packI g 0x04#6 0x05 f)
  | .leapc f => some (packI g 0x04#6 0x06 f)
  | .sadd f => some (packA g k 0x05#6 0x00 f)
  | .ssub f => some (packA g k 0x05#6 0x01 f)
  | .smul f => some (packA g k 0x05#6 0x02 f)
  | .sand f => some (packA g k 0x05#6 0x03 f)
  | .sor f => some (packA g k 0x05#6 0x04 f)
  | .sxor f => some (packA g k 0x05#6 0x05 f)
  | .sshl f => some (packA g k 0x05#6 0x06 f)
  | .sshr f => some (packA g k 0x05#6 0x07 f)
  | .ssar f => some (packA g k 0x05#6 0x08 f)
  | .smin f => some (packA g k 0x05#6 0x09 f)
  | .smax f => some (packA g k 0x05#6 0x0A f)
  | .smov f => some (packA g k 0x05#6 0x0B f)
  | .sld f => some (packA g k 0x05#6 0x0C f)
  | .saddImm f => some (packI g 0x06#6 0x00 f)
  | .smovi f => some (packI g 0x06#6 0x01 f)
  | .smulImm f => some (packI g 0x06#6 0x02 f)
  | .sandImm f => some (packI g 0x06#6 0x03 f)
  | .sorImm f => some (packI g 0x06#6 0x04 f)
  | .sxorImm f => some (packI g 0x06#6 0x05 f)
  | .sshlImm f => some (packI g 0x06#6 0x06 f)
  | .sshrImm f => some (packI g 0x06#6 0x07 f)
  | .ssarImm f => some (packI g 0x06#6 0x08 f)
  | .sminImm f => some (packI g 0x06#6 0x09 f)
  | .smaxImm f => some (packI g 0x06#6 0x0A f)
  | .sldImm f => some (packI g 0x06#6 0x0B f)
  | .mov f => some (packA g k 0x07#6 0x00 f)
  | .rdfl f => some (packA g k 0x07#6 0x01 f)
  | .rdflS f => some (packA g k 0x07#6 0x02 f)
  | .rdln f => some (packA g k 0x07#6 0x03 f)
  | .bcast f => some (packA g k 0x07#6 0x04 f)
  | .shfl f => some (packA g k 0x07#6 0x05 f)
  | .elect f => some (packA g k 0x07#6 0x06 f)
  | .ballot f => some (packA g k 0x07#6 0x07 f)
  | .ballotS f => some (packA g k 0x07#6 0x08 f)
  | .matchEq f => some (packA g k 0x07#6 0x09 f)
  | .pmov f => some (packA g k 0x07#6 0x0A f)
  | .pmovToGuards f => some (packA g k 0x07#6 0x0A f)
  | .fadd f => some (packA g k 0x08#6 0x00 f)
  | .fsub f => some (packA g k 0x08#6 0x01 f)
  | .fmul f => some (packA g k 0x08#6 0x02 f)
  | .ffma f => some (packA g k 0x08#6 0x03 f)
  | .fmin f => some (packA g k 0x08#6 0x04 f)
  | .fmax f => some (packA g k 0x08#6 0x05 f)
  | .fclamp f => some (packA g k 0x08#6 0x06 f)
  | .frint f => some (packA g k 0x08#6 0x07 f)
  | .fscale f => some (packA g k 0x08#6 0x08 f)
  | .fdiv f => some (packA g k 0x08#6 0x09 f)
  | .fsqrt f => some (packA g k 0x08#6 0x0A f)
  | .fabsneg f => some (packA g k 0x08#6 0x0B f)
  | .hadd2 f => some (packA g k 0x09#6 0x00 f)
  | .hsub2 f => some (packA g k 0x09#6 0x01 f)
  | .hmul2 f => some (packA g k 0x09#6 0x02 f)
  | .hfma2 f => some (packA g k 0x09#6 0x03 f)
  | .hmin2 f => some (packA g k 0x09#6 0x04 f)
  | .hmax2 f => some (packA g k 0x09#6 0x05 f)
  | .hdot2 f => some (packA g k 0x09#6 0x06 f)
  | .dadd f => some (packA g k 0x0A#6 0x00 f)
  | .dmul f => some (packA g k 0x0A#6 0x01 f)
  | .dfma f => some (packA g k 0x0A#6 0x02 f)
  | .dmin f => some (packA g k 0x0A#6 0x03 f)
  | .dmax f => some (packA g k 0x0A#6 0x04 f)
  | .ddiv f => some (packA g k 0x0A#6 0x05 f)
  | .dsqrt f => some (packA g k 0x0A#6 0x06 f)
  | .cvtif f => some (packA g k 0x0B#6 0x00 f)
  | .cvtfi f => some (packA g k 0x0B#6 0x01 f)
  | .cvtff f => some (packA g k 0x0B#6 0x02 f)
  | .pkf8 f => some (packA g k 0x0B#6 0x03 f)
  | .upf8 f => some (packA g k 0x0B#6 0x04 f)
  | .pkh f => some (packA g k 0x0B#6 0x05 f)
  | .rcp f => some (packA g k 0x0C#6 0x00 f)
  | .rsq f => some (packA g k 0x0C#6 0x01 f)
  | .sqrta f => some (packA g k 0x0C#6 0x02 f)
  | .exp2 f => some (packA g k 0x0C#6 0x03 f)
  | .log2 f => some (packA g k 0x0C#6 0x04 f)
  | .sin f => some (packA g k 0x0C#6 0x05 f)
  | .cos f => some (packA g k 0x0C#6 0x06 f)
  | .tanh f => some (packA g k 0x0C#6 0x07 f)
  | .bpack f => some (packA g k 0x0D#6 0x00 f)
  | .bunpk f => some (packA g k 0x0D#6 0x01 f)
  | .bexp f => some (packA g k 0x0D#6 0x02 f)
  | .setp f => some (packA g k 0x0E#6 0x00 f)
  | .fsetp f => some (packA g k 0x0E#6 0x01 f)
  | .pand f => some (packA g k 0x0E#6 0x02 f)
  | .por f => some (packA g k 0x0E#6 0x03 f)
  | .pxor f => some (packA g k 0x0E#6 0x04 f)
  | .pnot f => some (packA g k 0x0E#6 0x05 f)
  | .vote f => some (packA g k 0x0E#6 0x06 f)
  | .alwp f => some (packA g k 0x0E#6 0x07 f)
  | .ssetp f => some (packA g k 0x0E#6 0x08 f)
  | .bra off => some (packB g 0 off)
  | .call f => some (packB g f.link f.off)
  | .jr f => some (packA g k 0x11#6 0x00 f)
  | .callr f => some (packA g k 0x11#6 0x01 f)
  | .ret f => some (packA g k 0x11#6 0x02 f)
  | .jrs f => some (packA g k 0x11#6 0x03 f)
  | .meet f => some (packA g k 0x12#6 0x00 f)
  | .rejoin f => some (packA g k 0x12#6 0x01 f)
  | .gsync => some (packA0 g k 0x12#6 0x02)
  | .loop f => some (packA g k 0x12#6 0x03 f)
  | .lpexit f => some (packA g k 0x12#6 0x04 f)
  | .migrate f => some (packA g k 0x13#6 0x00 f)
  | .fanout f => some (packA g k 0x13#6 0x01 f)
  | .exit => some (packA0 g k 0x13#6 0x02)
  | .yield => some (packA0 g k 0x13#6 0x03)
  | .sleep f => some (packA g k 0x13#6 0x04 f)
  | .wake f => some (packA g k 0x13#6 0x05 f)
  | .bar f => some (packA g k 0x14#6 0x00 f)
  | .waitv f => some (packA g k 0x14#6 0x01 f)
  | .waits f => some (packA g k 0x14#6 0x02 f)
  | .waitp f => some (packA g k 0x14#6 0x03 f)
  | .nop => some (packA0 g k 0x15#6 0x00)
  | .syscall => some (packA0 g k 0x15#6 0x01)
  | .trap f => some (packA g k 0x15#6 0x02 f)
  | .eret => some (packA0 g k 0x15#6 0x03)
  | .eretSupervisor => some (packA0 g k 0x15#6 0x03)
  | .brkpt f => some (packA g k 0x15#6 0x04 f)
  | .csrr f => some (packC g 0x15#6 0x08 f)
  | .csrw f => some (packC g 0x15#6 0x09 f)
  | .csrset f => some (packC g 0x15#6 0x0A f)
  | .csrclr f => some (packC g 0x15#6 0x0B f)
  | .live off => some (packL g off)
  | .stepBegin f => some (packA g k 0x17#6 0x00 f)
  | .stepEnd f => some (packA g k 0x17#6 0x00 f)
  | .ptag f => some (packA g k 0x17#6 0x01 f)
  | .ld f => some (packM g 0x18#6 f)
  | .st f => some (packM g 0x19#6 f)
  | .aadd f => some (packN g 0x1A#6 0x00 f)
  | .aand f => some (packN g 0x1A#6 0x01 f)
  | .aor f => some (packN g 0x1A#6 0x02 f)
  | .axor f => some (packN g 0x1A#6 0x03 f)
  | .amin f => some (packN g 0x1A#6 0x04 f)
  | .amax f => some (packN g 0x1A#6 0x05 f)
  | .aminn f => some (packN g 0x1A#6 0x06 f)
  | .amaxn f => some (packN g 0x1A#6 0x07 f)
  | .aswap f => some (packN g 0x1A#6 0x08 f)
  | .acas f => some (packN g 0x1A#6 0x09 f)
  | .afadd f => some (packN g 0x1A#6 0x0A f)
  | .aaddSpad f => some (packN g 0x1D#6 0x00 f)
  | .aandSpad f => some (packN g 0x1D#6 0x01 f)
  | .aorSpad f => some (packN g 0x1D#6 0x02 f)
  | .axorSpad f => some (packN g 0x1D#6 0x03 f)
  | .aminSpad f => some (packN g 0x1D#6 0x04 f)
  | .amaxSpad f => some (packN g 0x1D#6 0x05 f)
  | .aminnSpad f => some (packN g 0x1D#6 0x06 f)
  | .amaxnSpad f => some (packN g 0x1D#6 0x07 f)
  | .aswapSpad f => some (packN g 0x1D#6 0x08 f)
  | .acasSpad f => some (packN g 0x1D#6 0x09 f)
  | .afaddSpad f => some (packN g 0x1D#6 0x0A f)
  | .lds f => some (packN g 0x1D#6 0x0C f)
  | .sts f => some (packN g 0x1D#6 0x0D f)
  | .fence f => some (packN g 0x1B#6 0x00 f)
  | .iinv f => some (packN g 0x1B#6 0x01 f)
  | .clean f => some (packN g 0x1B#6 0x02 f)
  | .pref f => some (packN g 0x1B#6 0x03 f)
  | .tlbi f => some (packN g 0x1B#6 0x04 f)
  | .stand f => some (packN g 0x1C#6 0x00 f)
  | .unstand f => some (packN g 0x1C#6 0x01 f)
  | .mmab4 f => some (packX g 0x20#6 0x00 f)
  | .mmab6 f => some (packX g 0x20#6 0x01 f)
  | .mmab8 f => some (packX g 0x20#6 0x02 f)
  | .mmaf8 f => some (packX g 0x20#6 0x03 f)
  | .mmah f => some (packX g 0x20#6 0x04 f)
  | .mmai8 f => some (packX g 0x20#6 0x05 f)
  | .mmag f => some (packX g 0x20#6 0x06 f)
  | .mmas f => some (packX g 0x20#6 0x07 f)
  | .azero f => some (packX g 0x21#6 0x00 f)
  | .ald f => some (packX g 0x21#6 0x01 f)
  | .ast f => some (packX g 0x21#6 0x02 f)
  | .mtrn f => some (packX g 0x21#6 0x03 f)
  | .mprm f => some (packX g 0x21#6 0x04 f)
  | .mred f => some (packX g 0x21#6 0x05 f)
  | .tcpy f => some (packX g 0x22#6 0x00 f)
  | .tcpym f => some (packX g 0x22#6 0x01 f)
  | .tgath f => some (packX g 0x22#6 0x02 f)
  | .cchn f => some (packX g 0x22#6 0x03 f)
  | .swinit f => some (packX g 0x22#6 0x04 f)
  | .swadd f => some (packX g 0x22#6 0x05 f)
  | .shape f => some (packX g 0x23#6 0x00 f)
  | _ => none

/-- The keep field of a word: bits [47:46] in format A (R98), 0 in the other formats and the CSR form. -/
def keepOf (w : DWord) (i : Instr) : BitVec 2 := if Machine.hasKeep i then bitsOf w 46 2 else 0

/-- A word with what its major, function code and fields say. -/
def decodedAs (w : DWord) (i : Instr) : Decoded := ⟨guardOf w, keepOf w i, i⟩

/-- The decoder: an instruction, or the first failing check of R97 that the word alone decides. A row of the fallow
or of the illegal majors is answered for its word whatever its other bits (R115, R116). -/
def decode (w : DWord) : Except Machine.Detail Decoded :=
  if Machine.isFallow w then .ok ⟨⟨false, 0⟩, 0, .fallowInstruction⟩
  else if Machine.isIllegalMajor w then .ok ⟨⟨false, 0⟩, 0, .illegalMajor⟩
  else
    match candidate w with
    | none => .error .undefined
    | some i =>
      if Machine.guardUndef (guardOf w) || (Machine.form i).undef then .error .undefined
      else if Machine.guardRsvd (decodedAs w i) || (Machine.form i).rsvd || encode (decodedAs w i) != some w then
        .error .reservedField
      else .ok (decodedAs w i)

/-- ERET is the table's row ERET_SUPERVISOR in supervisor mode (R350). -/
def forMode (sup : Bool) (d : Decoded) : Decoded :=
  match d.i with
  | .eret => if sup then { d with i := .eretSupervisor } else d
  | _ => d

/-- Little-endian bytes of a 64-bit word, the low byte first (R97). -/
def wordBytes (w : DWord) : List Byte := (List.range 8).map fun i => w.extractLsb' (8 * i) 8

/-- The number that little-endian bytes hold. -/
def leNat : List Byte → Nat
  | [] => 0
  | b :: bs => b.toNat + 256 * leNat bs

/-- Decodes the first eight bytes, and answers the rest. -/
def decodeBytes (bs : List Byte) : Option (Decoded × List Byte) :=
  if bs.length < 8 then none
  else match decode (BitVec.ofNat 64 (leNat (bs.take 8))) with
    | .ok i => some (i, bs.drop 8)
    | .error _ => none

/-- What the decoder reads from an instruction of `nbits` bits `w`, its other bits zero, laid out as R97 stores it. -/
def decodeTableWord (nbits w : Nat) : Option Instr :=
  (decodeBytes (wordBytes (BitVec.ofNat 64 (w % 2 ^ nbits)))).map (·.1.i)

end Sys2Proof
end

