-- ==== Sys2Proof/Config.lean ====
section
/-! DEFINITION. What an implementation fixes and the spec leaves open: the free values (opaque, so nothing can be
proved of them: notes/assumptions/3.md), the identity of the package, and the physical address map of HBM4E and
LPDDR 6, which the spec does not give (notes/assumptions/5.md). -/

namespace Sys2Proof.Config

/-- The 32-bit value an undefined register reads as (R89): the stamp of the event that left it undefined, and the
register's number.
DESIGN CHOICE (safe): notes/assumptions/3.md. -/
opaque freeWord : Nat → Nat → BitVec 32
/-- The 64-bit value an s-register reads as when a save did not name it (R40).
DESIGN CHOICE (safe): notes/assumptions/3.md. -/
opaque freeDWord : Nat → Nat → BitVec 64
/-- The byte a scratchpad location holds when a save did not name it (R40): a stamp and the offset.
DESIGN CHOICE (safe): notes/assumptions/3.md. -/
opaque freeByte : Nat → Nat → BitVec 8
/-- An accumulator element whose value the spec leaves open (R40, R234): a stamp and the element's index.
DESIGN CHOICE (safe): notes/assumptions/3.md. -/
opaque freeElem : Nat → Nat → BitVec 42
/-- The binary32 value of a special function inside its error bound (R181): the function's code and its operand.
DESIGN CHOICE (safe): notes/assumptions/3.md. -/
opaque special : Nat → BitVec 32 → BitVec 32
/-- The boot epoch drawn at the n-th package reset (R360).
DESIGN CHOICE (safe): notes/assumptions/3.md. -/
opaque freeEpoch : Nat → BitVec 16
/-- A choice the spec leaves to the hardware among `n` (R22, R227): an index to be reduced modulo n.
DESIGN CHOICE (safe): notes/assumptions/3.md. -/
opaque freeChoice : Nat → Nat

/-- The reference cycles that the stations on its way add to an attribution (R289): the turn and what it passes to.
DESIGN CHOICE (safe): notes/assumptions/80.md. -/
opaque transit : Nat → Nat → Nat

/-! ## The package's identity (R329, R333, R334) -/

/-- The 16-byte serial number. -/
opaque serial : BitVec 128
/-- Silicon stepping, ROM version and the ROM itself. -/
opaque stepping : BitVec 32
opaque romVersion : BitVec 32
opaque rom : List (BitVec 8)
/-- The private half of the identity key, the number that a signature of some bytes draws, and the certificate chain. -/
opaque identitySecret : Nat
opaque signingNonce : List (BitVec 8) → Nat
opaque certChain : List (BitVec 8)
/-- The hash of Abaig's image key, which is fused (R335). -/
opaque abaigKeyHash : List (BitVec 8)

/-- R322: the control endpoint's PCIe vendor and device IDs, the size of its one BAR, its MSI-X vectors. -/
def vendorId : Nat := 0x1F4A
def deviceId : Nat := 0x00D7
def bar0Size : Nat := 65536
def msixVectors : Nat := 4

/-! ## The physical address map (notes/assumptions/5.md) -/

/-- HBM4E: 1 TiB from 0, in 4 KiB granules over the 16 stacks in turn when a page is interleaved.
DESIGN CHOICE (unsafe): notes/assumptions/5.md. -/
def hbmTop : Nat := 0x100_0000_0000
/-- One LPDDR 6: 256 GiB. Die 4's from `hbmTop`, die 5's after it.
DESIGN CHOICE (unsafe): notes/assumptions/5.md. -/
def lpSize : Nat := 0x40_0000_0000
def lpTop : Nat := hbmTop + 2 * lpSize

/-- R337, R359: the register blocks. -/
def dieBlock : Nat := 0xFFF0000000000
def fabricBlock : Nat := 0xFFF0000100000
def stackBlock : Nat := 0xFFF0000200000
def lpBlock : Nat := 0xFFF0000300000

/-- Boot entry of the model's placed program (`State.withFetchWord`): 4 KiB into die 4's LPDDR 6.
DESIGN CHOICE (safe): notes/assumptions/6.md. -/
def placedPc : Nat := hbmTop + 0x1000

end Sys2Proof.Config
end

