-- ==== Sys2Proof/Machine/State.lean ====
section
/-! DEFINITION. The state of the Drithiorn D7: the whole package as plain data, every piece of state the spec names
(INVENTORY.md lists each with its rule). A `Map` is a list of (key, value) pairs with rising keys. A place is keyed by
one number: a core by die × 64 + unit (units 48 to 63 of an L-die are its die-level copy engines, R3), a group slot by
core key × 1024 + slot; the supervisor context of hardware thread t of a latency core stands at slot t + 2 (R350). -/

namespace Sys2Proof.Machine

/-- Sparse data by number, keys rising. -/
abbrev Map (α : Type) := List (Nat × α)
/-- Byte memory: addresses rising, no entry equal to 0, which an unlisted address reads as
(notes/assumptions/4.md).
DESIGN CHOICE (unsafe): notes/assumptions/4.md. -/
abbrev Memory := List Host.Cell

/-- A register's content: a value, or undefined since the event with this stamp (R89). -/
inductive Val (n : Nat) where
  | known (v : BitVec n)
  | undef (stamp : Nat)
deriving DecidableEq, Repr

/-- A thread, by the key of its slot and its lane. -/
structure Who where
  slot : Nat
  lane : Nat
deriving DecidableEq, Repr

/-- The attribution a producer attaches to an event (R288): its token, agent id and SEQ. -/
structure Attr where
  token : DWord
  agent : Word
  seq   : Word
deriving DecidableEq, Repr

/-- A loop context (R8, R130). -/
structure LoopCtx where
  count : DWord
  start : DWord
  stop  : DWord
deriving DecidableEq, Repr

/-- What a waiting thread waits for (R139), with what completing it needs. -/
inductive Wait where
  /-- BAR k (R140). -/
  | bar (k : Nat)
  /-- GSYNC (R15). -/
  | gsync
  /-- WAITV (R141): the address, the variant bits, the comparand, the destination, and the scope of an acquire. -/
  | waitv (va : DWord) (cond : BitVec 2) (signed wide : Bool) (cmp : DWord) (d : Nat) (acq : Option Nat)
  /-- WAITS (R142): the sync word and the generation compared. -/
  | waits (addr : DWord) (gen : Nat)
  /-- WAITP (R143): the slot and the count compared. -/
  | waitp (addr : DWord) (pushes : Word)
  /-- SLEEP (R137): the timeout in cycles, 0 for none, and the destination. -/
  | sleep (limit : Nat) (d : Nat)
deriving DecidableEq, Repr

/-- A cache or TLB maintenance a lane is blocked in (R205, R206, R151): its range or matching, and its scope. -/
inductive Maint where
  | iinv (va : DWord) (len sc : Nat)
  | clean (va : DWord) (len : Nat)
  | tlbi (kind : Nat) (va : DWord) (asid sc : Nat)
deriving DecidableEq, Repr

/-- The run state of a member (R16, R17, R30, R36, R37, R139). -/
inductive Run where
  /-- It can issue. -/
  | ready
  /-- In a wait; `blocked` says whether it blocked under R290, `cycles` for how long. -/
  | waiting (w : Wait) (blocked : Bool) (cycles : Nat)
  /-- Held at its meeting value, for so many cycles (R17). -/
  | held (cycles : Nat)
  /-- Parked (R37): cause word and datum of its record, and whether the fault was deferred (R401). -/
  | parked (cause : Word) (datum : DWord) (deferred : Bool)
  /-- Blocked on allowance (R36). -/
  | allowance
  /-- In a migration wait (R30): the target, the VA of the frame written, and the PC of the instruction. -/
  | migrating (target : Nat) (frame : DWord) (at_ : DWord)
  /-- Blocked in IINV, CLEAN or TLBI until its completion event. -/
  | maint (m : Maint)
deriving DecidableEq, Repr

/-- How far back a thread's relaxed reads may be performed (R49, R50; notes/assumptions/79.md): no earlier than turn `base`;
no earlier than any write of an agent in a scope instance (scope, slot of the instance) that stands before the turn given
with it; and no earlier than the thread's own accesses of the same bytes (space, address, bytes, turn; R46). -/
structure Back where
  base   : Nat
  floors : List (Nat × Nat × Nat)
  seen   : List (Nat × Nat × Nat × Nat)
  /-- What preceded its last load so (R58). -/
  loads  : List (Nat × Nat × Nat) := []
deriving DecidableEq, Repr

/-- A deferred fault not yet taken (R401): the failed access's PC, its cause and datum. -/
structure Deferred where
  pc    : DWord
  cause : Nat
  datum : DWord
deriving DecidableEq, Repr

/-- A thread (R8). Registers are by v-context index (R85): main, operand and last-result; an absent one is zero. -/
structure Thread where
  pc        : DWord
  meet      : DWord
  guards    : BitVec 8
  lc0       : LoopCtx
  lc1       : LoopCtx
  regs      : Map (Val 32)
  /-- Registers last written by a load-class instruction (R88): v index, or 1024 + guard. -/
  loaded    : List Nat
  fpcr      : Word
  fpsr      : Word
  srseed    : Word
  pathtok   : DWord
  seq       : Word
  utv       : DWord
  uepc      : DWord
  udata     : DWord
  ucause    : Word
  inHandler : Bool
  cohort    : Word
  wid       : DWord
  prio      : Nat
  /-- R31, R29: system call pending; signal pending and its number (R32, R352). -/
  sysPend   : Bool
  signal    : Option Nat
  run       : Run
  deferred  : Option Deferred
  /-- Pending numeric-threshold traps, by class (R264), and a pending timer trap with TMR (R39). -/
  numTraps  : List Nat
  timer     : Option DWord
  /-- The peer of discarded drains, owed as cause 0x06 (R70). -/
  owed      : Option Nat
  /-- The fraction of a reference cycle kept by the agent, over 30 (R287). -/
  pathRem   : Nat
  /-- The model's own: the reach of stale reads, and the writes that a fence with release went before, with its scope. -/
  back      : Option Back
  fences    : List (Nat × Nat)
  /-- The model's own: values its registers held and hold no more (R89; notes/assumptions/3.md). -/
  held      : List Word
deriving DecidableEq, Repr

/-- An accumulator tile (R254, R234): elements by row × 128 + column, the tile error, and an uncorrectable error in it that
no command has met yet. -/
structure Tile where
  elems : Map (BitVec 42)
  err   : Bool
  ecc   : Bool := false
deriving DecidableEq, Repr

/-- A matrix command in a group's queue (R233), with what it captured. `poison` is a discarded follow-on (R229). -/
structure MatCmd where
  word   : DWord
  a      : DWord
  b      : DWord
  c      : DWord
  issuer : Who
  /-- What its count carries (R288), and the cycles since its issue. -/
  attr   : Option Attr
  cycles : Nat
  poison : Bool
  /-- The next K-block (R244), and whether it is on the array. -/
  next   : Nat
  onArr  : Bool
  /-- The scale halfwords read when it started (R306): A's and each B set's, by 16 × row + block. -/
  scaleA : Map (BitVec 16)
  scaleB : List (Map (BitVec 16))
  /-- The MMAG table read when it started (R239). -/
  table  : List Byte
  /-- The number of the first request after it (R57), and the numeric events of its blocks so far, by class (R262). -/
  first  : Nat
  classes : List Nat := []
  /-- The classes it has counted already, where it stopped before (R257, R262); of a performance in pieces (R45), the operand
  bytes read so far, and how many bytes it has written. -/
  counted : List Nat := []
  got    : List Byte := []
  part   : Nat := 0
deriving DecidableEq, Repr

/-- A follow-on not yet triggered (R229): its sync word, g0val and the command. -/
structure Follow where
  sync : DWord
  gen  : Nat
  cmd  : MatCmd
deriving DecidableEq, Repr

/-- What a save frame does not hold of one of its entries: the issuing lane (R264), what its count carries and its cycles
(R288), whether it is a discarded follow-on, of one not triggered yet the sync word and g0val (R229, R244), and the classes it has
counted (R257). -/
structure Kept where
  lane   : Nat
  attr   : Option Attr
  cycles : Nat
  poison : Bool
  follow : Option (DWord × Nat)
  counted : List Nat := []
deriving DecidableEq, Repr

/-- What a save frame does not hold of a group: of its matrix entries and its chains, in their order, and of its s-registers
those last written by SLD (R88) and the values held before (R89). -/
structure Aside where
  mats    : List Kept
  chains  : List Kept
  sLoaded : List Nat
  sHeld   : List DWord
deriving DecidableEq, Repr

/-- A pre-emption request (R40): the save area, the cycles since the request, and once taken the PA of the liveness
record, if taken at a LIVE, with the lanes that issued it. -/
structure Preempt where
  area   : Nat
  cycles : Nat
  taken  : Bool
  record : Option DWord
  lanes  : List Nat
deriving DecidableEq, Repr

/-- A group (R10), or the thread of a latency hardware thread (R11). -/
structure Group where
  footprint : Word
  asid      : Nat
  members   : Map Thread
  sregs     : Map (Val 64)
  /-- s-registers last written by SLD (R88); the model's own: values s-registers held and hold no more (R89). -/
  sLoaded   : List Nat
  sHeld     : List DWord
  gcyc      : DWord
  tmr       : DWord
  spbase    : Word
  wake      : Word
  tiles     : Map Tile
  queue     : List MatCmd
  follows   : List Follow
  preempt   : Option Preempt
  /-- R33 to R35: in the active set; cycles active or pending; lanes that issued since the promotion. -/
  active    : Bool
  since     : Nat
  issued    : List Nat
  /-- The subset, by its lowest lane, that had the last turn (R16); 32: none. -/
  turn      : Nat := 32
deriving DecidableEq, Repr

/-- A write-combining entry (R67): peer, line PA at the peer, mirror, the valid bytes by offset, owner, age in cycles; the
turn of its last store (R198); `leaving` where it drains and waits for egress credit (R283), with the number its drain has and
whether a later lane of the instruction takes the line over (R198). -/
structure WcEntry where
  peer   : Nat
  mirror : Option Nat
  line   : Nat
  bytes  : Map Byte
  owner  : Who
  age    : Nat
  turn   : Nat
  leaving : Bool
  no     : Nat := 0
  glue   : Bool := false
deriving DecidableEq, Repr

/-- Where a request is performed: a memory unit of this package (stack 0 to 15, LPDDR 16 and 17), a peer and its
mirror (R194, R72), or a core's scratchpad (R199). -/
inductive Dest where
  | unit (u : Nat)
  | peer (p : Nat) (mirror : Option Nat)
  | spad (core : Nat)
deriving DecidableEq, Repr

/-- What a request in flight does where it arrives. -/
inductive ReqOp where
  /-- A load of n bytes to a register: sign extension; for SLD, to the group's s-register, the lanes of its Active(G). -/
  | load (n : Nat) (sext : Bool) (lanes : List Nat)
  /-- A drain, a release store or a store to another die: the cells written; `drain` for a write-combining entry. -/
  | write (cells : Memory) (drain : Bool)
  /-- An atomic of R200: AOP, size, operand and comparand. -/
  | atomic (aop : Nat) (n : Nat) (b c : DWord) (b2 c2 : DWord)
  /-- STAND (R210): the slot's address as the subscriber names it, and the status guard. -/
  | stand (slot : DWord) (guard : Nat)
  /-- UNSTAND (R212): the slot. -/
  | unstand (slot : DWord)
deriving DecidableEq, Repr

/-- A request in flight (R34, R67, R69, R201, R210, R212). -/
structure Req where
  id    : Nat
  who   : Who
  pc    : DWord
  va    : DWord
  pa    : Nat
  dest  : Dest
  op    : ReqOp
  /-- The PIN bit of the translation (R343). -/
  pin   : Bool
  /-- The destination register, 0 for none. -/
  reg   : Nat
  acq   : Bool
  attr  : Option Attr
  /-- Tagged for a latency sample (R294), with the cycles since issue. -/
  tagged : Bool
  cycles : Nat
  /-- Queued at a page in move (R74), by the old page's PA. -/
  atMove : Option Nat
  /-- The scope it names (R47), the turn of its instruction (R198), the credit it took: peer p, or 64 + die (R283). -/
  sc     : Nat
  batch  : Nat
  paid   : List Nat
  /-- A drain that a later lane's store of one instruction follows at once (R198). -/
  glue   : Bool
  /-- A release performed before writes that precede it (notes/assumptions/79.md): each by request number, with the scope. -/
  preds  : List (Nat × Nat)
  /-- The address space it was issued in (R280); of an UNSTAND, the number of the subscription it is to end (R65). -/
  asid   : Nat := 0
  sub    : Nat := 0
  /-- The SPARSE bit of the translation (R377). -/
  sparse : Bool := false
deriving DecidableEq, Repr

/-- Bytes that a release wrote before writes which precede it are performed: agents of its scope wait for those (R49, R50;
notes/assumptions/79.md). -/
structure Guarded where
  space : Nat
  pa    : Nat
  n     : Nat
  who   : Who
  preds : List (Nat × Nat)
deriving DecidableEq, Repr

/-- What the writes of one turn replaced: the turn, the writer by slot, the old bytes of memory, scratchpads and peers
(notes/assumptions/79.md); or a wall, that no read reaches back beyond. -/
structure Past where
  no     : Nat
  writer : Nat
  mem    : Memory
  spad   : Map Memory
  peers  : Map Memory
  wall   : Bool := false
deriving DecidableEq, Repr

/-- How accesses are performed from here on (notes/assumptions/79.md): `late` keeps local ones in flight, `early` lets a
release go before earlier writes, `grain` bytes at a time move in an engine's step (0: all), reads reach back to turn
`asOf`, and `keep` keeps what writes replace. -/
structure Pace where
  late  : Bool
  early : Bool
  grain : Nat
  asOf  : Option Nat
  keep  : Bool
deriving DecidableEq, Repr

def Pace.prompt : Pace := { late := false, early := false, grain := 0, asOf := none, keep := false }

/-- A push in a core's push queue (R211). -/
structure Push where
  slot   : DWord
  owner  : Nat
  value  : DWord
  count  : Word
  ovr    : Bool
  attr   : Option Attr
  /-- The number of its subscription, and the writer of the value, by slot (R63). -/
  no     : Nat := 0
  writer : Nat := 0
deriving DecidableEq, Repr

/-- A subscription the core recorded at registration (R210, R212): the slot, its group, the home and the location; lost with its
home while the slot cannot be updated yet (R65). Its number tells it from a later one of the slot. -/
structure Sub where
  slot  : DWord
  owner : Nat
  asid  : Nat
  pa    : Nat
  dest  : Dest
  va    : DWord
  lost  : Bool := false
  no    : Nat := 0
deriving DecidableEq, Repr

/-- A translation cached by a core (R343), with the CTXB it is held with (R91). -/
structure TlbEntry where
  asid : Nat
  ctxb : DWord
  va   : Nat
  pte  : DWord
  size : Nat
deriving DecidableEq, Repr

/-- A copy as it was issued (R225, R227): the descriptor's bytes, the near address, the start coordinates of dims 0 to
4, the gather list's address, the multicast mask, the acquire and release flags and the direction. -/
structure Copy where
  desc  : List Byte
  near  : DWord
  start : List Word
  list  : Option DWord
  mcast : Nat
  acq   : Bool
  rel   : Bool
  store : Bool
deriving DecidableEq, Repr

/-- What a copy command in a channel is (R225, R231). -/
inductive ChanOp where
  | copy (x : Copy)
  /-- A chain: the next record's VA (R230). -/
  | chain (rec : DWord)
deriving DecidableEq, Repr

/-- What a command has still to do before it leaves its channel or goes on, in order, each as soon as it can be done (R59,
R60, R232): ERR at a sync word; a record's STAT; its count, its flag, STAT 0 with OWN clear, the chain's count; the next
record; leaving. -/
inductive Chore where
  | err (a : DWord)
  | stat (v : Nat)
  | count
  | flag
  | done
  | tally
  | next
  | leave
deriving DecidableEq, Repr

/-- A command of a copy channel (R215, R227, R232): its word, issuer, sync word, and what is left of it. -/
structure ChanCmd where
  word   : DWord
  issuer : Who
  asid   : Nat
  sup    : Bool
  /-- The captured D, A and C values (R388). -/
  regs   : List DWord
  sync   : DWord
  op     : ChanOp
  running : Bool
  /-- The elements not yet performed, by index in the box, and the gather list read at the start (R228). -/
  todo   : List Nat
  rows   : List Word
  /-- Bytes performed of an element (of a record's data: 0), elements whose lines are in flight, the cause of a line that
  failed in flight, the transfer record read, what is left to do. -/
  parts  : Map Nat
  sent   : List Nat
  bad    : Option Nat
  record : List Byte
  chores : List Chore
  /-- The number of the first request after the command (R57); the model's own: how far back its reads reach. -/
  first  : Nat
  back   : Option Back
  /-- The edges its issuer had as it issued (R58), and the bytes read of a sparse unit that is read in pieces (R45). -/
  edges  : List (Nat × Nat × Nat) := []
  /-- Loads of its issuer were outstanding as it issued. -/
  pend   : Bool := false
  units  : Map (List Byte) := []
  /-- The attribution it holds: its issuer's as it issued (R288), or the channel's own after a queue edge (R290); the cycles
  since its issue. -/
  attr   : Attr
  cycles : Nat
deriving DecidableEq, Repr

/-- A copy channel: its commands, the first of which may be running, its SEQ and its path token (R215, R286). -/
structure Chan where
  cmds : List ChanCmd
  seq  : Word
  token : DWord
deriving DecidableEq, Repr

/-- A core (R92, R298), or a die-level copy engine. -/
structure Core where
  /-- CSRs of core scope by index; an absent one holds its reset value (`csrReset`). -/
  csr    : Map DWord
  wc     : List WcEntry
  /-- Egress credit in use toward each peer, and UCIe credit in use toward each die (R283). -/
  egress : Map Nat
  ucie   : Map Nat
  pushq  : List Push
  subs   : List Sub
  tlb    : List TlbEntry
  /-- Instruction words the core holds, by PA (R75). -/
  icache : Map DWord
  chans  : Map Chan
  /-- Cycles of the current NWIN window (R263), and all delivered cycles. -/
  window : Nat
  cycles : Nat
  /-- Eligible requests counted for sampling (R294), records lost since the last gap record (R292). -/
  samples : Nat
  lost   : Nat
  /-- Raw events of the current cycle (R295), and per cell the previous sum and the open run (R296, R297). -/
  raw    : Map Nat
  prev   : Map Nat
  runs   : Map Nat
  /-- Stopped issue: a halt (R383). -/
  stopped : Bool
  /-- Cycles of a droop still to come, each counted as stretched (R295, R390). -/
  droop  : Nat
  /-- Attributions at sync words and at the second words of standing slots (R288), by scratchpad offset; those of a
  latency core stand at its lines, in `Die.attrs`. -/
  marks  : Map Attr
  /-- The slot that had the last turn, by quadrant, and the first quadrant still to issue in this cycle (R33, R262). -/
  turns  : Map Nat
  quad   : Nat := 0
  /-- 64-byte units of its scratchpad, by offset, that read as uncorrectable (R152, R234, R388). -/
  spoiled : List Nat := []
deriving DecidableEq, Repr

/-- A latency hardware thread (R350, R357). -/
structure HwThread where
  released : Bool
  sup      : Bool
  masked   : Bool
  /-- The frame was taken from SFRAME at this PA by the ERET that loaded the thread. -/
  loaded   : Bool
deriving DecidableEq, Repr

/-- A fault record (R349). -/
structure FaultRec where
  agent : Word
  cause : Word
  pc    : DWord
  datum : DWord
  flags : Word
  cohort : Word
deriving DecidableEq, Repr

/-- An open packing key (R12): entry PC, footprint, ASID and priority, the threads accepted with it in order, and the
cycles since the oldest was accepted. -/
structure OpenKey where
  pc      : DWord
  footprint : Word
  asid    : Nat
  prio    : Nat
  threads : List Thread
  cycles  : Nat
deriving DecidableEq, Repr

/-- A candidate that waits for room on its dies (R403): a formed group of an S-die, with its order of waiting. -/
structure Formed where
  key   : OpenKey
  order : Nat
deriving DecidableEq, Repr

/-- One subscriber at a home (R211): the core key (for a core of peer p, 4096 × (p + 1) more), the slot, the count of writes
after W0, whether it is owed and suspended. -/
structure Subscriber where
  core   : Nat
  slot   : DWord
  owner  : Nat
  count  : Word
  owed   : Bool
  owedAt : Nat
  susp   : Bool
  /-- The number of the subscription at its core; the attribution (R288) and the writer of the last write counted. -/
  no     : Nat := 0
  attr   : Option Attr := none
  writer : Nat := 0
deriving DecidableEq, Repr

/-- A subscribed location at its home (R211, R358). -/
structure HomeLoc where
  pa   : Nat
  subs : List Subscriber
deriving DecidableEq, Repr

/-- A page in move, or moved and forwarding until FINISHMOVE (R74, R346). -/
structure PageMove where
  src  : Nat
  dst  : Nat
  size : Nat
  done : Bool
deriving DecidableEq, Repr

/-- One sender's and receiver's side of a link (R365, R367): the next SEQ, the replay buffer, the SEQ expected, whether it
has been asked for again, replays in a row without progress, the transmit queue.
DEDUCED (unsafe): notes/assumptions/60.md. -/
structure Link where
  nextSeq : Nat
  replay  : List Flit
  expect  : Nat
  naked   : Bool
  replays : Nat
  queue   : List Flit
  sent    : Nat
  received : Nat
  naks    : Nat
  replayed : Nat
  /-- Cycles with the queue below PARKLO. -/
  low     : Nat
  /-- Cycles without an acknowledge of the oldest flit. -/
  idle    : Nat
  /-- The receiver: flits passed up and not yet acknowledged, and the cycles since the first of them. -/
  owes    : Nat := 0
  owesFor : Nat := 0
  /-- The queue was at or above PARKHI in the last cycle. -/
  high    : Bool := false
  /-- The channel that took the last flit, and the flits each channel took (R365). -/
  last    : Nat := 256
  lanes   : Map Nat := []
  /-- A link-control flit has come, which may be the reset notice (R368). -/
  notice  : Bool := false
deriving DecidableEq, Repr

/-- A die (R338, R379), with an S-die's fabric block (R360). -/
structure Die where
  /-- Registers of the control block by offset; a copy per hardware thread t at offset + 65536 × (t + 1). -/
  regs    : Map DWord
  packwin : Word
  keys    : List OpenKey
  formed  : List Formed
  readyQ  : List Nat
  /-- L-die: what a frame does not hold of a thread that a supervisor entry switched out (its group: GCYC, TMR, s-registers,
  what is pending), by the PA of its frame (R39, R350). -/
  switched : Map Group
  held    : List FaultRec
  home    : List HomeLoc
  moves   : List PageMove
  /-- Accesses counted by page, PIN and requesting die: (2 × page + PIN) × 8 + die (R345). -/
  hot     : Map Nat
  /-- Core cycles of the tracker's window so far (R345). -/
  hotCycles : Nat
  /-- Attributions held at lines (R288), by line PA. -/
  attrs   : Map Attr
  /-- The directory (R344): by line × 8 + die, how that die's caches hold the line: 1 S, 2 E, 3 O, 4 M; unlisted, I. -/
  dir     : Map Nat
  /-- Fabric registers by offset, links by peer, on-hours by channel, CRC errors in the window by channel. -/
  fabric  : Map DWord
  links   : Map Link
  hours   : Map Nat
  window  : Map Nat
  waking  : Map Nat
  /-- SEQ of the die's home and fabric ports by bits [22:0] of their agent ids (R286, R290); records lost since the last
  gap record. -/
  seqs    : Map Word
  /-- Path tokens of the same agents (R286). -/
  tokens  : Map DWord
  lost    : Nat
  /-- Fabric cycles delivered. -/
  ticks   : Nat
  /-- Bits of INTPEND that an event sets: [2] command done, [3] core interrupt. -/
  pend    : BitVec 8
  halted  : Bool
  haltCycles : Nat
deriving DecidableEq, Repr

/-- The memory block of a stack (0 to 15) or an LPDDR 6 (16, 17) (R373, R376): registers by offset, and the poisoned
and sparse 512-byte blocks by PA. -/
structure MemBlock where
  regs   : Map DWord
  poison : List Nat
  sparse : List Nat
  /-- Blocks that the patrol has read in its pass (R378, R396), and bit errors it has left in blocks, by PA (R378). -/
  scrub  : Nat
  flawed : Map Nat := []
  retries : Nat
deriving DecidableEq, Repr

/-- A cohort (R18 to R24). `waiting` has its place in the order of R403 until it is placed. -/
structure Cohort where
  header  : List Byte
  asid    : Nat
  pathtok : DWord
  waiting : Option Nat
  /-- Threads that have ended, by flattened index. -/
  ended   : List Nat
deriving DecidableEq, Repr

/-- What no frame holds of a thread that left through one: the registers last written by loads (R88), the values its
registers held (R89), the number of a pending signal (R352). -/
structure Life where
  loaded : List Nat
  held   : List Word
  /-- The number of a pending signal, which a frame holds one bit of (R352). -/
  signal : Option Nat := none
deriving DecidableEq, Repr

/-- A health event (R394). -/
structure Health where
  cls   : Nat
  sev   : Nat
  die   : Nat
  unit  : Nat
  agent : Word
  datum : DWord
  count : Nat
  tick  : Nat
deriving DecidableEq, Repr

/-- An owner slot of the fuses (R334). -/
structure FuseSlot where
  hash    : Option (List Byte)
  svmin   : Nat
  revoked : Bool
deriving DecidableEq, Repr

/-- The control endpoint and the management controller (R323, R324, R331, R333, R390, R394). -/
structure Ctrl where
  pkstate : Nat
  mbstat  : Word
  intmask : Word
  cmdbuf  : Memory
  rspbuf  : Memory
  msix    : Memory
  pba     : DWord
  /-- The command in progress: its SEQ and the copy of CMDBUF; `discard` after an endpoint reset (R325). -/
  cmd     : Option (Word × List Byte)
  discard : Bool
  header  : Option (List Byte)
  verified : Bool
  boots   : Nat
  resets  : Nat
  patch   : List Byte
  staged  : Option (List Byte)
  fuses   : List FuseSlot
  events  : List Health
  dropped : Nat
  drained : Bool
  cap     : Nat
  /-- The package's power at the last ten telemetry samples, newest first, in mW (R391, R392); energy in microjoules; the
  controller's milliseconds since its last reset, which a record holds modulo 2³² (R396). -/
  powers  : List Nat
  energy  : Nat
  tick    : Nat
  temps   : Map Int
  diePower : Map Nat
  volts   : Map Nat
  /-- Steps below nominal frequency by die, throttle bits by die (R391), sag counters by die, region and depth. -/
  steps   : Map Nat
  throttle : Map Nat
  sags    : Map Nat
  /-- Gated cycles of the current second by region; 64-byte lines between dies by 8 × from + to (R396). -/
  gated   : Map Nat
  lines   : Map Nat
  status8 : Nat
  ces     : Nat
  ues     : Nat
  ceHour  : Map Nat
  /-- A halt in progress: cause and agent (R382, R383), and whether its engine commands are noted; of the last halt, the
  cause and the engine entries of the dump (R388). -/
  halting : Option (Nat × Word)
  haltSeen : Bool
  haltCause : Nat × Word
  haltLog : List (List Byte)
  /-- UCIe lanes repaired by die pair; root-port links up, by 2 × die + port and for the second half of a bifurcated port 8
  more, and the ports bifurcated (R336); AER reports, IOMMU spaces by requester. -/
  repaired : Map Nat
  ports   : Map Bool
  split   : List Nat
  aer     : List Nat
  iommu   : Map Nat
  worn    : List Nat
  lost    : List Nat
  /-- Flight time to each peer, in reference cycles (R289). -/
  flight  : Map Nat
  /-- Interrupts of root ports not yet taken, by hardware thread (R336); MSI-X messages sent to the host, in order (R323); the
  model's own: what the host's last read of the endpoint returned. -/
  msi     : List Nat
  messages : List (DWord × Word)
  hostData : List Byte
  /-- Fabric cycles without a usable channel to a peer (R363, R368); the flits that the last reset sent as notices, by
  256 × die + channel. -/
  down    : Map Nat := []
  notices : List (Nat × Flit) := []
  /-- The records of a TELEM in progress that are read already (R397). -/
  sampled : List (List Byte) := []
deriving DecidableEq, Repr

/-- What the next turn does: one subset of a slot issues, an event of the table comes about for a subject, a cycle
passes at a core, a core's TLB takes an entry, its instruction cache the n-th line ahead of a thread's PC (R272), a waiting thread's word is read again, the outside writes BAR0 or host
memory, a peer writes its own, the operating system gives a
requester ID its address space, a fabric cycle passes on every die, accesses take another pace, an uncorrectable error comes
about in a scratchpad or a tile, a die's caches give up a line, firmware sets a flight time, the host reads the endpoint, a
mailbox command fails, a root port signals an interrupt, is bifurcated, or sends to another, a millisecond of the controller's clock
passes, a TELEM in progress reads some more of its records.
DESIGN CHOICE (safe): notes/assumptions/16.md. -/
inductive Turn where
  | issue (slot : Nat) (lane : Nat)
  | event (i : Instr) (s : Subject)
  | cycle (core : Nat)
  | fillTlb (core : Nat) (asid : Nat) (va : DWord)
  | dropTlb (core : Nat) (n : Nat)
  | fillCode (slot : Nat) (lane : Nat) (n : Nat)
  | dropCode (core : Nat) (pa : Nat)
  | hostWrite (off : Nat) (bytes : List Byte)
  | hostMem (addr : Nat) (bytes : List Byte)
  | peerMem (peer : Nat) (addr : Nat) (bytes : List Byte) (attr : Option Attr)
  | assign (requester : Nat) (asid : Nat)
  | tick
  | pace (p : Pace)
  | spoil (core : Nat) (off : Nat)
  | spoilTile (slot : Nat) (n : Nat)
  | evict (die : Nat) (pa : Nat)
  | flight (peer : Nat) (n : Nat)
  | hostRead (off : Nat) (n : Nat)
  | configRead
  | mailFails (status : Nat)
  | msi (die : Nat) (link : Nat) (hw : SlotId)
  | bifurcate (die : Nat) (port : Nat) (on : Bool)
  | peerDma (from_ to_ : Nat) (requester : Nat) (va : DWord)
  | controllerMs
  | sampleRecords (n : Nat)
deriving DecidableEq, Repr

/-- The subset whose instruction exec runs: its slot, whether in supervisor mode, its PC, word and guard. -/
structure Issuer where
  slot : Nat
  sup  : Bool
  pc   : DWord
  word : DWord
  g    : Guard
deriving DecidableEq, Repr

/-- The package. -/
structure State where
  /-- The model's own: what happens next, the issuing subset, the event's subject, counters (INVENTORY.md). -/
  agenda  : List Turn
  issuer  : Option Issuer
  subject : Subject
  turnNo  : Nat
  freeNo  : Nat
  reqNo   : Nat
  /-- Physical memory of the package, the host's buffers, and each peer's memory (R66). -/
  mem     : Memory
  hostMem : Memory
  peers   : Map Memory
  /-- Scratchpads by core key (R192). -/
  spad    : Map Memory
  groups  : Map Group
  hw      : Map HwThread
  cores   : Map Core
  dies    : Map Die
  blocks  : Map MemBlock
  cohorts : Map Cohort
  reqs    : List Req
  /-- By save-area PA, the registers a save did not name (R40): (lane, v index), or (32, s index) for shared ones. -/
  unsaved : Map (List (Nat × Nat))
  /-- By save-area PA, what the frame does not hold (R88, R89, R244, R264). -/
  asides  : Map Aside
  ctrl    : Ctrl
  /-- By asid, cohort and WID, what no frame holds of threads that left (R29, R88, R89). -/
  lives   : Map Life
  /-- The memory unit of a 4 KiB page that a placement puts elsewhere than interleaving does (R275). -/
  homes   : Map Nat
  /-- The model's own, for the orders of R45 to R50 (notes/assumptions/79.md). -/
  pace    : Pace
  past    : List Past
  guards  : List Guarded
  writer  : Nat
deriving DecidableEq, Repr

/-- Why the machine stops. One reason: `exec` was asked for an instruction of a thread in a state where no subset
issues; no step does so (the step names the issuer), so it is safe. -/
inductive Fault where
  | noIssuer
deriving DecidableEq, Repr

/-- Why the model refuses: an instruction that has no meaning yet (raised by a refused arm of `exec`; safe). -/
inductive Refusal where
  | notModelled (mnemonic : String)
deriving DecidableEq, Repr

/-! ## The state after reset -/

/-- A context of a latency hardware thread before software gives it a thread (notes/assumptions/2.md).
DESIGN CHOICE (unsafe): notes/assumptions/2.md. -/
def Thread.fresh : Thread :=
  { pc := 0, meet := 0xFFFFFFFFFFFFFFFF, guards := 1, lc0 := ⟨0, 0, 0⟩, lc1 := ⟨0, 0, 0⟩, regs := [], loaded := [],
    fpcr := 0, fpsr := 0, srseed := 1, pathtok := 0, seq := 0, utv := 0, uepc := 0, udata := 0, ucause := 0,
    inHandler := false, cohort := 0, wid := 0, prio := 0, sysPend := false, signal := none, run := .ready,
    deferred := none, numTraps := [], timer := none, owed := none, pathRem := 0,
    back := none, fences := [], held := [] }

/-- A group with nothing in it. -/
def Group.fresh : Group :=
  { footprint := 0, asid := 0, members := [], sregs := [], sLoaded := [], sHeld := [], gcyc := 0, tmr := 0, spbase := 0, wake := 0,
    tiles := [], queue := [], follows := [], preempt := none, active := true, since := 0, issued := [] }

def Core.fresh : Core :=
  { csr := [], wc := [], egress := [], ucie := [], pushq := [], subs := [], tlb := [], icache := [], chans := [],
    window := 0, cycles := 0, samples := 0, lost := 0, raw := [], prev := [], runs := [], stopped := false, droop := 0, marks := [],
    turns := [] }

def Die.fresh : Die :=
  { regs := [], packwin := 2048, keys := [], formed := [], readyQ := [], switched := [], held := [], home := [], moves := [],
    hot := [], hotCycles := 0, attrs := [], dir := [], fabric := [], links := [], hours := [], window := [], waking := [], seqs := [], tokens := [], lost := 0,
    ticks := 0, pend := 0, halted := false, haltCycles := 0 }

def MemBlock.fresh : MemBlock := { regs := [], poison := [], sparse := [], scrub := 0, retries := 0 }

/-- The LPDDR 6 blocks after the ROM's bring-up (R332, R374): INIT and ZERO set, READY and ZERO done. -/
def MemBlock.broughtUp : MemBlock :=
  { regs := [(0x000, 0x101003), (0x008, 0x9)], poison := [], sparse := [], scrub := 0, retries := 0 }

def FuseSlot.empty : FuseSlot := { hash := none, svmin := 0, revoked := false }

def Ctrl.fresh : Ctrl :=
  { pkstate := 0, mbstat := 0, intmask := 0xF, cmdbuf := [], rspbuf := [], msix := [], pba := 0, cmd := none,
    discard := false, header := none, verified := false, boots := 0, resets := 0, patch := [], staged := none,
    fuses := [.empty, .empty, .empty, .empty], events := [], dropped := 0, drained := true, cap := 2500, powers := [],
    energy := 0, tick := 0, temps := [], diePower := [], volts := [], steps := [], throttle := [], sags := [], gated := [], lines := [],
    status8 := 0, ces := 0, ues := 0, ceHour := [], halting := none, haltSeen := false, haltCause := (0, 0), haltLog := [],
    repaired := [], ports := [], aer := [], iommu := [], worn := [], lost := [], flight := [], split := [], msi := [],
    messages := [], hostData := [] }

/-- Right after reset, when the ROM starts waiting for doorbells (R332): the package is in state ROM, every Izterix
core is held in reset, the LPDDR 6 of both L-dies is up.
DESIGN CHOICE (unsafe): notes/assumptions/2.md. -/
def State.reset : State :=
  { agenda := [], issuer := none, subject := .nothing, turnNo := 0, freeNo := 0, reqNo := 0, mem := [],
    hostMem := [], peers := [], spad := [], groups := [], hw := [], cores := [], dies := [],
    blocks := [(16, .broughtUp), (17, .broughtUp)], cohorts := [], reqs := [], unsaved := [], asides := [],
    ctrl := .fresh, lives := [], homes := [], pace := .prompt, past := [], guards := [], writer := 0 }

end Sys2Proof.Machine
end

