-- ==== Sys2Proof/Machine/Maps.lean ====
section
/-! DEFINITION. Reading and writing the sparse data of the state: maps by number, byte memory in its canonical form
(addresses rising, no entry equal to 0), and little-endian words (R97, R196, R246). -/

namespace Sys2Proof.Machine

/-- The entry at key `k`. -/
def lookup {α : Type} (k : Nat) : Map α → Option α
  | [] => none
  | (j, a) :: m => if j == k then some a else if k < j then none else lookup k m

/-- The entry at key `k`, or `d`. -/
def get {α : Type} (m : Map α) (k : Nat) (d : α) : α := (lookup k m).getD d

/-- The map with the entry at key `k`. -/
def put {α : Type} (k : Nat) (a : α) : Map α → Map α
  | [] => [(k, a)]
  | (j, b) :: m => if k < j then (k, a) :: (j, b) :: m else if j == k then (k, a) :: m else (j, b) :: put k a m

/-- The map without key `k`. -/
def del {α : Type} (k : Nat) : Map α → Map α
  | [] => []
  | (j, b) :: m => if j == k then m else if k < j then (j, b) :: m else (j, b) :: del k m

/-- The map with the entry at key `k`, if there is one, changed. -/
def modify {α : Type} (k : Nat) (f : α → α) (m : Map α) : Map α :=
  match lookup k m with
  | some a => put k (f a) m
  | none => m

/-- The byte at address `a`: unlisted bytes read 0.
DESIGN CHOICE (unsafe): notes/assumptions/4.md. -/
def memByte (m : Memory) (a : Nat) : Byte := get m a 0

/-- The memory with one byte written, in canonical form. -/
def memPut (m : Memory) (a : Nat) (b : Byte) : Memory := if b == 0 then del a m else put a b m

/-- `n` bytes from address `a`. -/
def memRead (m : Memory) (a n : Nat) : List Byte := (List.range n).map fun i => memByte m (a + i)

/-- The memory with bytes written from address `a`.
DESIGN CHOICE (unsafe): notes/assumptions/4.md. -/
def memWrite (m : Memory) (a : Nat) : List Byte → Memory
  | [] => m
  | b :: bs => memWrite (memPut m a b) (a + 1) bs

/-- The memory with cells written, in order. -/
def memCells (m : Memory) : Memory → Memory
  | [] => m
  | (a, b) :: cs => memCells (memPut m a b) cs

/-- The canonical form of a memory from address `lo` up. -/
def Memory.wfFrom (lo : Nat) : Memory → Bool
  | [] => true
  | (a, b) :: m => lo ≤ a && b != 0 && Memory.wfFrom (a + 1) m

/-- The canonical form: addresses strictly rising, no entry equal to 0.
DESIGN CHOICE (unsafe): notes/assumptions/4.md. -/
def Memory.wf (m : Memory) : Bool := Memory.wfFrom 0 m

/-- Bytes as a little-endian number. -/
def leVal : List Byte → Nat
  | [] => 0
  | b :: bs => b.toNat + 256 * leVal bs

/-- `n` little-endian bytes of a number. -/
def leBytes : Nat → Nat → List Byte
  | 0, _ => []
  | n + 1, v => BitVec.ofNat 8 v :: leBytes n (v / 256)

/-- Big-endian number of bytes (R330's keys and signatures). -/
def beVal (bs : List Byte) : Nat := leVal bs.reverse
def beBytes (n v : Nat) : List Byte := (leBytes n v).reverse

/-- A field of little-endian bytes: `n` bytes from offset `o`. -/
def field (bs : List Byte) (o n : Nat) : Nat := leVal ((bs.drop o).take n)

def d64 (n : Nat) : DWord := BitVec.ofNat 64 n
def w32 (n : Nat) : Word := BitVec.ofNat 32 n

/-- The smallest power of two at or above `n`. -/
def ceilPow2 (n : Nat) : Nat := if n ≤ 1 then 1 else 2 ^ ((n - 1).log2 + 1)

/-- `x` rounded up to a multiple of `n`. -/
def roundUp (x n : Nat) : Nat := (x + n - 1) / n * n

/-- A value brought into a range (R91).
DEDUCED (unsafe): notes/assumptions/10.md. -/
def clampTo (lo hi x : Nat) : Nat := if x < lo then lo else if hi < x then hi else x

/-- Bits [hi:lo] of a number. -/
def bitsOf (x hi lo : Nat) : Nat := x / 2 ^ lo % 2 ^ (hi + 1 - lo)

def bit (x i : Nat) : Bool := x.testBit i

/-- A fold over a list by state. -/
def each {α σ : Type} (f : α → σ → σ) : List α → σ → σ
  | [], s => s
  | a :: as, s => each f as (f a s)

/-- The first after the one that had the last turn, in round-robin order. -/
def nextAfter (last : Nat) (xs : List Nat) : Option Nat := (xs.filter (last < ·) ++ xs.filter (· ≤ last)).head?

end Sys2Proof.Machine
end

