-- ==== Sys2Proof/Machine/Access.lean ====
section
/-! DEFINITION. The parts of the package by number, and the registers of threads and groups: the accessors every
meaning goes through (R3, R84 to R87, R92, R338). -/

namespace Sys2Proof.Machine

/-- The package halts or is halted: no core, engine or array goes on of itself (R383, R384). -/
def State.frozen (s : State) : Bool := s.ctrl.halting.isSome || s.ctrl.pkstate == 4

/-! ## Places -/

def coreKey (die unit : Nat) : Nat := die * 64 + unit
def slotKey (core slot : Nat) : Nat := core * 1024 + slot
def coreOfSlot (k : Nat) : Nat := k / 1024
def slotOf (k : Nat) : Nat := k % 1024
def dieOfCore (c : Nat) : Nat := c / 64
def unitOf (c : Nat) : Nat := c % 64
def dieOfSlot (k : Nat) : Nat := dieOfCore (coreOfSlot k)
def slotIdKey (g : SlotId) : Nat := slotKey (coreKey g.die g.core) g.slot
def laneKey (l : LaneId) : Nat := slotKey (coreKey l.die l.core) l.slot
def laneWho (l : LaneId) : Who := ⟨laneKey l, l.lane⟩
def coreIdKey (c : CoreId) : Nat := coreKey c.die c.core
/-- A latency core's slots are hardware threads (R11). -/
def isLatency (slot : Nat) : Bool := 4 ≤ dieOfSlot slot
/-- The supervisor context of a hardware thread stands two slots above it. -/
def isSup (slot : Nat) : Bool := isLatency slot && 2 ≤ slotOf slot
def supSlot (slot : Nat) : Nat := if slotOf slot < 2 then slot + 2 else slot
def userSlot (slot : Nat) : Nat := if 2 ≤ slotOf slot then slot - 2 else slot
/-- The number of a latency hardware thread among the package's 192, and t = 2 × core + thread on its die (R338). -/
def hwOnDie (slot : Nat) : Nat := 2 * unitOf (coreOfSlot slot) + slotOf slot % 2
def hwNumber (slot : Nat) : Nat := (dieOfSlot slot - 4) * 96 + hwOnDie slot
/-- The engine of a core's copy commands: its own, or die-level engine 48 + core div 3 (R215, R245). -/
def engineOf (slot : Nat) : Nat :=
  let c := coreOfSlot slot
  if dieOfCore c < 4 then c else coreKey (dieOfCore c) (48 + unitOf c / 3)
def clusterOf (c : Nat) : Nat := c / 4

/-! ## Parts of the state -/

def State.core (s : State) (c : Nat) : Core := get s.cores c .fresh
def State.setCore (s : State) (c : Nat) (x : Core) : State := { s with cores := put c x s.cores }
def State.modCore (s : State) (c : Nat) (f : Core → Core) : State := s.setCore c (f (s.core c))
def State.die (s : State) (d : Nat) : Die := get s.dies d .fresh
def State.setDie (s : State) (d : Nat) (x : Die) : State := { s with dies := put d x s.dies }
def State.modDie (s : State) (d : Nat) (f : Die → Die) : State := s.setDie d (f (s.die d))
def State.group? (s : State) (k : Nat) : Option Group := lookup k s.groups
def State.setGroup (s : State) (k : Nat) (g : Group) : State := { s with groups := put k g s.groups }
def State.modGroup (s : State) (k : Nat) (f : Group → Group) : State := { s with groups := modify k f s.groups }
def State.thread? (s : State) (w : Who) : Option Thread := (s.group? w.slot).bind fun g => lookup w.lane g.members
def Group.setMember (g : Group) (l : Nat) (t : Thread) : Group := { g with members := put l t g.members }
def State.setThread (s : State) (w : Who) (t : Thread) : State := s.modGroup w.slot fun g => g.setMember w.lane t
def State.modThread (s : State) (w : Who) (f : Thread → Thread) : State :=
  s.modGroup w.slot fun g => { g with members := modify w.lane f g.members }
def State.block (s : State) (u : Nat) : MemBlock := get s.blocks u .fresh
def State.modBlock (s : State) (u : Nat) (f : MemBlock → MemBlock) : State :=
  { s with blocks := put u (f (s.block u)) s.blocks }
def State.hwThread (s : State) (slot : Nat) : HwThread :=
  get s.hw (userSlot slot) { released := false, sup := false, masked := false, loaded := false }
def State.modHw (s : State) (slot : Nat) (f : HwThread → HwThread) : State :=
  { s with hw := put (userSlot slot) (f (s.hwThread slot)) s.hw }
def State.modCtrl (s : State) (f : Ctrl → Ctrl) : State := { s with ctrl := f s.ctrl }
def State.spadOf (s : State) (c : Nat) : Memory := get s.spad c []
def State.setSpad (s : State) (c : Nat) (m : Memory) : State := { s with spad := put c m s.spad }
def State.peerMem (s : State) (p : Nat) : Memory := get s.peers p []
def State.setPeer (s : State) (p : Nat) (m : Memory) : State := { s with peers := put p m s.peers }

/-! ## Die and fabric registers (R338, R360, R379) -/

def dieRegReset (o : Nat) : DWord := if o == 0x0F8 then 2048 else if o == 0x408 then 65536 else 0
def Die.reg (d : Die) (o : Nat) : DWord := get d.regs o (dieRegReset (o % 65536))
def Die.setReg (d : Die) (o : Nat) (v : DWord) : Die := { d with regs := put o v d.regs }
def State.dreg (s : State) (d o : Nat) : DWord := (s.die d).reg o
def State.setDreg (s : State) (d o : Nat) (v : DWord) : State := s.modDie d fun x => x.setReg o v
/-- The copy of a per-hardware-thread register (R337, R339). -/
def hwReg (t o : Nat) : Nat := o + 65536 * (t + 1)
def fabReset (boot o : Nat) : DWord :=
  if o == 0x008 then
    let e := Config.freeEpoch boot
    (if e == 0 then 1#16 else e).setWidth 64
  else if o == 0x010 then 0x01000001_0080_0010 else if o == 0x018 then 1024
  else if o == 0x020 then 0x0100_0000_0040 else if o == 0x028 then 0x100000 else 0
def State.freg (s : State) (d o : Nat) : DWord := get (s.die d).fabric o (fabReset s.ctrl.resets o)
def State.setFreg (s : State) (d o : Nat) (v : DWord) : State :=
  s.modDie d fun x => { x with fabric := put o v x.fabric }
def blockReset (o : Nat) : DWord := if o == 0 then 0x101000 else if o == 0x010 then 0x0118 else 0
def State.breg (s : State) (u o : Nat) : DWord := get (s.block u).regs o (blockReset o)
def State.setBreg (s : State) (u o : Nat) (v : DWord) : State :=
  s.modBlock u fun x => { x with regs := put o v x.regs }

/-- PKG of every agent id (R3, R360): 0 outside a domain (R2). -/
def State.pkg (s : State) : Nat := if bit (s.freg 0 0).toNat 8 then bitsOf (s.freg 0 0).toNat 7 2 else 0
/-- PEERSTAT(q)[1:0]: 0 absent, 1 up, 2 lost. -/
def State.peerState (s : State) (q : Nat) : Nat := (s.freg 0 (0x200 + 8 * q)).toNat % 4
/-- Packages in the domain (R360, R363). -/
def State.domain (s : State) : Nat :=
  let y := (s.freg 0 0).toNat
  if bit y 8 then 16 * 2 ^ (y % 4) else 1

/-- An agent id (R3). -/
def agentId (pkg die unit slot lane kind : Nat) : Word :=
  w32 (((((pkg * 8 + die) * 64 + unit) * 1024 + slot) * 32 + lane) * 4 + kind)
def State.agentOf (s : State) (w : Who) : Word :=
  agentId s.pkg (dieOfSlot w.slot) (unitOf (coreOfSlot w.slot))
    (if isLatency w.slot then slotOf w.slot % 2 else slotOf w.slot) w.lane 0
def State.chanAgent (s : State) (c ch : Nat) : Word := agentId s.pkg (dieOfCore c) (unitOf c) ch 0 1
def State.homeAgent (s : State) (d : Nat) : Word := agentId s.pkg d 0 0 0 3

/-! ## Footprint (R25) -/

def fpNV (f : Word) : Nat := bitsOf f.toNat 8 0
def fpNS (f : Word) : Nat := bitsOf f.toNat 17 9
def fpSpad (f : Word) : Nat := bitsOf f.toNat 23 18
def fpAcc (f : Word) : Nat := bitsOf f.toNat 28 24
/-- The footprint word is valid (R25). -/
def fpValid (f : Word) : Bool := f.toNat < 2 ^ 29 && fpNV f ≤ 479 && fpSpad f ≤ 48 && fpAcc f ≤ 16

/-! ## Registers (R84 to R89) -/

/-- The values of the registers that hold one. -/
def knownVals {n : Nat} (m : Map (Val n)) : List (BitVec n) := m.filterMap fun x => match x.2 with
  | .known v => some v
  | .undef _ => none
/-- What a register holds, put with the values held before when it takes another (R89). -/
def heldWith {n : Nat} (m : Map (Val n)) (i : Nat) (old : List (BitVec n)) : List (BitVec n) :=
  match lookup i m with
  | some (.known v) => if v == 0 || old.contains v then old else v :: old
  | _ => old
/-- What a register reads as: an undefined one as zero or a value that a register of the thread holds or held, a free
choice among them (R89).
DESIGN CHOICE (safe): notes/assumptions/3.md. -/
def Val.read {n : Nat} (idx : Nat) (held : List (BitVec n)) : Val n → BitVec n
  | .known v => v
  | .undef st => (0 :: held).getD (Config.freeChoice (1024 * st + idx) % (held.length + 1)) 0

/-- A v-context register: index 0 reads zero. -/
def Thread.reg (t : Thread) (i : Nat) : Word :=
  if i == 0 then 0
  else match get t.regs i (.known 0) with
    | .known v => v
    | u => u.read i (t.held ++ knownVals t.regs)
/-- A v-context pair (R86): index 0 reads a 64-bit zero. -/
def Thread.pair (t : Thread) (i : Nat) : DWord := if i == 0 then 0 else t.reg (i + 1) ++ t.reg i
/-- A write of a v-context register; a write to index 0 is discarded. -/
def Thread.setReg (t : Thread) (i : Nat) (v : Word) : Thread :=
  if i == 0 then t else { t with regs := put i (.known v) t.regs, held := heldWith t.regs i t.held }
def Thread.setPair (t : Thread) (i : Nat) (v : DWord) : Thread :=
  if i == 0 then t else (t.setReg i (v.setWidth 32)).setReg (i + 1) ((v >>> 32).setWidth 32)
/-- Guards: g0 reads true and discards writes (R84). -/
def Thread.guard (t : Thread) (i : Nat) : Bool := i == 0 || t.guards.getLsbD i
def Thread.setGuard (t : Thread) (i : Nat) (b : Bool) : Thread :=
  if i == 0 then t
  else { t with guards := if b then t.guards ||| (1#8 <<< i) else t.guards &&& ~~~(1#8 <<< i) }
/-- An s-register: s0 reads zero (R14). -/
def Group.sreg (g : Group) (i : Nat) : DWord :=
  if i == 0 then 0
  else match get g.sregs i (.known 0) with
    | .known v => v
    | u => u.read i (g.sHeld ++ knownVals g.sregs)
def Group.setSreg (g : Group) (i : Nat) (v : DWord) : Group :=
  if i == 0 then g else { g with sregs := put i (.known v) g.sregs, sHeld := heldWith g.sregs i g.sHeld }

/-- The instruction's guard in a lane (R97). -/
def Thread.guardHolds (t : Thread) (g : Guard) : Bool := t.guard g.idx.toNat != g.neg

/-! ## CSRs of core scope (R92, R298) -/

def csrReset (i : Nat) : DWord :=
  if i == 0x800 then 4096 else if i == 0x801 then 8192 else if i == 0x802 then 32768 else if i == 0x803 then 512
  else if i == 0x804 then 2048 else if i == 0x805 then 1048576
  else if 0xA20 ≤ i && i ≤ 0xA2F then 0xFFFFFFFFFFFF else 0
def Core.reg (c : Core) (i : Nat) : DWord := get c.csr i (csrReset i)
def Core.setRegRaw (c : Core) (i : Nat) (v : DWord) : Core := { c with csr := put i v c.csr }

/-- Members and issuing lanes (R5, R16): a subset shares one PC and can issue. -/
def Group.lanes (g : Group) : List Nat := g.members.map (·.1)
def Thread.canIssue (t : Thread) : Bool := t.run == .ready
def Group.activeAt (g : Group) (pc : DWord) : List Nat :=
  (List.range 32).filter fun l => match lookup l g.members with
    | some t => t.canIssue && t.pc == pc
    | none => false

/-- A new stamp for values left undefined.
DESIGN CHOICE (safe): notes/assumptions/3.md. -/
def State.stamp (s : State) : Nat := s.freeNo
def State.bump (s : State) : State := { s with freeNo := s.freeNo + 1 }

/-- Registers become undefined; what they held counts as held before (R89). -/
def Thread.forget (t : Thread) (rs : List Nat) (stamp : Nat) : Thread :=
  { t with regs := each (fun i m => put i (.undef stamp) m) rs t.regs,
           held := each (fun i h => heldWith t.regs i h) rs t.held }
/-- An s-register becomes undefined. -/
def Group.forget (g : Group) (i stamp : Nat) : Group :=
  if i == 0 then g else { g with sregs := put i (.undef stamp) g.sregs, sHeld := heldWith g.sregs i g.sHeld }
/-- q0 to q7 become undefined (R88).
DEDUCED (safe): notes/assumptions/18.md. -/
def Thread.dropQ (t : Thread) (stamp : Nat) : Thread :=
  let t := t.forget ((List.range 8).map (0x1F8 + ·)) stamp
  { t with loaded := t.loaded.filter fun r => !(0x1F8 ≤ r && r < 0x200) }

/-! ## Tokens (R286, R287) -/

def hopsOf (tok : DWord) : Nat := tok.toNat / 2 ^ 40 % 4096
def lenOf (tok : DWord) : Nat := tok.toNat % 2 ^ 40
def tokenOf (hops len : Nat) : DWord := d64 (min hops 4095 * 2 ^ 40 + min len (2 ^ 40 - 1))
def growTok (tok : DWord) (n : Nat) : DWord := if n == 0 then tok else tokenOf (hopsOf tok) (lenOf tok + n)

/-- The tokens of a die's agents of one kind grow, by agent id (R3, R286). -/
def growKind (kind n : Nat) (m : Map DWord) : Map DWord := m.map fun x => (x.1, if x.1 % 4 == kind then growTok x.2 n else x.2)

/-- An agent has a token, with the LEN it has grown to so far where it had none (R286, R287). -/
def withToken (k len : Nat) (m : Map DWord) : Map DWord := if (lookup k m).isSome then m else put k (tokenOf 0 len) m

/-- LEN grows by cycles of the agent's clock, the fraction kept (R4, R287). -/
def Thread.grow (t : Thread) (lat : Bool) (n : Nat) : Thread :=
  if lat then
    let x := 11 * n + t.pathRem
    { t with pathtok := growTok t.pathtok (x / 30), pathRem := x % 30 }
  else { t with pathtok := growTok t.pathtok n }
/-- A carried attribution grows by the cycles the stations on its way add (R289). -/
def Attr.grow (a : Attr) (n : Nat) : Attr := { a with token := growTok a.token n }
/-- An attribution on its way in this turn: what the stations add is free (R289).
DESIGN CHOICE (safe): notes/assumptions/80.md. -/
def State.onWay (s : State) (key : Nat) (a : Option Attr) : Option Attr := a.map fun x => x.grow (Config.transit s.turnNo key)

/-! ## What no frame holds of a thread (R29, R88, R89) -/

/-- A thread that leaves, by what its frame names it with. -/
def lifeKey (asid : Nat) (cohort : Word) (wid : DWord) : Nat := wid.toNat + 2 ^ 64 * (cohort.toNat + 2 ^ 32 * asid)
/-- A thread leaves through a frame. -/
def State.keepLife (s : State) (asid : Nat) (t : Thread) : State :=
  let held := each (fun r h => heldWith t.regs r.1 h) t.regs t.held
  let k := lifeKey asid t.cohort t.wid
  if held.isEmpty && t.loaded.isEmpty && t.signal.isNone then { s with lives := del k s.lives }
  else { s with lives := put k ⟨t.loaded, held, t.signal⟩ s.lives }
/-- A thread has ended: nothing of it is kept for one that takes its place (R89). -/
def State.endLife (s : State) (asid : Nat) (t : Thread) : State :=
  { s with lives := del (lifeKey asid t.cohort t.wid) s.lives }
/-- A new cohort's number is a new one: nothing is kept under it (R20, R89). -/
def State.freshLives (s : State) (cohort : Nat) : State :=
  { s with lives := s.lives.filter fun x => x.1 / 2 ^ 64 % 2 ^ 32 != cohort }
/-- A thread that comes from a frame, with what the frame does not hold. -/
def State.withLife (s : State) (asid : Nat) (t : Thread) : Thread :=
  match lookup (lifeKey asid t.cohort t.wid) s.lives with
  | some x => { t with
      loaded := x.loaded.filter (fun r => !(0x1F8 ≤ r && r < 0x200)), held := x.held,
      signal := if t.signal.isSome && x.signal.isSome then x.signal else t.signal }
  | none => t

end Sys2Proof.Machine
end

