-- ==== Sys2Proof/Machine/Order.lean ====
section
/-! DEFINITION. The orders that R45 to R50 leave open, as far as turns of the model show them (notes/assumptions/79.md):
scope instances (R47), what reads of an earlier point return, and releases performed before writes that precede them. -/

namespace Sys2Proof.Machine

/-! ## Scope instances (R47, R48) -/

/-- A writer that stands in every scope instance: what the model does not tell apart. -/
def everyone : Nat := 2 ^ 40
/-- The agents that are no threads, as slots: a copy channel of an engine, a peer, the outside. -/
def chanSlot (eng k : Nat) : Nat := slotKey (2 ^ 20 + eng) k
def isChanSlot (slot : Nat) : Bool := 2 ^ 30 ≤ slot && slot < everyone
def peerSlot (p : Nat) : Nat := slotKey (coreKey (8 + p) 0) 0
def outsideSlot : Nat := slotKey (coreKey 7 0) 0
/-- The core, or die-level engine, of an agent. -/
def agentCore (slot : Nat) : Nat := if isChanSlot slot then coreOfSlot slot - 2 ^ 20 else coreOfSlot slot
def Who.core (w : Who) : Nat := agentCore w.slot

/-- An agent is in the instance of a scope value for another: SC 0 to 5, a greater value naming every agent (R47).
DESIGN CHOICE (unsafe): notes/assumptions/79.md. -/
def agentIn (sc slot other : Nat) : Bool :=
  let core := agentCore slot
  let die := dieOfCore core
  let oCore := agentCore other
  if other == everyone || 5 ≤ sc then true
  else if sc == 4 then dieOfCore oCore < 6
  else if sc == 3 || (isChanSlot slot && 4 ≤ die) then dieOfCore oCore == die
  else if sc == 2 && die < 4 then clusterOf oCore == clusterOf core
  else if sc == 0 && !isChanSlot slot then userSlot other == userSlot slot
  else oCore == core

/-! ## Requests by the bytes they touch -/

/-- The memory a place is of: 64 for this package's, a peer by its number, a scratchpad. -/
def Dest.space : Dest → Nat
  | .unit _ => 64
  | .peer p _ => p
  | .spad c => 128 + c

/-- The number of bytes a request reads or writes from its PA. -/
def Req.size (r : Req) : Nat :=
  match r.op with
  | .load n _ _ => n
  | .atomic _ n _ _ _ _ => n
  | .write cells _ => cells.length
  | .stand _ _ => 8
  | .unstand _ => 0
def Req.reads (r : Req) : Bool :=
  match r.op with
  | .load _ _ _ | .atomic _ _ _ _ _ _ | .stand _ _ => true
  | _ => false
def Req.isWrite (r : Req) : Bool :=
  match r.op with
  | .write _ _ => true
  | _ => false
def Req.isLoad (r : Req) : Bool :=
  match r.op with
  | .load _ _ _ => true
  | _ => false
def Req.isDrain (r : Req) : Bool :=
  match r.op with
  | .write _ d => d
  | _ => false
/-- A write among the accesses of R198: a store, an atomic, a registration. -/
def Req.changes (r : Req) : Bool :=
  match r.op with
  | .write _ _ | .atomic _ _ _ _ _ _ | .stand _ _ => true
  | _ => false
/-- The bytes a request touches, as (address, count). -/
def Req.spans (r : Req) : List (Nat × Nat) :=
  match r.op with
  | .write cells _ => cells.map fun c => (c.1, 1)
  | .unstand _ => []
  | _ => [(r.pa, r.size)]
/-- The addresses from the first byte a request touches on, as (address, count). -/
def Req.extent (r : Req) : Nat × Nat :=
  match r.op with
  | .write cells _ =>
    let lo := (cells.map (·.1)).foldl min ((cells.head?.map (·.1)).getD r.pa)
    (lo, (cells.map (·.1)).foldl max 0 + 1 - lo)
  | _ => (r.pa, r.size)
/-- A request touches a byte of [pa, pa + n) in a space. -/
def Req.touches (r : Req) (space pa n : Nat) : Bool :=
  r.dest.space == space && r.spans.any fun x => x.1 < pa + n && pa < x.1 + x.2
/-- Two requests have a byte in common. -/
def Req.meets (x r : Req) : Bool := r.spans.any fun p => x.touches r.dest.space p.1 p.2
/-- Two drains of one line. -/
def Req.sameLine (x r : Req) : Bool := x.isDrain && r.isDrain && x.dest.space == r.dest.space && x.pa / 64 == r.pa / 64

/-! ## Releases that go before earlier writes (R49, R50) -/

/-- The requests of a thread's earlier writes that are still in flight, each with the scope of the release or fence. -/
def State.live (s : State) (ps : List (Nat × Nat)) : List (Nat × Nat) := ps.filter fun p => s.reqs.any fun r => r.id == p.2
/-- An access by an agent waits for a release's earlier writes: it is in the release's scope instance (R50).
DESIGN CHOICE (unsafe): notes/assumptions/79.md. -/
def State.guarded (s : State) (w : Who) (space pa n : Nat) : Bool :=
  s.guards.any fun x => x.space == space && pa < x.pa + x.n && x.pa < pa + n && x.who != w &&
    x.preds.any fun p => agentIn p.1 x.who.slot w.slot
/-- An access by an agent the model does not tell apart waits for every release's earlier writes.
DEDUCED (safe): notes/assumptions/79.md. -/
def State.guardedAny (s : State) (space pa n : Nat) : Bool :=
  s.guards.any fun x => x.space == space && pa < x.pa + x.n && x.pa < pa + n
/-- The bytes a release wrote are guarded while writes that precede it are in flight. -/
def State.guardBytes (s : State) (r : Req) : State :=
  let ps := s.live r.preds
  if ps.isEmpty then s else { s with guards := s.guards ++ [⟨r.dest.space, r.extent.1, r.extent.2, r.who, ps⟩] }
/-- From here on no read reaches back beyond this turn. -/
def State.wall (s : State) : State :=
  if s.pace.keep then { s with past := { no := s.turnNo, writer := 0, mem := [], spad := [], peers := [], wall := true } :: s.past }
  else s
/-- A request is gone; what waited for it alone is guarded no more, and no later read reaches back beyond that. -/
def State.dropReq (s : State) (id : Nat) : State :=
  let s := { s with reqs := s.reqs.filter fun r => r.id != id }
  if s.guards.isEmpty then s
  else
    let gs := (s.guards.map fun x => { x with preds := s.live x.preds }).filter fun x => !x.preds.isEmpty
    let done := gs.length != s.guards.length
    let s := { s with guards := gs }
    if done then s.wall else s

/-! ## Reads of an earlier point (R49, R50, R57) -/

/-- What a turn's writes replaced, of one memory. -/
def Past.cells (p : Past) (space : Nat) : Memory :=
  if space == 64 then p.mem else if space < 64 then get p.peers space [] else get p.spad (space - 128) []
def Past.touches (p : Past) (space pa n : Nat) : Bool := (p.cells space).any fun c => pa ≤ c.1 && c.1 < pa + n
/-- The old bytes where two memories differ. -/
def memUndo (old new : Memory) : Memory :=
  (old.filter fun c => memByte new c.1 != c.2) ++ ((new.filter fun c => memByte old c.1 == 0).map fun c => (c.1, 0))
def mapUndo (old new : Map Memory) : Map Memory :=
  (((old ++ new).map (·.1)).eraseDups.map fun k => (k, memUndo (get old k []) (get new k []))).filter fun x => !x.2.isEmpty
/-- The state with what a turn's writes replaced, kept while the pace says so. -/
def State.remember (before after : State) : State :=
  if !before.pace.keep || !after.pace.keep then after
  else
    let p : Past := { no := after.turnNo, writer := after.writer, mem := memUndo before.mem after.mem,
                      spad := mapUndo before.spad after.spad, peers := mapUndo before.peers after.peers }
    if p.mem.isEmpty && p.spad.isEmpty && p.peers.isEmpty then after else { after with past := p :: after.past }

/-- The turn to which a read of [pa, pa + n) may reach back: not before the thread's own accesses of the bytes, nor before
a write of an agent in a scope whose edge stands before it, nor beyond a wall. -/
def Back.reach (b : Back) (past : List Past) (space pa n asOf : Nat) : Nat :=
  let own := b.seen.foldl (fun t x =>
    if x.1 == space && x.2.1 < pa + n && pa < x.2.1 + x.2.2.1 then max t x.2.2.2 else t) (max asOf b.base)
  past.foldl (fun t p =>
    if p.wall || (p.touches space pa n && b.floors.any (fun f => p.no ≤ f.2.2 && agentIn f.1 f.2.1 p.writer)) then max t p.no
    else t) own
/-- The turn a read is performed at: now, or where the pace and the reader's order let it reach back to. -/
def State.readTurn (s : State) (b : Option Back) (space pa n : Nat) : Nat :=
  match s.pace.asOf, b with
  | some t, some b => if s.guards.isEmpty && t < s.turnNo then min s.turnNo (b.reach s.past space pa n t) else s.turnNo
  | _, _ => s.turnNo
/-- The bytes at a turn, of the bytes now. -/
def State.bytesAt (s : State) (space pa t : Nat) (bs : List Byte) : List Byte :=
  let ps := s.past.filter fun p => t < p.no
  if ps.isEmpty then bs
  else bs.zipIdx.map fun x => ps.foldl (fun b p =>
    match (p.cells space).find? fun c => c.1 == pa + x.2 with
    | some c => c.2
    | none => b) x.1
/-- The bytes a reader's access returns, of the bytes now.
DESIGN CHOICE (unsafe): notes/assumptions/79.md. -/
def State.viewed (s : State) (b : Option Back) (space pa : Nat) (bs : List Byte) : List Byte :=
  s.bytesAt space pa (s.readTurn b space pa bs.length) bs

/-- A load: what precedes it so far precedes what an acquire orders after it (R58). -/
def Back.load (b : Back) : Back := { b with loads := b.floors }
def Back.saw (b : Back) (space pa n t : Nat) : Back := { b with seen := (space, pa, n, t) :: b.seen }
/-- A floor of a scope instance at a turn. -/
def Back.floor (b : Back) (sc slot t : Nat) : Back := { b with floors := (sc, slot, t) :: b.floors }
/-- After a read of [pa, pa + n): the bytes are seen, and an acquire is ordered after the writers in its scope. -/
def State.noteRead (s : State) (w : Who) (space pa n : Nat) (acq : Bool) (sc : Nat) : State :=
  s.modThread w fun t => match t.back with
    | none => t
    | some b =>
      let at_ := s.readTurn (some b) space pa n
      let b := b.saw space pa n at_
      let from_ := s.past.any fun p => p.no ≤ at_ && p.touches space pa n && agentIn sc w.slot p.writer
      { t with back := some (if acq && from_ then (b.floor sc w.slot at_).load else b.load) }
/-- After a read performed now, of [pa, pa + n). -/
def State.sawNow (s : State) (w : Who) (space pa n : Nat) : State :=
  s.modThread w fun t => match t.back with
    | none => t
    | some b => { t with back := some (b.saw space pa n s.turnNo).load }
def State.noteWrite (s : State) (r : Req) : State :=
  s.modThread r.who fun t => match t.back with
    | none => t
    | some b => { t with back := some (b.saw r.dest.space r.extent.1 r.extent.2 s.turnNo) }
/-- What precedes now in a scope precedes the thread's later accesses: a fence, a wait that completed. -/
def Thread.orderedAt (t : Thread) (sc slot turn : Nat) : Thread :=
  match t.back with
  | none => t
  | some b => { t with back := some (b.floor sc slot turn) }
/-- An acquire fence after a thread's relaxed loads (R49, R50): what they read orders what follows, from the last of them that
returned a write of an agent in the scope. -/
def Back.edge (b : Back) (past : List Past) (seen : List (Nat × Nat × Nat × Nat)) (sc slot : Nat) : Back :=
  let from_ := seen.filter fun x => past.any fun p =>
    p.no ≤ x.2.2.2 && p.touches x.1 x.2.1 x.2.2.1 && agentIn sc slot p.writer
  if from_.isEmpty then b else b.floor sc slot (from_.foldl (fun n x => max n x.2.2.2) 0)
/-- The smallest scope of an agent whose instance holds some others (R53). -/
def commonScope (slots : List Nat) : Nat :=
  match slots with
  | [] => 0
  | x :: xs => ([0, 1, 2, 3].find? fun sc => xs.all fun y => agentIn sc x y).getD 4
/-- A thread after an acquire fence. -/
def Thread.fenced (t : Thread) (past : List Past) (sc slot : Nat) : Thread :=
  { t with back := t.back.map fun b => b.edge past b.seen sc slot }
def State.orderedNow (s : State) (w : Who) (sc : Nat) : State := s.modThread w fun t => t.orderedAt sc w.slot s.turnNo
/-- What precedes a break of R56 precedes the thread's later accesses in every scope. -/
def Thread.settled (t : Thread) (turn : Nat) : Thread := t.orderedAt 6 0 turn

/-- A pace takes effect: with `keep`, every thread's reads may reach back to now from now on. -/
def State.setPace (s : State) (p : Pace) : State :=
  let arm := fun (m : Nat × Thread) =>
    (m.1, { m.2 with back := if p.keep then some (m.2.back.getD { base := s.turnNo, floors := [], seen := [] }) else none })
  { s with pace := p, past := if p.keep then s.past else [],
           groups := s.groups.map fun g => (g.1, { g.2 with members := g.2.members.map arm }) }

end Sys2Proof.Machine
end

