-- ==== Sys2Proof/Machine/Translate.lean ====
section
/-! DEFINITION. Where an address leads: page tables and translations (R340 to R343), the placement of physical
addresses (R275), the ownership of scratchpad (R192), and whether memory can be read or written there (R358, R374,
R376). A failed check is its cause code (R152). -/

namespace Sys2Proof.Machine

/-- What an access is for the permission check (R342). -/
inductive Acc where
  | read
  | write
  | update   -- an atomic: read and write
  | fetch
deriving DecidableEq, Repr

def Acc.writes (a : Acc) : Bool := a == .write || a == .update
def Acc.reads (a : Acc) : Bool := a == .read || a == .update

/-- The kinds of page (R341). -/
inductive Kind where
  | local_
  | peer
  | device
  | window
deriving DecidableEq, Repr

/-- Where a translated access is performed (R194): home die and memory unit of local memory, the peer and its mirror,
the frame's permissions to be sampled, PIN and SPARSE. -/
structure Target where
  kind   : Kind
  pa     : Nat
  die    : Nat
  unit   : Nat
  peer   : Nat
  mirror : Option Nat
  pin    : Bool
  sparse : Bool
deriving DecidableEq, Repr

/-- A physical address of a register block (R337, R359). -/
def isBlockPa (pa : Nat) : Bool := Config.dieBlock ≤ pa && pa < Config.lpBlock + 0x100000

/-- The stack that holds an HBM4E byte under a placement (R275): interleaved, die-pinned, stack-pinned.
DESIGN CHOICE (unsafe): notes/assumptions/5.md. -/
def stackOf (place tgt pa : Nat) : Nat :=
  let g := pa / 4096
  match place with
  | 1 => tgt % 4 * 4 + g % 4
  | 2 => tgt % 16
  | _ => g % 16

/-- Local memory at a PA under a placement; LPDDR by its range. None where no memory lies.
DESIGN CHOICE (unsafe): notes/assumptions/5.md. -/
def localTarget (place tgt pa : Nat) (pin sparse : Bool) : Option Target :=
  if pa < Config.hbmTop then
    let u := stackOf place tgt pa
    some ⟨.local_, pa, u / 4, u, 0, none, pin, sparse⟩
  else if pa < Config.lpTop then
    let l := (pa - Config.hbmTop) / Config.lpSize
    some ⟨.local_, pa, 4 + l, 16 + l, 0, none, pin, sparse⟩
  else none

/-- The memory unit that holds the 4 KiB page of a PA: where a placement last put it, else interleaved (R275).
DESIGN CHOICE (unsafe): notes/assumptions/5.md. -/
def State.homeUnit (s : State) (pa : Nat) : Nat := get s.homes (pa / 4096) (pa / 4096 % 16)
/-- The die of a memory unit. -/
def unitDie (u : Nat) : Nat := if u < 16 then u / 4 else u - 12
/-- Local memory at a PA where no translation names its placement. -/
def State.localAt (s : State) (pa : Nat) (pin sparse : Bool) : Option Target :=
  (localTarget 0 0 pa pin sparse).map fun t =>
    if pa < Config.hbmTop then { t with unit := s.homeUnit pa, die := unitDie (s.homeUnit pa) } else t

/-- A page lies on another unit than before: what its home holds of it goes with it (R275, R278): standing entries,
attributions, poison, sparse blocks and bit errors; what the cores recorded of its subscriptions and what is in flight to it follow. -/
def State.rehome (s : State) (page u : Nat) : State :=
  let old := s.homeUnit (4096 * page)
  let inPage (a : Nat) : Bool := a / 4096 == page
  let s := { s with homes := if u == page % 16 then del page s.homes else put page u s.homes }
  let s := if unitDie old == unitDie u then s
    else
      let d := s.die (unitDie old)
      let s := s.setDie (unitDie old) { d with home := d.home.filter (fun l => !inPage l.pa),
                                               attrs := d.attrs.filter (fun a => !inPage (64 * a.1)),
                                               dir := d.dir.filter fun a => !inPage (64 * (a.1 / 8)) }
      s.modDie (unitDie u) fun e => { e with home := e.home ++ d.home.filter (fun l => inPage l.pa),
                                             attrs := each (fun a m => put a.1 a.2 m) (d.attrs.filter fun a => inPage (64 * a.1)) e.attrs,
                                             dir := each (fun a m => put a.1 a.2 m) (d.dir.filter fun a => inPage (64 * (a.1 / 8))) e.dir }
  let follow := fun (pa : Nat) (d : Dest) => if d.space == 64 && inPage pa then Dest.unit u else d
  let s := { s with
    cores := s.cores.map fun c => (c.1, { c.2 with subs := c.2.subs.map fun (x : Sub) => { x with dest := follow x.pa x.dest } }),
    reqs := s.reqs.map fun (r : Req) => { r with dest := follow r.pa r.dest } }
  let b := s.block old
  if !(b.poison ++ b.sparse ++ b.flawed.map (·.1)).any inPage then s
  else
    let stay := fun (b : MemBlock) => { b with
      poison := b.poison.filter (!inPage ·), sparse := b.sparse.filter (!inPage ·), flawed := b.flawed.filter (!inPage ·.1) }
    (s.modBlock old stay).modBlock u fun x => { x with
      poison := x.poison ++ b.poison.filter inPage, sparse := x.sparse ++ b.sparse.filter inPage,
      flawed := (b.flawed.filter (inPage ·.1)).foldl (fun m e => put e.1 e.2 m) x.flawed }
/-- A translation puts a page where its placement says (R275). -/
def State.noteHome (s : State) (t : Target) : State :=
  if t.kind != .local_ || Config.hbmTop ≤ t.pa || s.homeUnit t.pa == t.unit then s else s.rehome (t.pa / 4096) t.unit

/-- An untranslated supervisor access (R340): a register block is a device, other holes take cause 0x05 (R359).
DESIGN CHOICE (unsafe): notes/assumptions/5.md.
DESIGN CHOICE (unsafe): notes/assumptions/45.md. -/
def State.physTarget (s : State) (pa : Nat) : Except Nat Target :=
  if isBlockPa pa then .ok ⟨.device, pa, 0, 0, 0, none, false, false⟩
  else match s.localAt pa false false with
    | some t => .ok t
    | none => if 2 ^ 52 ≤ pa then .error 4 else .error 5

/-- The PA range [lo, lo + n) touches a range the home reserves on some die (R358). -/
def State.homeReserved (s : State) (pa n : Nat) : Bool :=
  (List.range 6).any fun d =>
    let ht := (s.dreg d 0x078).toNat
    let ho := (s.dreg d 0x080).toNat
    let hn := (s.dreg d 0x088).toNat
    (s.dreg d 0x090).toNat % 2 == 1 &&
      ((pa < ht + 0x800000 && ht < pa + n) || (pa < ho + 1024 * hn && ho < pa + n))

/-- The stack or LPDDR is READY (R374). -/
def State.ready (s : State) (u : Nat) : Bool := bit (s.breg u 0x008).toNat 0

/-- Memory access checks at the home: reserved ranges, READY, and for a read a poisoned block (R358, R374, R376). -/
def State.memFault (s : State) (t : Target) (n : Nat) (reads : Bool) : Option Nat :=
  if s.homeReserved t.pa n then some 5
  else if !s.ready t.unit then some 7
  else if reads && s.blocks.any (fun u => u.2.poison.any fun b => b < t.pa + n && t.pa < b + 512) then some 7
  else none

/-! ## Page tables (R340 to R343) -/

/-- A walk's result: a leaf entry with its address and level, or a cause. -/
structure Leaf where
  at_   : Nat
  level : Nat
  pte   : Nat
deriving DecidableEq, Repr

/-- The page move that a PA of an old page is in (R74, R346). -/
def State.moveOf (s : State) (pa : Nat) : Option PageMove :=
  ((List.range 6).flatMap fun d => (s.die d).moves).find? fun m => m.src ≤ pa && pa < m.src + m.size
/-- The old home forwards, or blocks, accesses to a page in move, from home to home (R74, R346). -/
def State.follow (s : State) (t : Target) : Nat → Target × Option Nat
  | 0 => (t, none)
  | fuel + 1 => match s.moveOf t.pa with
    | none => (t, none)
    | some m =>
      if m.done then s.follow ((s.localAt (m.dst + (t.pa - m.src)) t.pin t.sparse).getD t) fuel else (t, some m.src)
/-- The target of an access after forwarding, and the page's old PA while it is blocked. -/
def State.redirect (s : State) (t : Target) : Target × Option Nat :=
  if t.kind != .local_ then (t, none)
  else s.follow t (((List.range 6).flatMap fun d => (s.die d).moves).length + 1)
/-- Where the byte of a PA lies now. -/
def State.movedPa (s : State) (pa : Nat) : Nat :=
  match s.localAt pa false false with
  | some t => (s.redirect t).1.pa
  | none => pa

/-- Reading one 8-byte entry of a table. -/
def State.tableRead (s : State) (pa : Nat) : Except Nat Nat :=
  match (s.localAt pa false false).map fun t => (s.redirect t).1 with
  | none => .error 5
  | some t => match s.memFault t 8 true with
    | some c => .error c
    | none => .ok (leVal (memRead s.mem t.pa 8))

/-- The reserved values of a leaf (R341, R342). -/
def leafReserved (s : State) (level pte : Nat) : Bool :=
  let kind := bitsOf pte 9 8
  let place := bitsOf pte 11 10
  let frame := bitsOf pte 51 12
  let align := 2 ^ (9 * (level - 1))
  (bit pte 2 && !bit pte 1) || (kind != 3 && frame % align != 0) ||
  match kind with
  | 0 => bitsOf pte 63 59 != 0 || (place == 1 && 4 ≤ bitsOf pte 55 52) ||
         (place == 3 && bitsOf pte 55 52 != 4 && bitsOf pte 55 52 != 5)
  | 1 => bit pte 11 || bitsOf pte 57 52 == s.pkg
  | 2 => bitsOf pte 63 52 != 0 || place != 0
  | _ => bitsOf pte 63 52 != 0 || place != 0 || level != 1 || 4 ≤ bitsOf pte 14 12 || 768 ≤ bitsOf pte 29 20 ||
         bitsOf pte 51 30 != 0

/-- The walk from the table at `pa` down from `level` (R342). -/
def State.walk (s : State) (va : Nat) : Nat → Nat → Except Nat Leaf
  | 0, _ => .error 4
  | level + 1, pa =>
    let a := pa + 8 * bitsOf va (12 + 9 * level + 8) (12 + 9 * level)
    match s.tableRead a with
    | .error c => .error c
    | .ok e =>
      if !bit e 0 then .error 4
      else if bit e 7 then
        if level == 3 || leafReserved s (level + 1) e then .error 4 else .ok ⟨s.movedPa a, level + 1, e⟩
      else if level == 0 || bitsOf e 63 52 != 0 || bitsOf e 11 1 != 0 then .error 4
      else s.walk va level (bitsOf e 51 12 * 4096)

/-- The root of an address space (R340): cause 0x04 where its entry is not valid. -/
def State.spaceRoot (s : State) (die asid : Nat) : Except Nat Nat :=
  let e := (s.dreg die 0x000).toNat + 64 * asid
  match s.tableRead (e + 24) with
  | .error c => .error c
  | .ok v => if bit v 0 then s.tableRead e else .error 4

/-- The permission check of R342. -/
def leafDenied (sup : Bool) (acc : Acc) (pte : Nat) : Bool :=
  (!bit pte 4 && !sup) || (acc.writes && !bit pte 2) || (acc.reads && !bit pte 1) || (acc == .fetch && !bit pte 3)

/-- Where a leaf leads for a VA (R341, R275, R346). -/
def leafTarget (level pte va : Nat) : Except Nat Target :=
  let off := va % 2 ^ (12 + 9 * (level - 1))
  let pa := bitsOf pte 51 12 * 4096 + off
  match bitsOf pte 9 8 with
  | 0 => match localTarget (bitsOf pte 11 10) (bitsOf pte 55 52) pa (bit pte 56) (bit pte 57) with
    | some t => .ok t
    | none => if isBlockPa pa then .ok ⟨.device, pa, 0, 0, 0, none, false, false⟩ else .error 5
  | 1 => .ok ⟨.peer, pa, 0, 0, bitsOf pte 57 52, if bit pte 10 then some (bitsOf pte 63 58) else none, true, false⟩
  | 2 => .ok ⟨.device, pa, 0, 0, 0, none, false, false⟩
  | _ => .ok ⟨.window, bitsOf pte 29 20 * 4096 + va % 4096, bitsOf pte 14 12, bitsOf pte 19 15, 0, none, false, false⟩

/-- A translation: where the access goes and the state with A and D set in the entry, or a cause. -/
abbrev Translated := Except Nat (Target × State)

/-- A is set on the first use and D on the first write (R342). -/
def State.markLeaf (s : State) (l : Leaf) (acc : Acc) : State :=
  let b := BitVec.ofNat 8 (l.pte % 256) ||| 0x20 ||| (if acc.writes then 0x40 else 0)
  { s with mem := memPut s.mem l.at_ b }

/-- The core's cached translation of a VA (R343): not used for a first use of an entry, nor a first write through it,
which the walker has yet to mark (R341, R342). -/
def Core.cached (c : Core) (asid va : Nat) (acc : Acc) : Option TlbEntry :=
  c.tlb.find? fun e => e.asid == asid && e.va ≤ va && va < e.va + e.size && e.pte.getLsbD 5 && (!acc.writes || e.pte.getLsbD 6)

def levelOfSize (n : Nat) : Nat := if n == 2 ^ 30 then 3 else if n == 2 ^ 21 then 2 else 1

/-- Translation of an access by a core for an address space (R192, R340, R342). -/
def State.translate (s : State) (core asid : Nat) (sup : Bool) (va : DWord) (acc : Acc) : Translated :=
  let die := dieOfCore core
  let v := va.toNat
  if sup && s.dreg die 0x000 == 0 then
    match s.physTarget v with
    | .ok t => .ok (t, s)
    | .error c => .error c
  else if 2 ^ 48 ≤ v then .error 4
  else match (s.core core).cached asid v acc with
    | some e =>
      if leafDenied sup acc e.pte.toNat then .error 5
      else match leafTarget (levelOfSize e.size) e.pte.toNat v with
        | .ok t => .ok (t, s.noteHome t)
        | .error c => .error c
    | none =>
      match s.spaceRoot die asid with
      | .error c => .error c
      | .ok root => match s.walk v 4 root with
        | .error c => .error c
        | .ok l =>
          if leafDenied sup acc l.pte then .error 5
          else match leafTarget l.level l.pte v with
            | .ok t => .ok (t, (s.markLeaf l acc).noteHome t)
            | .error c => .error c

/-! ## Scratchpad (R192, R280) -/

/-- The bytes [off, off + n) of a core's scratchpad lie in a region of a group for which `ok` holds. -/
def State.inRegion (s : State) (core off n : Nat) (ok : Nat → Group → Bool) : Bool :=
  s.groups.any fun (k, g) =>
    let b := g.spbase.toNat % 2 ^ 22
    coreOfSlot k == core && ok k g && b ≤ off && off + n ≤ b + 65536 * fpSpad g.footprint

/-- A scratchpad address (R192): the core whose scratchpad it names and the byte offset. -/
def spadDecode (core : Nat) (a : DWord) : Except Nat (Nat × Nat) :=
  let v := a.toNat
  let off := v % 2 ^ 22
  if 2 ^ 24 ≤ v || 0x300000 ≤ off then .error 4
  else .ok (clusterOf core * 4 + bitsOf v 23 22, off)

/-- The checks of R192 for `n` bytes accessed by the group at `slot`, of address space `asid`. -/
def State.spadCheck (s : State) (slot asid : Nat) (a : DWord) (n : Nat) : Except Nat (Nat × Nat) :=
  let core := coreOfSlot slot
  match spadDecode core a with
  | .error c => .error c
  | .ok (c, off) =>
    if 0x300000 < off + n then .error 4
    else if c == core then
      if s.inRegion c off n (fun k _ => k == slot) then .ok (c, off) else .error 5
    else if s.inRegion c off n (fun _ g => g.asid == asid) then .ok (c, off) else .error 5

/-- A check on region ownership alone, when the access is performed (R280). -/
def State.spadOwned (s : State) (asid core off n : Nat) : Bool := s.inRegion core off n (fun _ g => g.asid == asid)

end Sys2Proof.Machine
end

