-- ==== Sys2Proof/Machine/Home.lean ====
section
/-! DEFINITION. Accesses performed at a home of this package (R194): bytes, attributions of lines (R288), counts of hot
pages (R345), pushes to standing slots (R61, R62, R211), poison and sparse blocks (R376, R377); and rings in physical
memory (R292). -/

namespace Sys2Proof.Machine

/-- A raw event of R295 at a core: event, P1 and P2, n times in the current cycle. -/
def Core.raise (c : Core) (ev p1 p2 n : Nat) : Core :=
  let k := ev * 64 + p1 * 8 + p2
  { c with raw := put k (get c.raw k 0 + n) c.raw }
/-- A raw event; a line between dies is counted by the controller too (R396, kind 5). -/
def State.raise (s : State) (core ev p1 p2 n : Nat) : State :=
  let s := s.modCore core fun c => c.raise ev p1 p2 n
  if ev == 0x08 then s.modCtrl fun c => { c with lines := put (8 * p1 + p2) (get c.lines (8 * p1 + p2) 0 + n) c.lines }
  else s
/-- A line a core requests of a home on a die, or of a peer (6): it may miss in the L1D, which the caches decide; from
another die it comes back over UCIe.
DESIGN CHOICE (safe): notes/assumptions/3.md. -/
def State.lineEvent (s : State) (core home : Nat) : State :=
  let d := dieOfCore core
  let s := (s.raise core 0x07 d home 1).raise core 0x06 7 7 (Config.freeChoice (65536 * s.turnNo + core) % 2)
  if d == home || 6 ≤ home then s else s.raise core 0x08 home d 1
/-- A line a core sends to a home on a die, or to a peer (6): over UCIe where the die is another. -/
def State.lineSent (s : State) (core home : Nat) : State :=
  let d := dieOfCore core
  if d == home then s else if 6 ≤ home then s.raise core 0x09 7 6 1 else s.raise core 0x08 d home 1
def State.raiseDie (s : State) (d ev : Nat) : State :=
  { s with cores := s.cores.map fun (k, c) => (k, if dieOfCore k == d then c.raise ev 7 7 1 else c) }

/-! ## Pushes (R211) -/

/-- A replaced or new push in a core's queue. -/
def Core.enqueue (c : Core) (p : Push) : Core × Bool :=
  let same := fun (q : Push) => q.slot == p.slot && q.owner == p.owner && q.no == p.no
  if c.pushq.any same then
    ({ c with pushq := c.pushq.map fun q => if same q then { p with ovr := p.ovr || q.ovr } else q }, true)
  else if c.pushq.length < 64 then ({ c with pushq := c.pushq ++ [p] }, true)
  else (c, false)

/-- The push of a subscriber's last write: the value, the count, OVR where it makes good a drop (R208). -/
def Subscriber.push (u : Subscriber) (value : DWord) (ovr : Bool) : Push :=
  { slot := u.slot, owner := u.owner, value := value, count := u.count, ovr := ovr, attr := u.attr, no := u.no, writer := u.writer }
/-- The fate of one write for one subscriber (R211): counted, then queued, coalesced, or the slot owed; a halted
package's pushes are held at their homes (R384). -/
def State.pushTo (s : State) (value : DWord) (attr : Option Attr) (u : Subscriber) : Subscriber × State :=
  let u := { u with count := u.count + 1, attr := attr, writer := s.writer }
  if 4096 ≤ u.core then (u, s)
  else if u.owed then (u, s)
  else if u.susp || s.ctrl.pkstate == 4 then ({ u with owed := true, owedAt := s.freeNo }, s.bump)
  else
    let (c, ok) := (s.core u.core).enqueue (u.push value false)
    if ok then (u, s.setCore u.core c)
    else ({ u with owed := true, owedAt := s.freeNo }, ((s.setCore u.core c).raise u.core 0x0D 7 7 1).bump)

def State.pushAll (s : State) (value : DWord) (attr : Option Attr) : List Subscriber → List Subscriber × State
  | [] => ([], s)
  | u :: us =>
    let (u', s') := s.pushTo value attr u
    let (us', s'') := s'.pushAll value attr us
    (u' :: us', s'')

/-- The pushes of one write at a home whose memory is `mem`, for the locations it overlaps. -/
def State.pushLocs (s : State) (mem cells : Memory) (attr : Option Attr) : List HomeLoc → List HomeLoc × State
  | [] => ([], s)
  | l :: ls =>
    let hit := cells.any fun c => l.pa ≤ c.1 && c.1 < l.pa + 8
    let (us, s1) := if hit then s.pushAll (d64 (leVal (memRead mem l.pa 8))) attr l.subs else (l.subs, s)
    let (ls', s2) := s1.pushLocs mem cells attr ls
    ({ l with subs := us } :: ls', s2)

/-! ## Rings (R292) -/

/-- The k of a ring's size register: a ring of 2^k bytes, 0 off. -/
def ringK (size : DWord) : Nat := size.toNat % 32

/-! ## Accesses -/

/-- Core cycles of a hot-page window (R345). -/
def hotWindow : Nat := 1048576

/-- A window that has run its cycles ends: the tracker counts from 0 again (R345). -/
def Die.hotExpired (d : Die) : Die :=
  if hotWindow ≤ d.hotCycles then { d with hot := [], hotCycles := d.hotCycles - hotWindow } else d

/-- The cells of bytes written from an address. -/
def cellsAt (a : Nat) : List Byte → Memory
  | [] => []
  | b :: bs => (a, b) :: cellsAt (a + 1) bs

/-- The line of a PA. -/
def lineOf (pa : Nat) : Nat := pa / 64

/-- The blocks a write touched are encoded again: sparse where all 512 bytes are written at once by a translation with SPARSE
and at most 448 bytes are not zero, else dense; POISON clears only when all 512 bytes are rewritten in one write (R376, R377).
DEDUCED (unsafe): notes/assumptions/53.md. -/
def State.reencode (s : State) (t : Target) (cells : Memory) : State :=
  let blks := (cells.map fun c => c.1 / 512 * 512).eraseDups
  if cells.length < 512 && s.blocks.all (fun u => u.2.sparse.isEmpty && u.2.flawed.isEmpty) then s
  else
    let whole (b : Nat) : Bool := 512 ≤ (cells.filter fun c => c.1 / 512 * 512 == b).length
    let isSparse (b : Nat) : Bool := t.sparse && whole b && ((memRead s.mem b 512).filter fun x => x != 0).length ≤ 448
    let clean := fun (x : Nat × MemBlock) => (x.1, { x.2 with
      poison := x.2.poison.filter fun b => !(blks.contains b && whole b),
      sparse := x.2.sparse.filter fun b => !blks.contains b
      flawed := x.2.flawed.filter fun b => !blks.contains b.1 })
    let s := { s with blocks := s.blocks.map clean }
    let bs := blks.filter isSparse
    if bs.isEmpty then s else s.modBlock t.unit fun x => { x with sparse := x.sparse ++ bs }

/-- The attribution of a line after a write to some of its bytes (R288). -/
def attrAt (attr : Option Attr) (cells : Memory) (m : Map Attr) : Map Attr :=
  match attr with
  | some a => each (fun c m => put (lineOf c.1) a m) cells m
  | none => each (fun c m => del (lineOf c.1) m) cells m

/-- How the directory holds a line after a die's caches read or write it (R344): a writer has it alone in M; a reader beside
others in S, an owner of dirty data keeping it in O, or alone in E.
DEDUCED (safe): notes/assumptions/62.md. -/
def dirAfter (line die : Nat) (write : Bool) (m : Map Nat) : Map Nat :=
  let own := fun (x : Nat × Nat) => x.1 / 8 == line
  if write then put (8 * line + die) 4 (m.filter fun x => !own x)
  else if get m (8 * line + die) 0 != 0 then m
  else if m.any own then
    put (8 * line + die) 1 (m.map fun x => if own x then (x.1, if x.2 == 4 || x.2 == 3 then 3 else 1) else x)
  else put (8 * line + die) 2 m
/-- The directory after an access of n bytes by a die. -/
def State.noteDir (s : State) (t : Target) (n die : Nat) (write : Bool) : State :=
  let last := lineOf (t.pa + n - 1)
  s.modDie t.die fun d => { d with
    dir := each (fun i m => dirAfter (lineOf t.pa + i) die write m) (List.range (last + 1 - lineOf t.pa)) d.dir }

/-- A write performed at its home: the bytes, the line's attribution (cleared by a write that carries none), the
pushes, and the poison of blocks rewritten whole (R288, R211, R376). -/
def State.homePut (s : State) (t : Target) (cells : Memory) (attr : Option Attr) (fromDie : Nat) : State :=
  let a := s.onWay t.pa attr
  let s := s.modDie t.die fun d => { d with attrs := attrAt a cells d.attrs }
  let s := s.noteDir t cells.length fromDie true
  let s := { s with mem := memCells s.mem cells }
  let s := s.reencode t cells
  let (ls, s) := s.pushLocs s.mem cells attr (s.die t.die).home
  s.modDie t.die fun d => { d with home := ls }

/-! ## Physical memory: the operating system's tables, records and frames -/

/-- The pages of [pa, pa + n) where a die reads or writes them by PA, where they have moved to (R346), each with its length:
none where no memory answers for one of them. -/
def State.physPages (s : State) (reads : Bool) (pa n : Nat) : Nat → Except Nat (List (Target × Nat))
  | 0 => .ok []
  | fuel + 1 =>
    if n == 0 then .ok []
    else
      let k := min n (4096 - pa % 4096)
      match (s.localAt pa false false).map fun t => (s.redirect t).1 with
      | none => .error 5
      | some t => match s.memFault t k reads with
        | some c => .error c
        | none => match s.physPages reads (pa + k) (n - k) fuel with
          | .error c => .error c
          | .ok ts => .ok ((t, k) :: ts)
/-- Enough fuel for `n` bytes from any alignment. -/
def pages (n : Nat) : Nat := n / 4096 + 2

/-- A physical read or write by a die: its bytes, or the failing cause where no memory answers. -/
def State.readPhys (s : State) (pa n : Nat) : Except Nat (List Byte) :=
  match s.physPages true pa n (pages n) with
  | .error c => .error c
  | .ok ts => .ok (ts.flatMap fun x => memRead s.mem x.1.pa x.2)
def State.putPages (s : State) : List (Target × Nat) → List Byte → State
  | [], _ => s
  | (t, k) :: ts, bs => (s.homePut t (cellsAt t.pa (bs.take k)) none t.die).putPages ts (bs.drop k)
def State.writePhys (s : State) (pa : Nat) (bs : List Byte) : Except Nat State :=
  match s.physPages false pa bs.length (pages bs.length) with
  | .error c => .error c
  | .ok ts => .ok (s.putPages ts bs)

/-- A record written to a ring of physical memory (R292): none where memory refuses it.
DEDUCED (unsafe): notes/assumptions/22.md. -/
def State.ringWrite (s : State) (base size head : DWord) (bs : List Byte) : Option State :=
  (s.writePhys (base.toNat + head.toNat % 2 ^ ringK size) bs).toOption

/-! ## Accesses at a home -/

/-- An access from another die is counted for the hot-page tracker, requests with PIN and others apart (R345).
DEDUCED (unsafe): notes/assumptions/22.md. -/
def State.countHot (s : State) (t : Target) (fromDie : Nat) : State :=
  let thr := (s.dreg t.die 0x070).toNat
  if 4 ≤ t.die || fromDie == t.die || thr == 0 then s
  else
    let page := t.pa / 4096
    let k := (2 * page + (if t.pin then 1 else 0)) * 8 + fromDie
    let n := get (s.die t.die).hot k 0 + 1
    let s := s.modDie t.die fun d => { d with hot := put k n d.hot }
    if n != thr then s
    else if t.pin then s.raiseDie t.die 0x0E
    else
      let head := s.dreg t.die 0x060
      if ringK (s.dreg t.die 0x058) == 0 then s
      else match s.ringWrite (s.dreg t.die 0x050) (s.dreg t.die 0x058) head
          (leBytes 8 (page * 4096) ++ leBytes 4 fromDie ++ leBytes 4 n) with
        | some s => s.setDreg t.die 0x060 (head + 16)
        | none => s

/-- A write performed at its home, counted for the tracker. -/
def State.homeWrite (s : State) (t : Target) (cells : Memory) (attr : Option Attr) (fromDie : Nat) : State :=
  (s.countHot t fromDie).homePut t cells attr fromDie

/-- A read performed at its home. -/
def State.homeRead (s : State) (t : Target) (n fromDie : Nat) : List Byte × State :=
  (memRead s.mem t.pa n, (s.countHot t fromDie).noteDir t n fromDie false)

/-- The attribution a line holds (R288). -/
def State.lineAttr (s : State) (t : Target) : Option Attr := lookup (lineOf t.pa) (s.die t.die).attrs

/-- The home of a peer, as far as this package's subscriptions go, stands among the dies at 64 + peer (R62, R211). -/
def peerHome (p : Nat) : Nat := 64 + p

/-- The flight time to or from a peer, which firmware sets (R289). -/
def State.flightTo (s : State) (p : Nat) (a : Option Attr) : Option Attr := a.map fun x => x.grow (get s.ctrl.flight p 0)

/-- The peer that serves a page now: the primary while it is up, else a live mirror (R73).
DEDUCED (unsafe): notes/assumptions/50.md. -/
def State.servingPeer (s : State) (p : Nat) (mirror : Option Nat) : Option Nat :=
  if s.peerState p == 1 then some p
  else match mirror with
    | some m => if s.peerState m == 1 then some m else none
    | none => none

/-- Cells written at one peer, with the line's attribution and the pushes for this package's slots, which fly back (R289). -/
def State.writePeer (s : State) (p : Nat) (cells : Memory) (attr : Option Attr) : State :=
  let a := s.onWay ((cells.head?.map (·.1)).getD 0) attr
  let s := s.setPeer p (memCells (s.peerMem p) cells)
  let (ls, s) := s.pushLocs (s.peerMem p) cells (s.flightTo p a) (s.die (peerHome p)).home
  s.modDie (peerHome p) fun d => { d with home := ls, attrs := attrAt a cells d.attrs }

/-! ## Whole reads and writes by virtual address

The accesses that are not a thread's loads and stores: frames, headers, shape records, transfer records. They go line by
line, each line lying in one page. Cause 0 says that the access waits: at a page in move (R74), behind a release's earlier
writes (R50), or for a peer that is not up yet (R362). -/

/-- The bytes of [va, va + n) that the first line holds. -/
def lineBytes (va n : Nat) : Nat := min n (64 - va % 64)

/-- A read of at most one line, which waits where it must if `wait`. -/
def State.readLineAt (wait : Bool) (s : State) (core asid : Nat) (sup : Bool) (va : DWord) (n : Nat) : Except Nat (List Byte × State) :=
  match s.translate core asid sup va .read with
  | .error c => .error c
  | .ok (t0, s) =>
    let (t, moving) := s.redirect t0
    match t.kind with
    | .local_ =>
      if wait && (moving.isSome || s.guardedAny 64 t.pa n) then .error 0
      else match s.memFault t n true with
        | some c => .error c
        | none => .ok ((s.lineEvent core t.die).homeRead t n (dieOfCore core))
    | .peer =>
      if wait && s.guardedAny t.peer t.pa n then .error 0
      else match s.servingPeer t.peer t.mirror with
        | some q => .ok (memRead (s.peerMem q) t.pa n, s.lineEvent core 6)
        | none => .error (if wait && s.peerState t.peer != 2 then 0 else 6)
    | .window | .device => .error 5

def State.readLine : State → Nat → Nat → Bool → DWord → Nat → Except Nat (List Byte × State) := State.readLineAt true

/-- A write of at most one line, which waits where it must if `wait`. -/
def State.writeLineAt (wait : Bool) (s : State) (core asid : Nat) (sup : Bool) (va : DWord) (bs : List Byte) (attr : Option Attr) :
    Except Nat State :=
  match s.translate core asid sup va .write with
  | .error c => .error c
  | .ok (t0, s) =>
    let (t, moving) := s.redirect t0
    match t.kind with
    | .local_ =>
      if wait && (moving.isSome || s.guardedAny 64 t.pa bs.length) then .error 0
      else match s.memFault t bs.length false with
        | some c => .error c
        | none => .ok ((s.lineSent core t.die).homeWrite t (cellsAt t.pa bs) attr (dieOfCore core))
    | .peer =>
      if wait && s.guardedAny t.peer t.pa bs.length then .error 0 else
      let up := s.peerState t.peer == 1
      let mir := t.mirror.any fun m => s.peerState m == 1
      if !up && !mir then .error (if wait && s.peerState t.peer != 2 then 0 else 6)
      else
        let s := s.lineSent core 6
        let s := if up then s.writePeer t.peer (cellsAt t.pa bs) (s.flightTo t.peer attr) else s
        match t.mirror with
        | some m => .ok (if mir then s.writePeer m (cellsAt t.pa bs) (s.flightTo m attr) else s)
        | none => .ok s
    | .window | .device => .error 5

def State.writeLine : State → Nat → Nat → Bool → DWord → List Byte → Option Attr → Except Nat State := State.writeLineAt true

/-- A read of `n` bytes over at most `fuel` lines.
DESIGN CHOICE (unsafe): notes/assumptions/1.md. -/
def State.readVa (s : State) (core asid : Nat) (sup : Bool) (va : DWord) (n : Nat) : Nat → Except Nat (List Byte × State)
  | 0 => .ok ([], s)
  | fuel + 1 =>
    if n == 0 then .ok ([], s)
    else
      let k := lineBytes va.toNat n
      match s.readLine core asid sup va k with
      | .error c => .error c
      | .ok (bs, s) => match s.readVa core asid sup (va + d64 k) (n - k) fuel with
        | .error c => .error c
        | .ok (bs', s) => .ok (bs ++ bs', s)

/-- A write over at most `fuel` lines; nothing is written where any line fails.
DESIGN CHOICE (unsafe): notes/assumptions/1.md. -/
def State.writeVaAt (wait : Bool) (s : State) (core asid : Nat) (sup : Bool) (va : DWord) (bs : List Byte) : Nat → Except Nat State
  | 0 => .ok s
  | fuel + 1 =>
    if bs.isEmpty then .ok s
    else
      let k := lineBytes va.toNat bs.length
      match s.writeLineAt wait core asid sup va (bs.take k) none with
      | .error c => .error c
      | .ok s => s.writeVaAt wait core asid sup (va + d64 k) (bs.drop k) fuel
def State.writeVa : State → Nat → Nat → Bool → DWord → List Byte → Nat → Except Nat State := State.writeVaAt true

/-- A line of lines: enough fuel for `n` bytes from any alignment.
DESIGN CHOICE (unsafe): notes/assumptions/1.md. -/
def lines (n : Nat) : Nat := n / 64 + 2

end Sys2Proof.Machine
end

