-- ==== Sys2Proof/Machine/Frames.lean ====
section
/-! DEFINITION. Thread frames (R29), where a thread's frame lies (R93, R353), flattened indices (R21), and code-heap
forwarding (R269, R356). -/

namespace Sys2Proof.Machine

/-! ## Launch headers (R18, R19, R21) -/

def hdrEntry (h : List Byte) : DWord := d64 (field h 0 8)
def hdrFootprint (h : List Byte) : Word := w32 (field h 8 4)
def hdrFlags (h : List Byte) : Nat := field h 12 4
def hdrWidth (h : List Byte) (k : Nat) : Nat := bitsOf (field h 16 8) (6 * k + 5) (6 * k)
def hdrExtent (h : List Byte) (k : Nat) : Nat := field h (24 + 4 * k) 4
def hdrCompletion (h : List Byte) : DWord := d64 (field h 48 8)
def hdrPrio (h : List Byte) : Nat := hdrFlags h % 4
def hdrCount (h : List Byte) : Nat := (List.range 6).foldl (fun n k => n * hdrExtent h k) 1
/-- Field k of a WID starts above the widths of the fields below it. -/
def hdrShift (h : List Byte) (k : Nat) : Nat := (List.range k).foldl (fun n j => n + hdrWidth h j) 0
/-- Index i(k) of a WID. -/
def widIndex (h : List Byte) (wid k : Nat) : Nat := wid / 2 ^ hdrShift h k % 2 ^ hdrWidth h k
/-- Index i(k) of a flattened index. -/
def flatIndex (h : List Byte) (fi k : Nat) : Nat :=
  fi / (List.range k).foldl (fun n j => n * hdrExtent h j) 1 % hdrExtent h k
/-- The flattened index of a WID (R21). -/
def flatOfWid (h : List Byte) (wid : Nat) : Nat :=
  (List.range 6).foldr (fun k n => widIndex h wid k + hdrExtent h k * n) 0
/-- The WID of a flattened index. -/
def widOfFlat (h : List Byte) (fi : Nat) : Nat :=
  (List.range 6).foldl (fun n k => n + flatIndex h fi k * 2 ^ hdrShift h k) 0

def State.cohort? (s : State) (c : Word) : Option Cohort := lookup c.toNat s.cohorts

/-! ## Where a thread's frame lies (R93) -/

/-- CFB(c): the cohort table's entry, or for cohort 0 the address-space table's (R340, R353); 0 where unset. -/
def State.cfb (s : State) (die asid : Nat) (c : Word) : Nat :=
  let pa := if c == 0 then (s.dreg die 0x000).toNat + 64 * asid + 16
            else (s.dreg die 0x008).toNat + 16 * (c.toNat % 65536)
  if (if c == 0 then s.dreg die 0x000 else s.dreg die 0x008) == 0 then 0
  else match s.readPhys pa 8 with
    | .ok bs => leVal bs
    | .error _ => 0

/-- TFRAME (R93): 0 where CFB is not set. -/
def State.tframe (s : State) (die asid : Nat) (t : Thread) : DWord :=
  let base := s.cfb die asid t.cohort
  let fi := match s.cohort? t.cohort with
    | some c => if t.cohort == 0 then t.wid.toNat else flatOfWid c.header t.wid.toNat
    | none => t.wid.toNat
  if base == 0 then 0 else d64 (base + 2304 * fi)

/-! ## Frame bytes (R29) -/

def lcBytes (l : LoopCtx) : List Byte := leBytes 8 l.count.toNat ++ leBytes 8 l.start.toNat ++ leBytes 8 l.stop.toNat

/-- The thread word at +92, with the state bits [7:5] of a group save frame (R354) and [8] of a dump (R388). -/
def threadWord (t : Thread) (st : Nat) : Nat :=
  t.prio + (if t.inHandler then 4 else 0) + (if t.sysPend then 8 else 0) + (if t.signal.isSome then 16 else 0) + 32 * st

/-- The record a supervisor entry or a save frame writes at +144 (R350, R354). -/
structure EntryRec where
  kind  : Nat
  cause : Nat
  datum : DWord
  flags : Nat
  pc    : DWord
deriving DecidableEq, Repr

def EntryRec.none : EntryRec := ⟨0, 0, 0, 0, 0⟩

def EntryRec.bytes (r : EntryRec) : List Byte :=
  leBytes 4 r.kind ++ leBytes 4 r.cause ++ leBytes 8 r.datum.toNat ++ leBytes 8 r.flags ++ leBytes 8 r.pc.toNat

/-- The frame of 384 + 4·NV bytes (R29), with the given PC. -/
def frameBytes (t : Thread) (footprint : Word) (asid : Nat) (pc : DWord) (st : Nat) (r : EntryRec) : List Byte :=
  leBytes 8 pc.toNat ++ leBytes 8 t.meet.toNat ++ leBytes 4 (t.guards ||| 1).toNat ++
  leBytes 4 t.fpcr.toNat ++ leBytes 4 t.fpsr.toNat ++ leBytes 4 t.srseed.toNat ++
  lcBytes t.lc0 ++ lcBytes t.lc1 ++ leBytes 8 t.pathtok.toNat ++ leBytes 4 footprint.toNat ++
  leBytes 4 (threadWord t st) ++ leBytes 8 t.utv.toNat ++ leBytes 8 t.uepc.toNat ++ leBytes 8 t.udata.toNat ++
  leBytes 4 t.ucause.toNat ++ leBytes 4 t.seq.toNat ++ leBytes 4 t.cohort.toNat ++ leBytes 4 asid ++
  leBytes 8 t.wid.toNat ++ r.bytes ++ leBytes 72 0 ++ leBytes 8 0 ++
  (List.range 24).flatMap (fun j => leBytes 4 (t.reg (0x1E0 + j)).toNat) ++ leBytes 32 0 ++
  (List.range (fpNV footprint)).flatMap (fun j => leBytes 4 (t.reg (j + 1)).toNat)

def frameSize (footprint : Word) : Nat := 384 + 4 * fpNV footprint

def lcOf (bs : List Byte) (o : Nat) : LoopCtx :=
  ⟨d64 (field bs o 8), d64 (field bs (o + 8) 8), d64 (field bs (o + 16) 8)⟩

/-- A register file from a frame: nonzero registers alone are listed. -/
def regsOf (bs : List Byte) (nv : Nat) : Map (Val 32) :=
  let main := (List.range nv).filterMap fun j =>
    let x := field bs (384 + 4 * j) 4
    if x == 0 then none else some (j + 1, Val.known (w32 x))
  let ops := (List.range 24).filterMap fun j =>
    let x := field bs (256 + 4 * j) 4
    if x == 0 then none else some (0x1E0 + j, Val.known (w32 x))
  main ++ ops

/-- The thread a frame holds (R29), with q undefined under a stamp (R88). The signal's number is not in a frame: a free
value (notes/assumptions/3.md). -/
def threadOf (bs : List Byte) (stamp : Nat) : Thread :=
  let w := field bs 92 4
  let t : Thread :=
    { pc := d64 (field bs 0 8), meet := d64 (field bs 8 8), guards := BitVec.ofNat 8 (field bs 16 4) ||| 1,
      lc0 := lcOf bs 32, lc1 := lcOf bs 56, regs := regsOf bs (fpNV (w32 (field bs 88 4))), loaded := [],
      fpcr := w32 (field bs 20 4), fpsr := w32 (field bs 24 4), srseed := w32 (field bs 28 4),
      pathtok := d64 (field bs 80 8), seq := w32 (field bs 124 4), utv := d64 (field bs 96 8),
      uepc := d64 (field bs 104 8), udata := d64 (field bs 112 8), ucause := w32 (field bs 120 4),
      inHandler := bit w 2, cohort := w32 (field bs 128 4), wid := d64 (field bs 136 8), prio := w % 4,
      sysPend := bit w 3, signal := if bit w 4 then some (Config.freeWord stamp 0x200).toNat else none, run := .ready, deferred := none, numTraps := [],
      timer := none, owed := none, pathRem := 0, back := none, fences := [], held := [] }
  t.dropQ stamp

/-! ## Forwarding (R269, R356) -/

/-- The first installed range of the die's forwarding table that holds an address of the space. -/
def State.forwardIn (s : State) (die asid a base valid : Nat) : Nat → Nat → Nat
  | 0, _ => a
  | fuel + 1, i =>
    let e := memRead s.mem (base + 32 * i) 32
    let o := field e 8 8
    let n := field e 16 8
    if bit valid i && field e 0 2 == asid && o ≤ a && a < o + n then field e 24 8 + (a - o)
    else s.forwardIn die asid a base valid fuel (i + 1)

/-- The PC that a taken branch, jump, call, return, ERET or resume to `a` sets (R269). -/
def State.forward (s : State) (die asid : Nat) (a : DWord) : DWord :=
  let v := (s.dreg die 0x0A0).toNat
  if v % 2 ^ 32 == 0 then a
  else d64 (s.forwardIn die asid a.toNat (s.dreg die 0x098).toNat v 32 0)

end Sys2Proof.Machine
end

