-- ==== Sys2Proof/Machine/Health.lean ====
section
/-! DEFINITION. What goes to the operating system and to the fleet operator: fault records (R349), health events and
their vectors (R323, R394, R395), host interrupts of cores (R264), numeric event counts (R261 to R264). -/

namespace Sys2Proof.Machine

/-! ## Health events (R394, R395) -/

/-- Entry v of the MSI-X table, 16 bytes each: address, data, and in the last word's bit 0 its own mask (PCI Express).
PRESUMED (unsafe): notes/assumptions/63.md. -/
def Ctrl.msixWord (c : Ctrl) (v o n : Nat) : Nat := leVal (memRead c.msix (16 * v + o) n)
def Ctrl.masked (c : Ctrl) (v : Nat) : Bool := bit c.intmask.toNat v || bit (c.msixWord v 12 4) 0
/-- The messages of vectors that are pending and masked no more leave, lowest first (R323). -/
def Ctrl.deliver (c : Ctrl) : Ctrl :=
  let vs := (List.range Config.msixVectors).filter fun v => c.pba.getLsbD v && !c.masked v
  { c with messages := c.messages ++ vs.map fun v => (d64 (c.msixWord v 0 8), w32 (c.msixWord v 8 4)),
           pba := vs.foldl (fun p v => p &&& ~~~(1#64 <<< v)) c.pba }
/-- An MSI-X vector signalled: its pending bit while it is masked (R323), else its message leaves. -/
def State.vector (s : State) (v : Nat) : State := s.modCtrl fun c => { c with pba := c.pba ||| (1#64 <<< v) }.deliver

/-- An event queued, or merged with the one of its class and subject, and its vector signalled (R394). Which unit a class
names, and its datum, are the caller's.
DESIGN CHOICE (unsafe): notes/assumptions/82.md. -/
def State.health (s : State) (cls sev die unit : Nat) (agent : Word) (datum : DWord) : State :=
  let c := s.ctrl
  let isDup := fun (e : Health) => e.cls == cls && e.die == die && e.unit == unit
  if c.events.any isDup then
    let merge := fun (e : Health) => if isDup e then { e with count := e.count + 1, datum := datum } else e
    s.modCtrl fun c => { c with events := c.events.map merge }
  else if 256 ≤ c.events.length then s.modCtrl fun c => { c with dropped := min (c.dropped + 1) 0xFFFFFFFF }
  else
    let fresh := c.events.isEmpty || c.drained
    let s := s.modCtrl fun c =>
      { c with events := c.events ++ [⟨cls, sev, die, unit, agent, datum, 1, c.tick⟩], drained := false }
    if fresh then s.vector (if cls == 0x30 then 2 else 1) else s

/-! ## Fault records (R349) -/

def FaultRec.bytes (r : FaultRec) : List Byte :=
  leBytes 4 r.agent.toNat ++ leBytes 4 r.cause.toNat ++ leBytes 8 r.pc.toNat ++ leBytes 8 r.datum.toNat ++
  leBytes 4 r.flags.toNat ++ leBytes 4 r.cohort.toNat

/-- The ring of a die has room for one more record. -/
def State.faultRoom (s : State) (d : Nat) : Bool :=
  let k := ringK (s.dreg d 0x018)
  k != 0 && (s.dreg d 0x020).toNat + 32 ≤ (s.dreg d 0x028).toNat + 2 ^ k

/-- A record appended at FQHEAD, which rises after the write; none where memory refuses it.
DEDUCED (unsafe): notes/assumptions/22.md. -/
def State.faultAppend (s : State) (d : Nat) (r : FaultRec) : Option State :=
  let h := s.dreg d 0x020
  (s.ringWrite (s.dreg d 0x010) (s.dreg d 0x018) h r.bytes).map fun s => s.setDreg d 0x020 (h + 32)

/-- A record for the die's fault queue: appended, or held in the die while the ring is full, off, or refused by memory. -/
def State.queueFault (s : State) (d : Nat) (r : FaultRec) : State :=
  let hold := s.modDie d fun x => { x with held := x.held ++ [r] }
  if (s.die d).held.isEmpty && s.faultRoom d then (s.faultAppend d r).getD hold else hold

/-- Cause and detail as UCAUSE encodes them (R96). -/
def causeWord (cause detail : Nat) : Word := w32 (cause + 256 * detail)

/-- The record of a thread (R349): flag bits [18:16] as a number. -/
def State.recordOf (s : State) (w : Who) (t : Thread) (asid : Nat) (cause : Word) (pc datum : DWord) (flags : Nat) :
    FaultRec :=
  ⟨s.agentOf w, cause, pc, datum, w32 (asid + 65536 * flags), t.cohort⟩

/-! ## Numeric events (R261 to R264) -/

/-- A host interrupt of a core: INTPEND[3] of its die and a class 0x30 event, independently (R264, R395).
DEDUCED (unsafe): notes/assumptions/41.md. -/
def State.coreInterrupt (s : State) (core cls : Nat) (agent : Word) : State :=
  (s.modDie (dieOfCore core) fun d => { d with pend := d.pend ||| 8 }).health 0x30 0 (dieOfCore core) (unitOf core)
    agent (d64 cls)

/-- One event of a class counted for a thread, and its crossing delivered (R263, R264); a trap that becomes pending in a
thread held ends the hold (R17, R154). -/
def State.countEvent (s : State) (w : Who) (cls : Nat) : State :=
  let core := coreOfSlot w.slot
  let c := s.core core
  let n := c.reg (0x1D0 + cls)
  if n == 0xFFFFFFFF then s
  else
    let th := c.reg (0x808 + cls)
    let s := s.setCore core (c.setRegRaw (0x1D0 + cls) (n + 1))
    if th == 0 || n + 1 != th then s
    else if (c.reg 0x806).getLsbD cls && (s.thread? w).isSome then
      s.modThread w fun t =>
        let t' : Thread := { t with numTraps := t.numTraps ++ [cls] }
        match t.run with
        | .held n => if t.inHandler then t' else { t'.grow (isLatency w.slot) n with run := .ready }
        | _ => t'
    else s.coreInterrupt core cls (s.agentOf w)

def State.countEvents (s : State) (w : Who) (cs : List Nat) : State := each (fun c s => s.countEvent w c) cs s

end Sys2Proof.Machine
end

