-- ==== Sys2Proof/Machine/Ops.lean ====
section
/-! DEFINITION. What every instruction shares: the end of an instruction in a lane (R131, R17, R269), taking an
exception and returning from one (R37, R38, R350, R154), the checks at issue (R97, R26, R122, R34) and the volatility
of q (R88). -/

namespace Sys2Proof.Machine

/-! ## Where a lane goes next -/

/-- The loop test of R131 at the thread's PC.
DEDUCED (unsafe): notes/assumptions/7.md. -/
def Thread.loopNext (t : Thread) : Thread × DWord :=
  let e := t.pc
  let tryLc0 (t : Thread) : Thread × DWord :=
    if t.lc0.count != 0 && t.lc0.stop == e then
      let n := t.lc0.count - 1
      ({ t with lc0 := { t.lc0 with count := n } }, if n != 0 then t.lc0.start else e + 8)
    else (t, e + 8)
  if t.lc1.count != 0 && t.lc1.stop == e then
    let n := t.lc1.count - 1
    let t' := { t with lc1 := { t.lc1 with count := n } }
    if n != 0 then (t', t.lc1.start) else tryLc0 t'
  else tryLc0 t

/-- A signal or a user trap is pending that the thread takes at its next boundary (R154): it ends a hold (R17). -/
def Thread.trapDue (t : Thread) : Bool :=
  t.signal.isSome || (!t.inHandler && (!t.numTraps.isEmpty || t.timer.isSome))

/-- The thread arrives at a PC: held there if it is its meeting value, on a SIMT core (R17, R11), unless what is pending
is taken at that boundary first.
DEDUCED (unsafe): notes/assumptions/77.md. -/
def Thread.arrive (t : Thread) (lat : Bool) (pc : DWord) : Thread :=
  { t with pc := pc, run := if !lat && pc == t.meet && !t.trapDue then .held 0 else .ready }

/-- The thread goes on at its next PC (R131). -/
def Thread.advance (t : Thread) (lat : Bool) : Thread :=
  let (t', pc) := t.loopNext
  t'.arrive lat pc

/-! ## Taking an exception -/

/-- Where a supervisor entry writes the frame (R350): TFRAME if the frame can be written there by the thread, else
SFRAME(t), with FALLBACK. An entry does not wait: at a page in move it precedes the move (R74). -/
def State.entryFrame (s : State) (slot : Nat) (g : Group) (t : Thread) (bytes : Nat → List Byte) : State :=
  let die := dieOfSlot slot
  let sfr := 0x100 + 8 * hwOnDie slot
  let tf := s.tframe die g.asid t
  let fallback : State :=
    match s.writePhys (s.dreg die sfr).toNat (bytes 1) with
    | .ok s => s
    | .error _ => s
  if tf == 0 then fallback
  else match s.writeVaAt false (coreOfSlot slot) g.asid false tf (bytes 0) (lines (frameSize g.footprint)) with
    | .error _ => fallback
    | .ok s' => match s.translate (coreOfSlot slot) g.asid false tf .write with
      | .ok (p, _) => s'.setDreg die sfr (d64 p.pa)
      | .error _ => s'

/-- What is kept beside the frame at a PA, on either L-die.
DEDUCED (unsafe): notes/assumptions/78.md. -/
def State.kept (s : State) (pa : Nat) : Option Group :=
  match lookup pa (s.die 4).switched with
  | some g => some g
  | none => lookup pa (s.die 5).switched

/-- Nothing is kept any more beside the frame at a PA. -/
def State.forgetKept (s : State) (pa : Nat) : State :=
  match s.kept pa with
  | none => s
  | some _ => each (fun d s => s.modDie d fun x => { x with switched := del pa x.switched }) [4, 5] s

/-- Supervisor entry of a latency hardware thread (R350): the user thread's frame with the entry record is written, and
the hardware thread continues at SVEC in its supervisor context, interrupts masked. From supervisor mode no frame is
written again: the record goes into the frame at SFRAME(t), whose thread word [8] and the context's UEPC record the
previous mode and PC (notes/assumptions/9.md). `pc` is the frame's PC, `fpc` the failed access's of a deferred fault.
DESIGN CHOICE (unsafe): notes/assumptions/9.md.
DEDUCED (unsafe): notes/assumptions/48.md.
DEDUCED (unsafe): notes/assumptions/78.md. -/
def State.supervisorEntry (s : State) (slot kind : Nat) (cause : Word) (datum pc fpc : DWord) (deferred : Bool) : State :=
  let die := dieOfSlot slot
  let sup := supSlot slot
  let vec := s.dreg die 0x0B8
  let fl := if deferred then 2 else 0
  let s := if isSup slot then
      let f := (s.dreg die (0x100 + 8 * hwOnDie slot)).toNat
      let r : EntryRec := ⟨kind, cause.toNat, datum, fl, fpc⟩
      let tw := match s.readPhys (f + 92) 4 with
        | .ok bs => leVal bs
        | .error _ => 0
      match s.writePhys (f + 144) r.bytes with
      | .ok s1 => match s1.writePhys (f + 92) (leBytes 4 (if bit tw 8 then tw else tw + 256)) with
        | .ok s2 => s2
        | .error _ => s1
      | .error _ => s
    else match s.group? slot with
      | none => s
      | some g => match lookup 0 g.members with
        | none => s
        | some t =>
          let s := s.entryFrame slot g t fun fb =>
            frameBytes t g.footprint g.asid pc 0 ⟨kind, cause.toNat, datum, fl + fb, fpc⟩
          let pa := (s.dreg die (0x100 + 8 * hwOnDie slot)).toNat
          let s := (s.forgetKept pa).modDie die fun d => { d with switched := put pa g d.switched }
          { s.keepLife g.asid t with groups := del slot s.groups }
  let s := s.modHw slot fun h => { h with sup := true, masked := true }
  s.modGroup sup fun g => { g with members := modify 0 (fun t =>
    { t with pc := vec, run := .ready, uepc := if isSup slot then pc else t.uepc }) g.members }

/-- TAKING A FAULT (R37, R350): on a SIMT core the thread is parked and its record queued; on a latency core it traps
to the operating system. `pc` is the failed instruction's; the thread's own PC stays where it is. -/
def State.takeFault (s : State) (w : Who) (cause : Word) (datum pc : DWord) (deferred : Bool) : State :=
  match s.group? w.slot with
  | none => s
  | some g => match lookup w.lane g.members with
    | none => s
    | some t =>
      if isLatency w.slot then
        s.supervisorEntry w.slot 1 cause datum t.pc (if deferred then pc else 0) deferred
      else
        let s := s.setThread w { t with run := .parked cause datum deferred }
        s.queueFault (dieOfSlot w.slot) (s.recordOf w t g.asid cause pc datum (if deferred then 4 else 0))

/-- TAKING A USER TRAP (R38): into UTV, or a fault with the same cause when UTV is 0 or a handler runs. `epc` is the PC
at which the thread resumes after ERET. -/
def State.takeTrap (s : State) (w : Who) (cause : Nat) (datum epc : DWord) : State :=
  match s.thread? w with
  | none => s
  | some t =>
    if t.utv == 0 || t.inHandler then s.takeFault w (causeWord cause 0) datum t.pc false
    else
      let s1 := s.bump
      s1.setThread w (((({ t with ucause := causeWord cause 0, uepc := epc, udata := datum, inHandler := true } :
        Thread).settled s.turnNo).dropQ s.stamp).arrive (isLatency w.slot) t.utv)

/-- RETURNING FROM A USER TRAP (R147): the flag is cleared and the thread goes on at UEPC, forwarded (R269). -/
def State.returnTrap (s : State) (w : Who) : State :=
  match s.group? w.slot with
  | none => s
  | some g => match lookup w.lane g.members with
    | none => s
    | some t =>
      (s.bump).setThread w (((({ t with inHandler := false } : Thread).settled s.turnNo).dropQ s.stamp).arrive (isLatency w.slot)
        (s.forward (dieOfSlot w.slot) g.asid t.uepc))

/-- RETURNING FROM SUPERVISOR MODE (R350, R402): the hardware thread loads the thread whose frame is at SFRAME(t), with
its address space, and continues in user mode at the frame's PC, forwarded (R269); its fetches read memory (R75), and its
supervisor context's q registers are undefined (R88). A frame with a system call or a signal pending enters supervisor mode at
once, the system call first, which the operating system clears (R303, R351); a signal beside it stays pending in the frame. The
signal's number is the one the thread left with (R352); of a frame that came otherwise it is a free value
(notes/assumptions/3.md). A frame that memory cannot give leaves the hardware thread where it is.
DEDUCED (unsafe): notes/assumptions/78.md.
DEDUCED (unsafe): notes/assumptions/81.md. -/
def State.returnSupervisor (s : State) (slot : Nat) : State :=
  let die := dieOfSlot slot
  let user := userSlot slot
  let pa := (s.dreg die (0x100 + 8 * hwOnDie slot)).toNat
  match s.readPhys pa 384 with
  | .error _ => s
  | .ok hd => match s.readPhys pa (frameSize (w32 (field hd 88 4))) with
  | .error _ => s
  | .ok bs =>
    let fp := w32 (field hd 88 4)
    let asid := field bs 132 4 % 65536
    let k := (s.kept pa).getD Group.fresh
    let r := (lookup 0 k.members).getD Thread.fresh
    let t : Thread := { s.withLife asid (threadOf bs s.stamp) with
      timer := r.timer, numTraps := r.numTraps, deferred := r.deferred, owed := r.owed, pathRem := r.pathRem }
    let sys := t.sysPend
    let sig := t.signal
    let pc := s.forward die asid t.pc
    let t' : Thread := { t with signal := if sys then sig else none }
    let g : Group :=
      { Group.fresh with
        footprint := fp, asid := asid, members := [(0, t'.arrive true pc)], sregs := k.sregs, sLoaded := k.sLoaded,
        sHeld := k.sHeld, gcyc := k.gcyc, tmr := k.tmr, wake := k.wake }
    let leaves := fun (x : Group) => { x with members := modify 0 (fun t => t.dropQ s.stamp) x.members }
    let s := ((s.forgetKept pa).modGroup (supSlot slot) leaves).bump
    let s := s.modHw slot fun h => { h with sup := false, masked := false, loaded := true }
    let s := s.modCore (coreOfSlot slot) fun c => { c with icache := [] }
    let s := s.setGroup user g
    if sys then s.supervisorEntry user 0 0 0 pc 0 false
    else match sig with
      | some n => s.supervisorEntry user 2 (causeWord 0x12 0) (d64 n) pc 0 false
      | none => s

/-! ## The end of an instruction in a lane -/

/-- How an instruction ends in a lane. -/
inductive Fin where
  /-- It completes; the loop test gives the next PC. -/
  | seq
  /-- A taken branch or jump to an address, forwarded. -/
  | jump (t : DWord)
  /-- It takes a fault, with no effect in this lane (R153). -/
  | fault (cause detail : Nat) (datum : DWord)
  /-- It takes a user-class trap that resumes at its next PC (R147). -/
  | trap (cause : Nat) (datum : DWord)
deriving DecidableEq, Repr

/-- What a register instruction does in a lane: 32-bit register writes, guard writes, FPSR flags set, numeric events in
order, a new SRSEED, and its end. -/
structure Out where
  regs   : List (Nat × Word) := []
  guards : List (Nat × Bool) := []
  flags  : Word := 0
  events : List Nat := []
  seed   : Option Word := none
  fin    : Fin := .seq
deriving DecidableEq, Repr

/-- A 64-bit result as two register writes; index 0 is discarded. -/
def pairOut (d : Nat) (v : DWord) : List (Nat × Word) :=
  if d == 0 then [] else [(d, v.setWidth 32), (d + 1, (v >>> 32).setWidth 32)]
/-- A result of one register or a pair. -/
def wideOut (wide : Bool) (d : Nat) (v : DWord) : List (Nat × Word) :=
  if wide then pairOut d v else [(d, v.setWidth 32)]

/-- The register writes of a result; a register written is no load's result any more (R88). -/
def Thread.write (t : Thread) (ws : List (Nat × Word)) : Thread :=
  let t' := each (fun w t => t.setReg w.1 w.2) ws t
  { t' with loaded := t'.loaded.filter fun r => !ws.any fun w => w.1 == r }
def Thread.writeGuards (t : Thread) (gs : List (Nat × Bool)) : Thread :=
  let t' := each (fun w t => t.setGuard w.1 w.2) gs t
  { t' with loaded := t'.loaded.filter fun r => !gs.any fun w => 1024 + w.1 == r }
/-- A register that a load-class instruction wrote (R88). -/
def Thread.mark (t : Thread) (rs : List Nat) : Thread :=
  { t with loaded := t.loaded.filter (fun r => !rs.contains r) ++ rs }

/-- The writes of an Out. -/
def Thread.effect (t : Thread) (o : Out) : Thread :=
  let t := (t.write o.regs).writeGuards o.guards
  { t with fpsr := t.fpsr ||| o.flags, srseed := o.seed.getD t.srseed }

/-- An instruction's end in a lane. -/
def State.finish (s : State) (w : Who) (asid : Nat) (t : Thread) : Fin → State
  | .seq => s.setThread w (t.advance (isLatency w.slot))
  | .jump a => s.setThread w (t.arrive (isLatency w.slot) (s.forward (dieOfSlot w.slot) asid a))
  | .fault c d x => s.takeFault w (causeWord c d) x t.pc false
  | .trap c x =>
    let (t', pc) := t.loopNext
    if t.utv == 0 || t.inHandler then s.takeFault w (causeWord c 0) x t.pc false
    else (s.setThread w t').takeTrap w c x pc

/-- One lane of a register instruction. -/
def State.lane (s : State) (w : Who) (asid : Nat) (t : Thread) (o : Out) : State :=
  match o.fin with
  | .fault c d x => s.finish w asid t (.fault c d x)
  | fin => (s.finish w asid (t.effect o) fin).countEvents w o.events

/-! ## Issue -/

/-- A register named lies beyond the footprint (R26, R86). -/
def Use.beyond (footprint : Word) (u : Use) : Bool :=
  match u.file with
  | .v => u.idx < 0x1E0 && fpNV footprint < u.idx + u.n - 1
  | .s => fpNS footprint < u.idx + u.n - 1
  | .g => false

/-- An instruction names a register or tile beyond the footprint. -/
def Form.beyond (f : Form) (footprint : Word) : Bool :=
  (f.src ++ f.dst).any (fun u => u.beyond footprint) || f.tiles.any fun t => fpAcc footprint ≤ t

/-- The CSR an instruction names and whether it writes it (R105). -/
def csrUse : Instr → Option (Nat × Bool)
  | .csrr f => some (f.csr.toNat, false)
  | .csrw f | .csrset f | .csrclr f => some (f.csr.toNat, true)
  | _ => none

/-- A multicast copy, which a latency core refuses (R245).
DEDUCED (unsafe): notes/assumptions/35.md. -/
def multicast : Instr → Bool
  | .tcpy f | .tgath f => f.p.toNat / 64 != 0
  | _ => false

/-- The decode checks that depend on the thread: R245's multicast, then 4 and 5 of R97, then R122 (R153).
DEDUCED (unsafe): notes/assumptions/35.md. -/
def gate (i : Instr) (f : Form) (sup lat : Bool) (footprint : Word) : Option (Nat × Nat) :=
  if lat && multicast i then some (1, 1)
  else if (f.priv && !sup) || (match csrUse i with | some (c, w) => csrDenied sup c w | none => false) then some (1, 5)
  else if f.beyond footprint then some (1, 4)
  else if f.absent && lat then some (0x0A, 0)
  else none

/-- The number of a register in marks and outstanding requests: v index, 512 + s, 1024 + guard. -/
def regNo (f : File) (i : Nat) : Nat :=
  match f with
  | .v => i
  | .s => 512 + i
  | .g => 1024 + i

def Use.nos (u : Use) : List Nat := (List.range u.n).map fun i => regNo u.file (u.idx + i)

/-- The registers a request in flight will write (R34): those of its lane, or the group's for SLD. -/
def Req.writes (r : Req) : List Nat :=
  match r.op with
  | .load n _ lanes => if r.reg == 0 then [] else if !lanes.isEmpty then [512 + r.reg]
      else (List.range (max 1 (n / 4))).map fun i => r.reg + i
  | .atomic _ n _ _ _ _ => if r.reg == 0 then [] else (List.range (max 1 (n / 4))).map fun i => r.reg + i
  | .stand _ g => if g == 0 then [] else [1024 + g]
  | _ => []

/-- A subset's instruction names a register whose producer is outstanding (R34). -/
def State.outstanding (s : State) (slot : Nat) (lanes : List Nat) (f : Form) : Bool :=
  if s.reqs.isEmpty then false
  else
    let regs := (f.src ++ f.dst).flatMap Use.nos
    s.reqs.any fun r => r.who.slot == slot && (lanes.contains r.who.lane || r.writes.any (512 ≤ ·) ) &&
      r.writes.any fun x => regs.contains x

/-- The lanes whose q registers the instruction makes undefined: a source was last written by a load (R88). -/
def volatileLanes (g : Group) (gd : Guard) (lanes : List Nat) (f : Form) : List Nat :=
  let regs := f.src.flatMap Use.nos
  lanes.filter fun l => match lookup l g.members with
    | some t => t.guardHolds gd && regs.any fun r => t.loaded.contains r || (g.sLoaded.contains r)
    | none => false

/-- q becomes undefined in some lanes of a group (R88). -/
def State.dropQs (s : State) (slot : Nat) (lanes : List Nat) : State :=
  if lanes.isEmpty then s
  else (each (fun l s' => s'.modThread ⟨slot, l⟩ fun t => t.dropQ s.stamp) lanes s).bump

/-- The same cause in each of some lanes, in increasing order (R97, R26, R14). -/
def State.faultLanes (s : State) (slot : Nat) (lanes : List Nat) (cause detail : Nat) (datum pc : DWord) : State :=
  each (fun l s => s.takeFault ⟨slot, l⟩ (causeWord cause detail) datum pc false) lanes s

/-- What a meaning is given: the issuer, its group at issue, and the lanes of Active(G). -/
structure Ctx where
  u     : Issuer
  g     : Group
  lanes : List Nat
deriving DecidableEq, Repr

def Ctx.lat (c : Ctx) : Bool := isLatency c.u.slot
def Ctx.core (c : Ctx) : Nat := coreOfSlot c.u.slot
def Ctx.die (c : Ctx) : Nat := dieOfSlot c.u.slot
def Ctx.asid (c : Ctx) : Nat := c.g.asid
def Ctx.who (c : Ctx) (l : Nat) : Who := ⟨c.u.slot, l⟩

/-- The outcome of issuing an instruction: no issuer stops; the checks of R97 that depend on the thread, R26 and R122
fault every issuing lane; an outstanding source leaves it at issue (R34); else its body runs after the q rule (R88). -/
def issue (i : Instr) (s : State) (body : Ctx → State → State) : Host.Outcome State Fault Refusal :=
  match s.issuer with
  | none => .fault .noIssuer
  | some u => match s.group? u.slot with
    | none => .fault .noIssuer
    | some g =>
      let lanes := g.activeAt u.pc
      let f := formOf ⟨u.g, 0, i⟩
      match gate i f u.sup (isLatency u.slot) g.footprint with
      | some (c, d) => .next (s.faultLanes u.slot lanes c d u.word u.pc)
      | none =>
        if s.outstanding u.slot lanes f then .next s
        else
          let s1 := s.dropQs u.slot (volatileLanes g u.g lanes f)
          .next (body ⟨u, (s1.group? u.slot).getD g, lanes⟩ s1)

/-- The body of an instruction that works lane by lane on the thread's own state; lanes whose guard is false complete
without effect (R6, R131). -/
def eachLane (f : Ctx → Nat → Thread → State → State) (c : Ctx) (s : State) : State :=
  each (fun l s => match s.thread? (c.who l) with
    | some t => if t.guardHolds c.u.g then f c l t s else s.setThread (c.who l) (t.advance c.lat)
    | none => s) c.lanes s

/-- A register instruction: each lane's Out from the lane's thread and the group as they stood at issue (R5). -/
def regInstr (i : Instr) (s : State) (f : Ctx → Nat → Thread → Out) : Host.Outcome State Fault Refusal :=
  issue i s (eachLane fun c l t s => s.lane (c.who l) c.asid t (f c l t))

end Sys2Proof.Machine
end

