-- ==== Sys2Proof/Machine/Operands.lean ====
section
/-! DEFINITION. Operand forms: how a lane reads the sources of each format (R85 to R87, R98 to R105, R164), and the
pieces that families of register instructions share. -/

namespace Sys2Proof.Machine

/-- A 32-bit source: bits [31:0] of an s-register where its s-flag is set (R87). -/
def src32 (g : Group) (t : Thread) (sf : Bool) (i : BitVec 9) : Word :=
  if sf then (g.sreg i.toNat).setWidth 32 else t.reg i.toNat
/-- A pair source: all of an s-register where its s-flag is set (R87).
DEDUCED (unsafe): notes/assumptions/29.md. -/
def src64 (g : Group) (t : Thread) (sf : Bool) (i : BitVec 9) : DWord :=
  if sf then g.sreg i.toNat else t.pair i.toNat
/-- A source of a W operation as 64 bits: a 32-bit one zero-extended. -/
def srcW (wide : Bool) (g : Group) (t : Thread) (sf : Bool) (i : BitVec 9) : DWord :=
  if wide then src64 g t sf i else (src32 g t sf i).setWidth 64

def FmtA_wide (f : FmtA) : Bool := f.var.getLsbD 0

/-- A two-source register instruction at 32 bits, or on pairs at 64 (R156). -/
def binOut (f : FmtA) (op32 : Word → Word → Word) (op64 : DWord → DWord → DWord) (c : Ctx) (t : Thread) : Out :=
  if FmtA_wide f then { regs := pairOut f.d.toNat (op64 (src64 c.g t f.sA f.a) (src64 c.g t f.sB f.b)) }
  else { regs := [(f.d.toNat, op32 (src32 c.g t f.sA f.a) (src32 c.g t f.sB f.b))] }
/-- A one-source register instruction (R156). -/
def unOut (f : FmtA) (op32 : Word → Word) (op64 : DWord → DWord) (c : Ctx) (t : Thread) : Out :=
  if FmtA_wide f then { regs := pairOut f.d.toNat (op64 (src64 c.g t f.sA f.a)) }
  else { regs := [(f.d.toNat, op32 (src32 c.g t f.sA f.a))] }
/-- A three-source register instruction. -/
def triOut (f : FmtA) (op32 : Word → Word → Word → Word) (op64 : DWord → DWord → DWord → DWord) (c : Ctx)
    (t : Thread) : Out :=
  if FmtA_wide f then
    { regs := pairOut f.d.toNat (op64 (src64 c.g t f.sA f.a) (src64 c.g t f.sB f.b) (src64 c.g t f.sC f.c)) }
  else { regs := [(f.d.toNat, op32 (src32 c.g t f.sA f.a) (src32 c.g t f.sB f.b) (src32 c.g t f.sC f.c))] }
/-- A 32-bit instruction of format I with one register source (R162). -/
def immOut (f : FmtI) (op : Word → Word → Word) (t : Thread) : Out :=
  { regs := [(f.d.toNat, op (t.reg f.a.toNat) f.imm)] }
/-- A 64-bit instruction of format I on pairs (R164). -/
def immOut64 (f : FmtI) (op : DWord → Word → DWord) (t : Thread) : Out :=
  { regs := pairOut f.d.toNat (op (t.pair f.a.toNat) f.imm) }

/-- The base of formats M and N: an s-register or a pair (R101). -/
def baseOf (g : Group) (t : Thread) (ub : Bool) (ba : BitVec 9) : DWord := src64 g t ub ba

/-- `n` bytes of the registers from T, in order; index 0 is the literal zero (R101, R196). -/
def regBytes (t : Thread) (i n : Nat) : List Byte :=
  if i == 0 then leBytes n 0
  else if n ≤ 4 then leBytes n (t.reg i).toNat
  else (List.range (n / 4)).flatMap fun k => leBytes 4 (t.reg (i + k)).toNat

/-- The register writes of `n` loaded bytes (R196). -/
def loadWrites (i n : Nat) (sext : Bool) (bs : List Byte) : List (Nat × Word) :=
  if i == 0 then []
  else if n ≤ 4 then
    let v := leVal bs
    [(i, if sext && n < 4 && bit v (8 * n - 1) then w32 (v + 2 ^ 32 - 2 ^ (8 * n)) else w32 v)]
  else (List.range (n / 4)).map fun k => (i + k, w32 (field bs (4 * k) 4))

/-- The registers an `n`-byte result names. -/
def regSpan (i n : Nat) : List Nat := if i == 0 then [] else (List.range (max 1 (n / 4))).map fun k => i + k

end Sys2Proof.Machine
end

