-- ==== Sys2Proof/Machine/Flags.lean ====
section
/-! DEFINITION. The FPSR flags and the numeric event classes they count as (R95, R261, R262). -/

namespace Sys2Proof.Machine

/-- The flags an operation sets. -/
structure Flags where
  nv : Bool := false
  dz : Bool := false
  of : Bool := false
  uf : Bool := false
  nx : Bool := false
  ns : Bool := false
  bc : Bool := false
deriving DecidableEq, Repr

def Flags.or (a b : Flags) : Flags :=
  ⟨a.nv || b.nv, a.dz || b.dz, a.of || b.of, a.uf || b.uf, a.nx || b.nx, a.ns || b.ns, a.bc || b.bc⟩

def b2n (b : Bool) (n : Nat) : Nat := if b then n else 0

/-- The FPSR bits (R95). -/
def Flags.bits (f : Flags) : Word :=
  w32 (b2n f.nv 1 + b2n f.dz 2 + b2n f.of 4 + b2n f.uf 8 + b2n f.nx 16 + b2n f.ns 32 + b2n f.bc 64)

/-- The classes counted, one event each: overflow 0, underflow or flush 1, invalid 2, narrowing saturation 3, block
clip 4, divide by zero 5; inexact has none (R261). -/
def Flags.classes (f : Flags) : List Nat :=
  (if f.of then [0] else []) ++ (if f.uf then [1] else []) ++ (if f.nv then [2] else []) ++
  (if f.ns then [3] else []) ++ (if f.bc then [4] else []) ++ (if f.dz then [5] else [])

/-- An Out with its flags and the events they count. -/
def Out.flagged (o : Out) (f : Flags) : Out := { o with flags := f.bits, events := f.classes }

end Sys2Proof.Machine
end

