-- ==== Sys2Proof/Machine/Fp.lean ====
section
/-! DEFINITION. Real arithmetic on the binary formats of R247 and R248: decoding to an exact value, one rounding of an
exact value into a format (R251), and the operations of IEEE 754 as R176 fixes them. Magnitudes are exact: a natural
number times a power of two, with a sticky mark for what lies strictly between two such numbers. -/

namespace Sys2Proof.Machine

/-- A binary format: exponent width, fraction width. -/
structure FpFmt where
  ew : Nat
  fw : Nat
deriving DecidableEq, Repr

def f16 : FpFmt := ⟨5, 10⟩
def b16 : FpFmt := ⟨8, 7⟩
def f32 : FpFmt := ⟨8, 23⟩
def f64 : FpFmt := ⟨11, 52⟩
/-- The accumulator format (R254). -/
def fAcc : FpFmt := ⟨10, 31⟩
def fE4M3 : FpFmt := ⟨4, 3⟩
def fE5M2 : FpFmt := ⟨5, 2⟩

def FpFmt.bias (f : FpFmt) : Int := 2 ^ (f.ew - 1) - 1
/-- The exponent of the last place of a subnormal. -/
def FpFmt.emin (f : FpFmt) : Int := 1 - f.bias - f.fw
def FpFmt.infBits (f : FpFmt) : Nat := (2 ^ f.ew - 1) * 2 ^ f.fw
def FpFmt.signBit (f : FpFmt) : Nat := 2 ^ (f.ew + f.fw)
/-- The canonical NaN (R247). -/
def FpFmt.nan (f : FpFmt) : Nat := f.infBits + 2 ^ (f.fw - 1)
def FpFmt.maxBits (f : FpFmt) : Nat := f.infBits - 1
def FpFmt.signed (f : FpFmt) (neg : Bool) (mag : Nat) : Nat := if neg then f.signBit + mag else mag

/-- A decoded value: a NaN, an infinity, or (−1)^neg × m × 2^e. -/
inductive Num where
  | nan (signalling : Bool)
  | inf (neg : Bool)
  | fin (neg : Bool) (m : Nat) (e : Int)
deriving DecidableEq, Repr

/-- Decoding (R247). -/
def FpFmt.decode (f : FpFmt) (x : Nat) : Num :=
  let neg := f.signBit ≤ x % (2 * f.signBit)
  let mag := x % f.signBit
  let e := mag / 2 ^ f.fw
  let fr := mag % 2 ^ f.fw
  if e == 2 ^ f.ew - 1 then
    if fr == 0 then .inf neg else .nan (fr < 2 ^ (f.fw - 1))
  else if e == 0 then .fin neg fr f.emin
  else .fin neg (2 ^ f.fw + fr) (f.emin + (e - 1 : Nat))

/-- A subnormal encoding. -/
def FpFmt.subnormal (f : FpFmt) (x : Nat) : Bool :=
  let mag := x % f.signBit
  mag != 0 && mag < 2 ^ f.fw

def Num.neg? : Num → Bool
  | .nan _ => false
  | .inf n => n
  | .fin n _ _ => n
def Num.isNan : Num → Bool
  | .nan _ => true
  | _ => false
def Num.isSnan : Num → Bool
  | .nan s => s
  | _ => false
def Num.isInf : Num → Bool
  | .inf _ => true
  | _ => false
def Num.isZero : Num → Bool
  | .fin _ m _ => m == 0
  | _ => false
def Num.negate : Num → Num
  | .nan s => .nan s
  | .inf n => .inf !n
  | .fin n m e => .fin (!n) m e

/-- The rounding modes (R251). -/
inductive RMode where
  | rne
  | rtz
  | rdn
  | rup
deriving DecidableEq, Repr

def rmodeOf : Nat → RMode
  | 0 => .rne
  | 1 => .rtz
  | 2 => .rdn
  | _ => .rup

/-- The mode of M[2:0] (R119): 0 is FPCR.RM. -/
def roundMode (m : BitVec 3) (fpcr : Word) : RMode :=
  if m == 0 then rmodeOf (fpcr.toNat % 4) else rmodeOf (m.toNat - 1)
/-- FPCR.FTZ (R94). -/
def ftzOf (fpcr : Word) : Bool := fpcr.getLsbD 2

/-- A magnitude m × 2^e (and a little more if sticky) rounded to a multiple of 2^q: the multiple, and inexact. -/
def roundMag (mode : RMode) (neg : Bool) (m : Nat) (e : Int) (sticky : Bool) (q : Int) : Nat × Bool :=
  if q ≤ e then
    let n := m * 2 ^ (e - q).toNat
    (if sticky && ((mode == .rup && !neg) || (mode == .rdn && neg)) then n + 1 else n, sticky)
  else
    let k := (q - e).toNat
    let n := m / 2 ^ k
    let r := m % 2 ^ k
    let inex := r != 0 || sticky
    let half := 2 ^ (k - 1)
    let up := match mode with
      | .rne => half < r || (r == half && (sticky || n % 2 == 1))
      | .rtz => false
      | .rdn => neg && inex
      | .rup => !neg && inex
    (if up then n + 1 else n, inex)

/-- The exponent of a magnitude's leading bit. -/
def topOf (m : Nat) (e : Int) : Int := e + m.log2

/-- The IEEE overflow result of a mode (R251), as a magnitude. -/
def FpFmt.overflow (f : FpFmt) (mode : RMode) (neg : Bool) : Nat :=
  match mode with
  | .rne => f.infBits
  | .rtz => f.maxBits
  | .rdn => if neg then f.infBits else f.maxBits
  | .rup => if neg then f.maxBits else f.infBits

/-- An exact nonzero magnitude rounded once into a format (R251), with underflow detected after rounding and the flush
of subnormal results (R176). -/
def FpFmt.round (f : FpFmt) (mode : RMode) (ftz neg : Bool) (m : Nat) (e : Int) (sticky : Bool) : Nat × Flags :=
  if m == 0 && !sticky then (f.signed neg 0, {})
  else
    let top := topOf m e
    let q := if top - f.fw < f.emin then f.emin else top - f.fw
    let (n, inex) := roundMag mode neg m e sticky q
    let bits := (q - f.emin).toNat * 2 ^ f.fw + n
    if f.infBits ≤ bits then (f.signed neg (f.overflow mode neg), { of := true, nx := true })
    else
      let (n', _) := roundMag mode neg m e sticky (top - f.fw)
      let tiny := top < f.emin + f.fw && !(n' == 2 ^ (f.fw + 1) && top + 1 == f.emin + f.fw)
      if ftz && bits != 0 && bits < 2 ^ f.fw then (f.signed neg 0, { uf := true, nx := true })
      else (f.signed neg bits, { uf := tiny && inex, nx := inex })

/-- The exact zero sum's sign (R251). -/
def zeroSum (mode : RMode) (na nb : Bool) : Bool := if na == nb then na else mode == .rdn

/-- The exact sum of two finite values: sign, magnitude and exponent. -/
def sumFin (mode : RMode) (na : Bool) (ma : Nat) (ea : Int) (nb : Bool) (mb : Nat) (eb : Int) : Bool × Nat × Int :=
  let e := if ea ≤ eb then ea else eb
  let a : Int := (ma * 2 ^ (ea - e).toNat : Nat)
  let b : Int := (mb * 2 ^ (eb - e).toNat : Nat)
  let x := (if na then -a else a) + (if nb then -b else b)
  if x == 0 then (zeroSum mode na nb, 0, e) else (x < 0, x.natAbs, e)

/-- An input flushed under FTZ (R176), and whether it was. -/
def FpFmt.flush (f : FpFmt) (ftz : Bool) (x : Nat) : Nat × Bool :=
  if ftz && f.subnormal x then (x / f.signBit % 2 * f.signBit, true) else (x, false)

/-- The flags of reading inputs: NV for a signalling NaN, UF for a flush. -/
def inFlags (xs : List Num) (flushed : List Bool) : Flags := { nv := xs.any Num.isSnan, uf := flushed.any (·) }

/-- a + b on decoded values. -/
def FpFmt.addNum (f : FpFmt) (mode : RMode) (ftz : Bool) (a b : Num) : Nat × Flags :=
  match a, b with
  | .nan _, _ => (f.nan, {})
  | _, .nan _ => (f.nan, {})
  | .inf x, .inf y => if x == y then (f.signed x f.infBits, {}) else (f.nan, { nv := true })
  | .inf x, _ => (f.signed x f.infBits, {})
  | _, .inf y => (f.signed y f.infBits, {})
  | .fin na ma ea, .fin nb mb eb =>
    let (n, m, e) := sumFin mode na ma ea nb mb eb
    f.round mode ftz n m e false

/-- The exact product: none for ∞ × 0. -/
def mulNum (a b : Num) : Option Num :=
  match a, b with
  | .nan _, _ => some (.nan false)
  | _, .nan _ => some (.nan false)
  | .inf x, y => if y.isZero then none else some (.inf (x != y.neg?))
  | x, .inf y => if x.isZero then none else some (.inf (x.neg? != y))
  | .fin na ma ea, .fin nb mb eb => some (.fin (na != nb) (ma * mb) (ea + eb))

def FpFmt.roundNum (f : FpFmt) (mode : RMode) (ftz : Bool) : Num → Nat × Flags
  | .nan _ => (f.nan, {})
  | .inf n => (f.signed n f.infBits, {})
  | .fin n m e => f.round mode ftz n m e false

def FpFmt.mulNum (f : FpFmt) (mode : RMode) (ftz : Bool) (a b : Num) : Nat × Flags :=
  match Machine.mulNum a b with
  | none => (f.nan, { nv := true })
  | some p => f.roundNum mode ftz p

/-- a × b + c, rounded once; ∞ × 0 sets NV whatever c holds (R176). -/
def FpFmt.fmaNum (f : FpFmt) (mode : RMode) (ftz : Bool) (a b c : Num) : Nat × Flags :=
  match Machine.mulNum a b with
  | none => (f.nan, { nv := true })
  | some p => f.addNum mode ftz p c

/-- a ÷ b (R178). -/
def FpFmt.divNum (f : FpFmt) (mode : RMode) (ftz : Bool) (a b : Num) : Nat × Flags :=
  let n := a.neg? != b.neg?
  match a, b with
  | .nan _, _ => (f.nan, {})
  | _, .nan _ => (f.nan, {})
  | .inf _, .inf _ => (f.nan, { nv := true })
  | .inf _, _ => (f.signed n f.infBits, {})
  | _, .inf _ => (f.signed n 0, {})
  | .fin _ ma ea, .fin _ mb eb =>
    if mb == 0 then if ma == 0 then (f.nan, { nv := true }) else (f.signed n f.infBits, { dz := true })
    else if ma == 0 then (f.signed n 0, {})
    else
      let k := 2 * f.fw + 8 + mb.log2
      f.round mode ftz n (ma * 2 ^ k / mb) (ea - eb - k) (ma * 2 ^ k % mb != 0)

/-- The integer square root by bits, from bit `i` down. -/
def isqrtFrom (n : Nat) : Nat → Nat → Nat
  | 0, r => r
  | i + 1, r => let r' := r + 2 ^ i; isqrtFrom n i (if r' * r' ≤ n then r' else r)
def isqrt (n : Nat) : Nat := isqrtFrom n (n.log2 / 2 + 1) 0

/-- √a (R178). -/
def FpFmt.sqrtNum (f : FpFmt) (mode : RMode) (ftz : Bool) (a : Num) : Nat × Flags :=
  match a with
  | .nan _ => (f.nan, {})
  | .inf n => if n then (f.nan, { nv := true }) else (f.infBits, {})
  | .fin n m e =>
    if m == 0 then (f.signed n 0, {})
    else if n then (f.nan, { nv := true })
    else
      let k0 := 2 * f.fw + 6
      let k := if (e - k0) % 2 == 0 then k0 else k0 + 1
      let x := m * 2 ^ k
      let r := isqrt x
      f.round mode ftz false r ((e - k) / 2) (r * r != x)

/-- Finite or infinite values compared: a < b, with −0 equal to +0. -/
def ltNum (a b : Num) : Bool :=
  match a, b with
  | .nan _, _ => false
  | _, .nan _ => false
  | .inf x, .inf y => x && !y
  | .inf x, _ => x
  | _, .inf y => !y
  | .fin na ma ea, .fin nb mb eb =>
    let e := if ea ≤ eb then ea else eb
    let a : Int := (ma * 2 ^ (ea - e).toNat : Nat)
    let b : Int := (mb * 2 ^ (eb - e).toNat : Nat)
    (if na then -a else a) < (if nb then -b else b)
def eqNum (a b : Num) : Bool := !a.isNan && !b.isNan && !ltNum a b && !ltNum b a

/-- minimumNumber or maximumNumber on encodings: −0 below +0, a NaN ignored (R178). -/
def FpFmt.minmax (f : FpFmt) (mx : Bool) (x y : Nat) : Nat :=
  let a := f.decode x
  let b := f.decode y
  if a.isNan && b.isNan then f.nan
  else if a.isNan then y
  else if b.isNan then x
  else
    let below := ltNum a b || (eqNum a b && a.neg? && !b.neg?)
    if below != mx then x else y

/-- a rounded to an integral value (R178). -/
def FpFmt.rint (f : FpFmt) (mode : RMode) (x : Nat) : Nat :=
  match f.decode x with
  | .nan _ => f.nan
  | .inf _ => x % (2 * f.signBit)
  | .fin n m e =>
    let (k, _) := roundMag mode n m e false 0
    (f.round mode false n k 0 false).1

end Sys2Proof.Machine
end

