-- ==== Sys2Proof/Machine/Integer.lean ====
section
/-! DEFINITION. The integer and address-pair instructions, majors 0x01 to 0x04 (R155 to R164). -/

namespace Sys2Proof.Machine

/-! ## Word operations -/

def mulhS {w : Nat} (a b : BitVec w) : BitVec w := BitVec.ofInt w ((a.toInt * b.toInt) / 2 ^ w)
def mulhU {w : Nat} (a b : BitVec w) : BitVec w := BitVec.ofNat w (a.toNat * b.toNat / 2 ^ w)
def minS {w : Nat} (a b : BitVec w) : BitVec w := if a.toInt ≤ b.toInt then a else b
def maxS {w : Nat} (a b : BitVec w) : BitVec w := if a.toInt ≤ b.toInt then b else a
def minU {w : Nat} (a b : BitVec w) : BitVec w := if a.toNat ≤ b.toNat then a else b
def maxU {w : Nat} (a b : BitVec w) : BitVec w := if a.toNat ≤ b.toNat then b else a
def absV {w : Nat} (a : BitVec w) : BitVec w := if a.toInt < 0 then -a else a
/-- Shifts and rotates by b mod w (R156). -/
def shlV {w : Nat} (a b : BitVec w) : BitVec w := a <<< (b.toNat % w)
def shrV {w : Nat} (a b : BitVec w) : BitVec w := a >>> (b.toNat % w)
def sarV {w : Nat} (a b : BitVec w) : BitVec w := a.sshiftRight (b.toNat % w)
def rolV {w : Nat} (a b : BitVec w) : BitVec w := a.rotateLeft (b.toNat % w)
def rorV {w : Nat} (a b : BitVec w) : BitVec w := a.rotateRight (b.toNat % w)
def popcV {w : Nat} (a : BitVec w) : BitVec w := BitVec.ofNat w ((List.range w).filter fun i => a.getLsbD i).length
/-- The index of the first bit of a list that is set in `a`, or the length. -/
def firstSet {w : Nat} (a : BitVec w) : List Nat → Nat
  | [] => 0
  | i :: is => if a.getLsbD i then 0 else firstSet a is + 1
def ctzV {w : Nat} (a : BitVec w) : BitVec w := BitVec.ofNat w (firstSet a (List.range w))
def clzV {w : Nat} (a : BitVec w) : BitVec w := BitVec.ofNat w (firstSet a (List.range w).reverse)

/-- The length m of a bit field (R161). -/
def bfLen (w p n : Nat) : Nat := if p < w then min n (w - p) else 0
/-- BFX (R161): p and n are the low 8 bits of b and c. -/
def bfxV {w : Nat} (signed : Bool) (a b c : BitVec w) : BitVec w :=
  let p := b.toNat % 256
  let m := bfLen w p (c.toNat % 256)
  let x := a.toNat / 2 ^ p % 2 ^ m
  if signed && m != 0 && x.testBit (m - 1) then BitVec.ofInt w ((x : Int) - 2 ^ m) else BitVec.ofNat w x
/-- BFI (R161): bits [p+m−1:p] of `old` replaced by the low m bits of a. -/
def bfiV {w : Nat} (old a b c : BitVec w) : BitVec w :=
  let p := b.toNat % 256
  let m := bfLen w p (c.toNat % 256)
  let mask : BitVec w := BitVec.ofNat w ((2 ^ m - 1) * 2 ^ p)
  (old &&& ~~~mask) ||| ((a <<< p) &&& mask)

/-- PRMT (R161). -/
def prmtV (a b c : Word) : Word :=
  let x : DWord := b ++ a
  let byte (i : Nat) : Byte :=
    let k := c.toNat / 16 ^ i % 16
    let y : Byte := (x >>> (8 * (k % 8))).setWidth 8
    if 8 ≤ k then (if y.getLsbD 7 then 0xFF else 0) else y
  byte 3 ++ byte 2 ++ byte 1 ++ byte 0

/-- The widening product (R156, R163). -/
def mulW (signed : Bool) (a b : Word) : DWord :=
  if signed then a.signExtend 64 * b.signExtend 64 else a.setWidth 64 * b.setWidth 64

/-- The exact integer x brought into the n-bit range (R246). -/
def satInt (signed : Bool) (n : Nat) (x : Int) : Int :=
  let lo : Int := if signed then -(2 ^ (n - 1)) else 0
  let hi : Int := if signed then 2 ^ (n - 1) - 1 else 2 ^ n - 1
  if x < lo then lo else if hi < x then hi else x

/-- The low n bits of a word as an integer. -/
def extInt {w : Nat} (signed : Bool) (n : Nat) (a : BitVec w) : Int :=
  let x := a.toNat % 2 ^ n
  if signed && 2 ^ (n - 1) ≤ x then (x : Int) - 2 ^ n else x

/-! ## Lane results -/

def madwOut (f : FmtA) (c : Ctx) (t : Thread) : Out :=
  { regs := pairOut f.d.toNat (mulW (f.var.getLsbD 0) (src32 c.g t f.sA f.a) (src32 c.g t f.sB f.b) +
      src64 c.g t f.sC f.c) }

/-- DIV, DIVU, REM and REMU (R158). -/
def divOut (f : FmtA) (op32 : Word → Word → Word) (op64 : DWord → DWord → DWord) (c : Ctx) (t : Thread) : Out :=
  if srcW (FmtA_wide f) c.g t f.sB f.b == 0 then { fin := .fault 0x10 0 0 } else binOut f op32 op64 c t

/-- ADDSAT and SUBSAT (R159). -/
def satOut (f : FmtA) (op : Int → Int → Int) (c : Ctx) (t : Thread) : Out :=
  let wide := f.var.toNat % 4 == 3
  let m := 8 * 2 ^ (f.var.toNat % 4)
  let sg := f.var.getLsbD 2
  let a := extInt sg m (srcW wide c.g t f.sA f.a)
  let b := extInt sg m (srcW wide c.g t f.sB f.b)
  { regs := wideOut wide f.d.toNat (BitVec.ofInt 64 (satInt sg m (op a b))) }

/-- ADDX (R160). -/
def addxOut (f : FmtA) (c : Ctx) (t : Thread) : Out :=
  let wide := FmtA_wide f
  let k := f.c.toNat
  let cin := if f.c.getLsbD 3 then 0 else b2n01 (t.guard (k % 8))
  let sum := (srcW wide c.g t f.sA f.a).toNat + (srcW wide c.g t f.sB f.b).toNat + cin
  { regs := wideOut wide f.d.toNat (d64 sum), guards := [(k / 16 % 8, 2 ^ (if wide then 64 else 32) ≤ sum)] }
where
  b2n01 (b : Bool) : Nat := if b then 1 else 0

def bfiOut (f : FmtA) (c : Ctx) (t : Thread) : Out :=
  if FmtA_wide f then
    { regs := pairOut f.d.toNat (bfiV (t.pair f.d.toNat) (src64 c.g t f.sA f.a) (src64 c.g t f.sB f.b)
        (src64 c.g t f.sC f.c)) }
  else
    { regs := [(f.d.toNat, bfiV (t.reg f.d.toNat) (src32 c.g t f.sA f.a) (src32 c.g t f.sB f.b)
        (src32 c.g t f.sC f.c))] }

/-- DP4 and DP2 (R159): `n` products of `w`-bit parts. -/
def dotOut (f : FmtA) (n w : Nat) (c : Ctx) (t : Thread) : Out :=
  let sa := f.var.getLsbD 0
  let sb := f.var.getLsbD 1
  let sg := sa || sb
  let a := src32 c.g t f.sA f.a
  let b := src32 c.g t f.sB f.b
  let k := src32 c.g t f.sC f.c
  let sum := (List.range n).foldl (fun x i => x + extInt sa w (a >>> (w * i)) * extInt sb w (b >>> (w * i)))
    (extInt sg 32 k)
  { regs := [(f.d.toNat, BitVec.ofInt 32 (if f.var.getLsbD 2 then satInt sg 32 sum else sum))] }

/-- ext(b) of ADDD, SUBD and LEAD (R163): variant 0 zero-extends, 1 sign-extends, 2 is a pair. -/
def extB (f : FmtA) (c : Ctx) (t : Thread) : DWord :=
  match f.var.toNat with
  | 0 => (src32 c.g t f.sB f.b).setWidth 64
  | 1 => (src32 c.g t f.sB f.b).signExtend 64
  | _ => src64 c.g t f.sB f.b

/-! ## The instructions -/

/-- ADD (R156): a + b. -/
def execAdd (f : FmtA) (s : State) : Host.Outcome State Fault Refusal :=
  regInstr (.add f) s fun c _ t => binOut f (· + ·) (· + ·) c t

/-- SUB (R156): a − b. -/
def execSub (f : FmtA) (s : State) : Host.Outcome State Fault Refusal :=
  regInstr (.sub f) s fun c _ t => binOut f (· - ·) (· - ·) c t

/-- MUL (R156): the low w bits of a × b. -/
def execMul (f : FmtA) (s : State) : Host.Outcome State Fault Refusal :=
  regInstr (.mul f) s fun c _ t => binOut f (· * ·) (· * ·) c t

/-- MULH (R156): the high w bits of the signed product. -/
def execMulh (f : FmtA) (s : State) : Host.Outcome State Fault Refusal :=
  regInstr (.mulh f) s fun c _ t => binOut f mulhS mulhS c t

/-- MULHU (R156): the high w bits of the natural product. -/
def execMulhu (f : FmtA) (s : State) : Host.Outcome State Fault Refusal :=
  regInstr (.mulhu f) s fun c _ t => binOut f mulhU mulhU c t

/-- MAD (R156): a × b + c. -/
def execMad (f : FmtA) (s : State) : Host.Outcome State Fault Refusal :=
  regInstr (.mad f) s fun c _ t => triOut f (fun a b k => a * b + k) (fun a b k => a * b + k) c t

/-- MADW (R156): ext(a) × ext(b) + c at 64 bits; variant 1 is signed. -/
def execMadw (f : FmtA) (s : State) : Host.Outcome State Fault Refusal :=
  regInstr (.madw f) s fun c _ t => madwOut f c t

/-- DIV (R158): the signed quotient truncated toward zero; a zero divisor takes cause 0x10. -/
def execDiv (f : FmtA) (s : State) : Host.Outcome State Fault Refusal :=
  regInstr (.div f) s fun c _ t => divOut f BitVec.sdiv BitVec.sdiv c t

/-- DIVU (R158): the natural quotient; a zero divisor takes cause 0x10. -/
def execDivu (f : FmtA) (s : State) : Host.Outcome State Fault Refusal :=
  regInstr (.divu f) s fun c _ t => divOut f BitVec.udiv BitVec.udiv c t

/-- REM (R158): the remainder with the sign of a; a zero divisor takes cause 0x10. -/
def execRem (f : FmtA) (s : State) : Host.Outcome State Fault Refusal :=
  regInstr (.rem f) s fun c _ t => divOut f BitVec.srem BitVec.srem c t

/-- REMU (R158): the natural remainder; a zero divisor takes cause 0x10. -/
def execRemu (f : FmtA) (s : State) : Host.Outcome State Fault Refusal :=
  regInstr (.remu f) s fun c _ t => divOut f BitVec.umod BitVec.umod c t

/-- MIN (R156): the lesser, compared signed. -/
def execMin (f : FmtA) (s : State) : Host.Outcome State Fault Refusal :=
  regInstr (.min f) s fun c _ t => binOut f minS minS c t

/-- MAX (R156): the greater, compared signed. -/
def execMax (f : FmtA) (s : State) : Host.Outcome State Fault Refusal :=
  regInstr (.max f) s fun c _ t => binOut f maxS maxS c t

/-- MINU (R156): the lesser, compared natural. -/
def execMinu (f : FmtA) (s : State) : Host.Outcome State Fault Refusal :=
  regInstr (.minu f) s fun c _ t => binOut f minU minU c t

/-- MAXU (R156): the greater, compared natural. -/
def execMaxu (f : FmtA) (s : State) : Host.Outcome State Fault Refusal :=
  regInstr (.maxu f) s fun c _ t => binOut f maxU maxU c t

/-- ABS (R156): |a|; the most negative value maps to itself. -/
def execAbs (f : FmtA) (s : State) : Host.Outcome State Fault Refusal :=
  regInstr (.abs f) s fun c _ t => unOut f absV absV c t

/-- NEG (R156): −a. -/
def execNeg (f : FmtA) (s : State) : Host.Outcome State Fault Refusal :=
  regInstr (.neg f) s fun c _ t => unOut f (fun a => -a) (fun a => -a) c t

/-- ADDSAT (R159): the exact sum clamped at width 8, 16, 32 or 64. -/
def execAddsat (f : FmtA) (s : State) : Host.Outcome State Fault Refusal :=
  regInstr (.addsat f) s fun c _ t => satOut f (· + ·) c t

/-- SUBSAT (R159): the exact difference clamped. -/
def execSubsat (f : FmtA) (s : State) : Host.Outcome State Fault Refusal :=
  regInstr (.subsat f) s fun c _ t => satOut f (· - ·) c t

/-- ADDX (R160): a + b + cin, with the carry in gE. -/
def execAddx (f : FmtA) (s : State) : Host.Outcome State Fault Refusal :=
  regInstr (.addx f) s fun c _ t => addxOut f c t

/-- AND (R156). -/
def execAnd (f : FmtA) (s : State) : Host.Outcome State Fault Refusal :=
  regInstr (.and f) s fun c _ t => binOut f (· &&& ·) (· &&& ·) c t

/-- OR (R156). -/
def execOr (f : FmtA) (s : State) : Host.Outcome State Fault Refusal :=
  regInstr (.or f) s fun c _ t => binOut f (· ||| ·) (· ||| ·) c t

/-- XOR (R156). -/
def execXor (f : FmtA) (s : State) : Host.Outcome State Fault Refusal :=
  regInstr (.xor f) s fun c _ t => binOut f (· ^^^ ·) (· ^^^ ·) c t

/-- ANDN (R156): a & ~b. -/
def execAndn (f : FmtA) (s : State) : Host.Outcome State Fault Refusal :=
  regInstr (.andn f) s fun c _ t => binOut f (fun a b => a &&& ~~~b) (fun a b => a &&& ~~~b) c t

/-- NOT (R156): ~a. -/
def execNot (f : FmtA) (s : State) : Host.Outcome State Fault Refusal :=
  regInstr (.not f) s fun c _ t => unOut f (fun a => ~~~a) (fun a => ~~~a) c t

/-- SHL (R156): a shifted left by b mod w. -/
def execShl (f : FmtA) (s : State) : Host.Outcome State Fault Refusal :=
  regInstr (.shl f) s fun c _ t => binOut f shlV shlV c t

/-- SHR (R156): a shifted right by b mod w. -/
def execShr (f : FmtA) (s : State) : Host.Outcome State Fault Refusal :=
  regInstr (.shr f) s fun c _ t => binOut f shrV shrV c t

/-- SAR (R156): a shifted right by b mod w, arithmetic. -/
def execSar (f : FmtA) (s : State) : Host.Outcome State Fault Refusal :=
  regInstr (.sar f) s fun c _ t => binOut f sarV sarV c t

/-- ROL (R156): a rotated left by b mod w. -/
def execRol (f : FmtA) (s : State) : Host.Outcome State Fault Refusal :=
  regInstr (.rol f) s fun c _ t => binOut f rolV rolV c t

/-- ROR (R156): a rotated right by b mod w. -/
def execRor (f : FmtA) (s : State) : Host.Outcome State Fault Refusal :=
  regInstr (.ror f) s fun c _ t => binOut f rorV rorV c t

/-- BFX (R161): a bit field, zero- or sign-extended by variant [1]. -/
def execBfx (f : FmtA) (s : State) : Host.Outcome State Fault Refusal :=
  regInstr (.bfx f) s fun c _ t => triOut f (bfxV (f.var.getLsbD 1)) (bfxV (f.var.getLsbD 1)) c t

/-- BFI (R161): a bit field of the old D replaced. -/
def execBfi (f : FmtA) (s : State) : Host.Outcome State Fault Refusal :=
  regInstr (.bfi f) s fun c _ t => bfiOut f c t

/-- POPC (R156): the set bits. -/
def execPopc (f : FmtA) (s : State) : Host.Outcome State Fault Refusal :=
  regInstr (.popc f) s fun c _ t => unOut f popcV popcV c t

/-- CLZ (R156): leading zeros; of 0, w. -/
def execClz (f : FmtA) (s : State) : Host.Outcome State Fault Refusal :=
  regInstr (.clz f) s fun c _ t => unOut f clzV clzV c t

/-- CTZ (R156): trailing zeros; of 0, w. -/
def execCtz (f : FmtA) (s : State) : Host.Outcome State Fault Refusal :=
  regInstr (.ctz f) s fun c _ t => unOut f ctzV ctzV c t

/-- BREV (R156): bit i moves to bit w − 1 − i. -/
def execBrev (f : FmtA) (s : State) : Host.Outcome State Fault Refusal :=
  regInstr (.brev f) s fun c _ t => unOut f BitVec.reverse BitVec.reverse c t

/-- PRMT (R161): four bytes chosen from a and b. -/
def execPrmt (f : FmtA) (s : State) : Host.Outcome State Fault Refusal :=
  regInstr (.prmt f) s fun c _ t => { regs := [(f.d.toNat, prmtV (src32 c.g t f.sA f.a) (src32 c.g t f.sB f.b) (src32 c.g t f.sC f.c))] }

/-- SEL (R156): a if gC is true, else b. -/
def execSel (f : FmtA) (s : State) : Host.Outcome State Fault Refusal :=
  regInstr (.sel f) s fun c _ t => binOut f (fun a b => if t.guard f.c.toNat then a else b) (fun a b => if t.guard f.c.toNat then a else b) c t

/-- LEA (R156): a + (b << s), 32-bit. -/
def execLea (f : FmtA) (s : State) : Host.Outcome State Fault Refusal :=
  regInstr (.lea f) s fun c _ t => { regs := [(f.d.toNat, src32 c.g t f.sA f.a + src32 c.g t f.sB f.b <<< f.var.toNat)] }

/-- DP4 (R159): c plus four byte products. -/
def execDp4 (f : FmtA) (s : State) : Host.Outcome State Fault Refusal :=
  regInstr (.dp4 f) s fun c _ t => dotOut f 4 8 c t

/-- DP2 (R159): c plus two half-word products. -/
def execDp2 (f : FmtA) (s : State) : Host.Outcome State Fault Refusal :=
  regInstr (.dp2 f) s fun c _ t => dotOut f 2 16 c t

/-- ADD_IMM (R162): a + IMM32. -/
def execAddImm (f : FmtI) (s : State) : Host.Outcome State Fault Refusal :=
  regInstr (.addImm f) s fun _ _ t => immOut f (· + ·) t

/-- MUL_IMM (R162): the low 32 bits of a × IMM32. -/
def execMulImm (f : FmtI) (s : State) : Host.Outcome State Fault Refusal :=
  regInstr (.mulImm f) s fun _ _ t => immOut f (· * ·) t

/-- MIN_IMM (R162): the lesser, signed. -/
def execMinImm (f : FmtI) (s : State) : Host.Outcome State Fault Refusal :=
  regInstr (.minImm f) s fun _ _ t => immOut f minS t

/-- MAX_IMM (R162): the greater, signed. -/
def execMaxImm (f : FmtI) (s : State) : Host.Outcome State Fault Refusal :=
  regInstr (.maxImm f) s fun _ _ t => immOut f maxS t

/-- MINU_IMM (R162): the lesser, natural. -/
def execMinuImm (f : FmtI) (s : State) : Host.Outcome State Fault Refusal :=
  regInstr (.minuImm f) s fun _ _ t => immOut f minU t

/-- MAXU_IMM (R162): the greater, natural. -/
def execMaxuImm (f : FmtI) (s : State) : Host.Outcome State Fault Refusal :=
  regInstr (.maxuImm f) s fun _ _ t => immOut f maxU t

/-- AND_IMM (R162): AND with IMM32. -/
def execAndImm (f : FmtI) (s : State) : Host.Outcome State Fault Refusal :=
  regInstr (.andImm f) s fun _ _ t => immOut f (· &&& ·) t

/-- OR_IMM (R162): OR with IMM32. -/
def execOrImm (f : FmtI) (s : State) : Host.Outcome State Fault Refusal :=
  regInstr (.orImm f) s fun _ _ t => immOut f (· ||| ·) t

/-- XOR_IMM (R162): XOR with IMM32. -/
def execXorImm (f : FmtI) (s : State) : Host.Outcome State Fault Refusal :=
  regInstr (.xorImm f) s fun _ _ t => immOut f (· ^^^ ·) t

/-- SHL_IMM (R162): left shift by IMM32[4:0]. -/
def execShlImm (f : FmtI) (s : State) : Host.Outcome State Fault Refusal :=
  regInstr (.shlImm f) s fun _ _ t => immOut f shlV t

/-- SHR_IMM (R162): logical right shift by IMM32[4:0]. -/
def execShrImm (f : FmtI) (s : State) : Host.Outcome State Fault Refusal :=
  regInstr (.shrImm f) s fun _ _ t => immOut f shrV t

/-- SAR_IMM (R162): arithmetic right shift by IMM32[4:0]. -/
def execSarImm (f : FmtI) (s : State) : Host.Outcome State Fault Refusal :=
  regInstr (.sarImm f) s fun _ _ t => immOut f sarV t

/-- ROL_IMM (R162): rotate left by IMM32[4:0]. -/
def execRolImm (f : FmtI) (s : State) : Host.Outcome State Fault Refusal :=
  regInstr (.rolImm f) s fun _ _ t => immOut f rolV t

/-- ROR_IMM (R162): rotate right by IMM32[4:0]. -/
def execRorImm (f : FmtI) (s : State) : Host.Outcome State Fault Refusal :=
  regInstr (.rorImm f) s fun _ _ t => immOut f rorV t

/-- MOVI (R162): IMM32, as bits. -/
def execMovi (f : FmtI) (s : State) : Host.Outcome State Fault Refusal :=
  regInstr (.movi f) s fun _ _ _ => { regs := [(f.d.toNat, f.imm)] }

/-- BFX_IMM (R162): position IMM32[4:0], length IMM32[10:5], signed if IMM32[11]. -/
def execBfxImm (f : FmtI) (s : State) : Host.Outcome State Fault Refusal :=
  regInstr (.bfxImm f) s fun _ _ t => immOut f (fun a i =>
    bfxV (i.getLsbD 11) a ((i.extractLsb' 0 5).setWidth 32) ((i.extractLsb' 5 6).setWidth 32)) t

/-- ADDD (R163): a + ext(b), 64 bits. -/
def execAddd (f : FmtA) (s : State) : Host.Outcome State Fault Refusal :=
  regInstr (.addd f) s fun c _ t => { regs := pairOut f.d.toNat (src64 c.g t f.sA f.a + extB f c t) }

/-- SUBD (R163): a − ext(b), 64 bits. -/
def execSubd (f : FmtA) (s : State) : Host.Outcome State Fault Refusal :=
  regInstr (.subd f) s fun c _ t => { regs := pairOut f.d.toNat (src64 c.g t f.sA f.a - extB f c t) }

/-- SHLD (R163): a << b[5:0]. -/
def execShld (f : FmtA) (s : State) : Host.Outcome State Fault Refusal :=
  regInstr (.shld f) s fun c _ t => { regs := pairOut f.d.toNat (src64 c.g t f.sA f.a <<< ((src32 c.g t f.sB f.b).toNat % 64)) }

/-- SHRD (R163): a >> b[5:0], logical. -/
def execShrd (f : FmtA) (s : State) : Host.Outcome State Fault Refusal :=
  regInstr (.shrd f) s fun c _ t => { regs := pairOut f.d.toNat (src64 c.g t f.sA f.a >>> ((src32 c.g t f.sB f.b).toNat % 64)) }

/-- MULWD (R163): ext(a) × ext(b), 64 bits. -/
def execMulwd (f : FmtA) (s : State) : Host.Outcome State Fault Refusal :=
  regInstr (.mulwd f) s fun c _ t => { regs := pairOut f.d.toNat (mulW (f.var.getLsbD 0) (src32 c.g t f.sA f.a) (src32 c.g t f.sB f.b)) }

/-- MADWD (R163): ext(a) × ext(b) + c. -/
def execMadwd (f : FmtA) (s : State) : Host.Outcome State Fault Refusal :=
  regInstr (.madwd f) s fun c _ t => madwOut f c t

/-- LEAD (R163): a + (ext(b) << s). -/
def execLead (f : FmtA) (s : State) : Host.Outcome State Fault Refusal :=
  regInstr (.lead f) s fun c _ t => { regs := pairOut f.d.toNat (src64 c.g t f.sA f.a + extB f c t <<< f.mode.toNat) }

/-- ADDD_IMM (R164): a + sext(IMM32). -/
def execAdddImm (f : FmtI) (s : State) : Host.Outcome State Fault Refusal :=
  regInstr (.adddImm f) s fun _ _ t => immOut64 f (fun a i => a + i.signExtend 64) t

/-- SUBD_IMM (R164): a − sext(IMM32). -/
def execSubdImm (f : FmtI) (s : State) : Host.Outcome State Fault Refusal :=
  regInstr (.subdImm f) s fun _ _ t => immOut64 f (fun a i => a - i.signExtend 64) t

/-- SHLD_IMM (R164): a << IMM32[5:0]. -/
def execShldImm (f : FmtI) (s : State) : Host.Outcome State Fault Refusal :=
  regInstr (.shldImm f) s fun _ _ t => immOut64 f (fun a i => a <<< (i.toNat % 64)) t

/-- SHRD_IMM (R164): a >> IMM32[5:0]. -/
def execShrdImm (f : FmtI) (s : State) : Host.Outcome State Fault Refusal :=
  regInstr (.shrdImm f) s fun _ _ t => immOut64 f (fun a i => a >>> (i.toNat % 64)) t

/-- LEAD_IMM (R164): a + (sext(IMM32[28:0]) << IMM32[31:29]). -/
def execLeadImm (f : FmtI) (s : State) : Host.Outcome State Fault Refusal :=
  regInstr (.leadImm f) s fun _ _ t => immOut64 f (fun a i => a + (i.extractLsb' 0 29).signExtend 64 <<< (i.toNat / 2 ^ 29)) t

/-- MULWD_IMM (R164): sext(a) × sext(IMM32). -/
def execMulwdImm (f : FmtI) (s : State) : Host.Outcome State Fault Refusal :=
  regInstr (.mulwdImm f) s fun _ _ t => { regs := pairOut f.d.toNat (mulW true (t.reg f.a.toNat) f.imm) }

/-- LEAPC (R164): the address of this LEAPC + sext(IMM32). -/
def execLeapc (f : FmtI) (s : State) : Host.Outcome State Fault Refusal :=
  regInstr (.leapc f) s fun c _ _ => { regs := pairOut f.d.toNat (c.u.pc + f.imm.signExtend 64) }

end Sys2Proof.Machine
end

