-- ==== Sys2Proof/Machine/Shared.lean ====
section
/-! DEFINITION. Shared-register instructions, majors 0x05 and 0x06 (R172, R173), and the s-destination forms of RDFL
and BALLOT (R171): one write for the group under R14. SLD is a load and stands with the memory instructions. -/

namespace Sys2Proof.Machine

/-- P of R167 and R170: the lanes of Active(G) whose guard holds, as at issue. -/
def Ctx.pLanes (c : Ctx) : List Nat :=
  c.lanes.filter fun l => match lookup l c.g.members with
    | some t => t.guardHolds c.u.g
    | none => false

/-- Active(G) equals Members(G) and every guard holds (R14). -/
def Ctx.whole (c : Ctx) : Bool := c.lanes == c.g.lanes && c.pLanes == c.lanes

/-- Every lane of Active(G) completes. -/
def advanceAll (c : Ctx) (s : State) : State :=
  each (fun l s => s.modThread (c.who l) fun t => t.advance c.lat) c.lanes s

/-- The rule of R14 and R173 for an effect made once for the group: nothing where every guard is false, cause 0x0B in
every issuing lane where the group is not whole, else the effect, from the thread of the lowest lane. -/
def groupOnce (effect : Ctx → Nat → Thread → State → State) (c : Ctx) (s : State) : State :=
  if c.pLanes.isEmpty then advanceAll c s
  else if !c.whole then s.faultLanes c.u.slot c.lanes 0x0B 0 c.u.word c.u.pc
  else match c.lanes with
    | [] => s
    | l :: _ => match lookup l c.g.members with
      | some t => effect c l t s
      | none => s

/-- A shared-register write; the register is no SLD's result any more (R88). -/
def Group.writeShared (g : Group) (d : Nat) (v : DWord) : Group :=
  { g.setSreg d v with sLoaded := g.sLoaded.filter (· != 512 + d) }

/-- A shared write of a value computed from lane f. -/
def sharedWrite (d : Nat) (val : Ctx → Thread → DWord) : Ctx → State → State :=
  groupOnce fun c _ t s => advanceAll c (s.modGroup c.u.slot fun g => g.writeShared d (val c t))

/-- A and B of major 0x05 (R172): an s-register, or a 32-bit register zero-extended. -/
def shA (f : FmtA) (c : Ctx) (t : Thread) : DWord := if f.sA then c.g.sreg f.a.toNat else (t.reg f.a.toNat).setWidth 64
def shB (f : FmtA) (c : Ctx) (t : Thread) : DWord := if f.sB then c.g.sreg f.b.toNat else (t.reg f.b.toNat).setWidth 64
def shl64 (a b : DWord) : DWord := a <<< (b.toNat % 64)
def shr64 (a b : DWord) : DWord := a >>> (b.toNat % 64)
def sar64 (a b : DWord) : DWord := a.sshiftRight (b.toNat % 64)

/-- A mask with a bit for each lane of a list. -/
def laneMask (ls : List Nat) : Word := w32 (ls.foldl (fun n l => n + 2 ^ l) 0)
/-- The lanes of P where guard `i` holds (R171). -/
def ballotOf (c : Ctx) (i : Nat) : Word :=
  laneMask (c.pLanes.filter fun l => match lookup l c.g.members with
    | some t => t.guard i
    | none => false)

/-- SADD (R172): a + b, written once for the group (R14). -/
def execSadd (f : FmtA) (s : State) : Host.Outcome State Fault Refusal :=
  issue (.sadd f) s (sharedWrite f.d.toNat fun c t => (fun a b => a + b) (shA f c t) (shB f c t))

/-- SSUB (R172): a − b, written once for the group (R14). -/
def execSsub (f : FmtA) (s : State) : Host.Outcome State Fault Refusal :=
  issue (.ssub f) s (sharedWrite f.d.toNat fun c t => (fun a b => a - b) (shA f c t) (shB f c t))

/-- SMUL (R172): the low 64 bits of a × b, written once for the group (R14). -/
def execSmul (f : FmtA) (s : State) : Host.Outcome State Fault Refusal :=
  issue (.smul f) s (sharedWrite f.d.toNat fun c t => (fun a b => a * b) (shA f c t) (shB f c t))

/-- SAND (R172): AND, written once for the group (R14). -/
def execSand (f : FmtA) (s : State) : Host.Outcome State Fault Refusal :=
  issue (.sand f) s (sharedWrite f.d.toNat fun c t => (fun a b => a &&& b) (shA f c t) (shB f c t))

/-- SOR (R172): OR, written once for the group (R14). -/
def execSor (f : FmtA) (s : State) : Host.Outcome State Fault Refusal :=
  issue (.sor f) s (sharedWrite f.d.toNat fun c t => (fun a b => a ||| b) (shA f c t) (shB f c t))

/-- SXOR (R172): XOR, written once for the group (R14). -/
def execSxor (f : FmtA) (s : State) : Host.Outcome State Fault Refusal :=
  issue (.sxor f) s (sharedWrite f.d.toNat fun c t => (fun a b => a ^^^ b) (shA f c t) (shB f c t))

/-- SSHL (R172): a << b[5:0], written once for the group (R14). -/
def execSshl (f : FmtA) (s : State) : Host.Outcome State Fault Refusal :=
  issue (.sshl f) s (sharedWrite f.d.toNat fun c t => (shl64) (shA f c t) (shB f c t))

/-- SSHR (R172): a >> b[5:0], written once for the group (R14). -/
def execSshr (f : FmtA) (s : State) : Host.Outcome State Fault Refusal :=
  issue (.sshr f) s (sharedWrite f.d.toNat fun c t => (shr64) (shA f c t) (shB f c t))

/-- SSAR (R172): a >> b[5:0], arithmetic, written once for the group (R14). -/
def execSsar (f : FmtA) (s : State) : Host.Outcome State Fault Refusal :=
  issue (.ssar f) s (sharedWrite f.d.toNat fun c t => (sar64) (shA f c t) (shB f c t))

/-- SMIN (R172): the lesser, signed, written once for the group (R14). -/
def execSmin (f : FmtA) (s : State) : Host.Outcome State Fault Refusal :=
  issue (.smin f) s (sharedWrite f.d.toNat fun c t => (minS) (shA f c t) (shB f c t))

/-- SMAX (R172): the greater, signed, written once for the group (R14). -/
def execSmax (f : FmtA) (s : State) : Host.Outcome State Fault Refusal :=
  issue (.smax f) s (sharedWrite f.d.toNat fun c t => (maxS) (shA f c t) (shB f c t))

/-- SMOV (R172): a. -/
def execSmov (f : FmtA) (s : State) : Host.Outcome State Fault Refusal :=
  issue (.smov f) s (sharedWrite f.d.toNat fun c t => shA f c t)

/-- SADD_IMM (R172): a + b, with b = sext(IMM32). -/
def execSaddImm (f : FmtI) (s : State) : Host.Outcome State Fault Refusal :=
  issue (.saddImm f) s (sharedWrite f.d.toNat fun c t => (fun a b => a + b) (c.g.sreg f.a.toNat) (f.imm.signExtend 64))

/-- SMUL_IMM (R172): the low 64 bits of a × b, with b = sext(IMM32). -/
def execSmulImm (f : FmtI) (s : State) : Host.Outcome State Fault Refusal :=
  issue (.smulImm f) s (sharedWrite f.d.toNat fun c t => (fun a b => a * b) (c.g.sreg f.a.toNat) (f.imm.signExtend 64))

/-- SAND_IMM (R172): AND, with b = sext(IMM32). -/
def execSandImm (f : FmtI) (s : State) : Host.Outcome State Fault Refusal :=
  issue (.sandImm f) s (sharedWrite f.d.toNat fun c t => (fun a b => a &&& b) (c.g.sreg f.a.toNat) (f.imm.signExtend 64))

/-- SOR_IMM (R172): OR, with b = sext(IMM32). -/
def execSorImm (f : FmtI) (s : State) : Host.Outcome State Fault Refusal :=
  issue (.sorImm f) s (sharedWrite f.d.toNat fun c t => (fun a b => a ||| b) (c.g.sreg f.a.toNat) (f.imm.signExtend 64))

/-- SXOR_IMM (R172): XOR, with b = sext(IMM32). -/
def execSxorImm (f : FmtI) (s : State) : Host.Outcome State Fault Refusal :=
  issue (.sxorImm f) s (sharedWrite f.d.toNat fun c t => (fun a b => a ^^^ b) (c.g.sreg f.a.toNat) (f.imm.signExtend 64))

/-- SSHL_IMM (R172): a << b[5:0], with b = sext(IMM32). -/
def execSshlImm (f : FmtI) (s : State) : Host.Outcome State Fault Refusal :=
  issue (.sshlImm f) s (sharedWrite f.d.toNat fun c t => (shl64) (c.g.sreg f.a.toNat) (f.imm.signExtend 64))

/-- SSHR_IMM (R172): a >> b[5:0], with b = sext(IMM32). -/
def execSshrImm (f : FmtI) (s : State) : Host.Outcome State Fault Refusal :=
  issue (.sshrImm f) s (sharedWrite f.d.toNat fun c t => (shr64) (c.g.sreg f.a.toNat) (f.imm.signExtend 64))

/-- SSAR_IMM (R172): a >> b[5:0], arithmetic, with b = sext(IMM32). -/
def execSsarImm (f : FmtI) (s : State) : Host.Outcome State Fault Refusal :=
  issue (.ssarImm f) s (sharedWrite f.d.toNat fun c t => (sar64) (c.g.sreg f.a.toNat) (f.imm.signExtend 64))

/-- SMIN_IMM (R172): the lesser, signed, with b = sext(IMM32). -/
def execSminImm (f : FmtI) (s : State) : Host.Outcome State Fault Refusal :=
  issue (.sminImm f) s (sharedWrite f.d.toNat fun c t => (minS) (c.g.sreg f.a.toNat) (f.imm.signExtend 64))

/-- SMAX_IMM (R172): the greater, signed, with b = sext(IMM32). -/
def execSmaxImm (f : FmtI) (s : State) : Host.Outcome State Fault Refusal :=
  issue (.smaxImm f) s (sharedWrite f.d.toNat fun c t => (maxS) (c.g.sreg f.a.toNat) (f.imm.signExtend 64))

/-- SMOVI (R172): sext(IMM32). -/
def execSmovi (f : FmtI) (s : State) : Host.Outcome State Fault Refusal :=
  issue (.smovi f) s (sharedWrite f.d.toNat fun _ _ => f.imm.signExtend 64)

/-- RDFL_S (R171): A of lane f, zero-extended at 32 bits, written once (R14). -/
def execRdflS (f : FmtA) (s : State) : Host.Outcome State Fault Refusal :=
  issue (.rdflS f) s (sharedWrite f.d.toNat fun c t => srcW (FmtA_wide f) c.g t f.sA f.a)

/-- BALLOT_S (R171): the ballot mask, zero-extended, written once (R14). -/
def execBallotS (f : FmtA) (s : State) : Host.Outcome State Fault Refusal :=
  issue (.ballotS f) s (sharedWrite f.d.toNat fun c _ => (ballotOf c f.a.toNat).setWidth 64)

end Sys2Proof.Machine
end

