-- ==== Sys2Proof/Machine/Lanes.lean ====
section
/-! DEFINITION. Move and lane instructions, major 0x07 (R169 to R171), and the predicate instructions of major 0x0E but
FSETP (R165 to R168). -/

namespace Sys2Proof.Machine

/-- A source value of another lane, as at issue. -/
def Ctx.laneSrc (c : Ctx) (wide sf : Bool) (i : BitVec 9) (l : Nat) : DWord :=
  match lookup l c.g.members with
  | some t => srcW wide c.g t sf i
  | none => 0

/-- The read of lane j succeeds: j is in Active(G) (R170). -/
def Ctx.valid (c : Ctx) (j : Int) : Bool := 0 ≤ j && j < 32 && c.lanes.contains j.toNat

/-- Src(j) of R171: A in lane j where the read succeeds, else the lane's own A. -/
def Ctx.srcOf (c : Ctx) (f : FmtA) (wide : Bool) (l : Nat) (j : Int) : DWord :=
  c.laneSrc wide f.sA f.a (if c.valid j then j.toNat else l)

/-- The lowest lane of P. -/
def Ctx.first (c : Ctx) : Nat := (c.pLanes.head?).getD 0

/-- MOV (R171). -/
def execMov (f : FmtA) (s : State) : Host.Outcome State Fault Refusal :=
  regInstr (.mov f) s fun c _ t =>
    { regs := wideOut (FmtA_wide f) f.d.toNat (srcW (FmtA_wide f) c.g t f.sA f.a) }

/-- RDFL (R171): A of the lowest lane of P. -/
def execRdfl (f : FmtA) (s : State) : Host.Outcome State Fault Refusal :=
  regInstr (.rdfl f) s fun c _ _ =>
    { regs := wideOut (FmtA_wide f) f.d.toNat (c.laneSrc (FmtA_wide f) f.sA f.a c.first) }

/-- RDLN (R171): A of a literal lane. -/
def execRdln (f : FmtA) (s : State) : Host.Outcome State Fault Refusal :=
  regInstr (.rdln f) s fun c l _ =>
    { regs := wideOut (FmtA_wide f) f.d.toNat (c.srcOf f (FmtA_wide f) l f.b.toNat) }

/-- BCAST (R171): A of the lane that lane f's B names. -/
def execBcast (f : FmtA) (s : State) : Host.Outcome State Fault Refusal :=
  regInstr (.bcast f) s fun c l _ =>
    let j := (c.laneSrc false f.sB f.b c.first).toNat % 32
    { regs := wideOut (FmtA_wide f) f.d.toNat (c.srcOf f (FmtA_wide f) l j) }

/-- The lane SHFL reads (R171): idx, up, down or xor of the lane's B. -/
def shflLane (mode l : Nat) (b : Word) : Int :=
  match mode with
  | 0 => (b.toNat % 32 : Nat)
  | 1 => (l : Int) - b.toInt
  | 2 => (l : Int) + b.toInt
  | _ => (l ^^^ (b.toNat % 32) : Nat)

/-- SHFL (R171): A of the lane the mode names, and the validity guard. -/
def execShfl (f : FmtA) (s : State) : Host.Outcome State Fault Refusal :=
  regInstr (.shfl f) s fun c l t =>
    let wide := f.var.getLsbD 2
    let j := shflLane (f.var.toNat % 4) l (src32 c.g t f.sB f.b)
    { regs := wideOut wide f.d.toNat (c.srcOf f wide l j), guards := [(f.c.toNat, c.valid j)] }

/-- ELECT (R171): true in the lowest lane of P alone. -/
def execElect (f : FmtA) (s : State) : Host.Outcome State Fault Refusal :=
  regInstr (.elect f) s fun c l _ => { guards := [(f.d.toNat, l == c.first)] }

/-- BALLOT (R171): the lanes of P where gA holds. -/
def execBallot (f : FmtA) (s : State) : Host.Outcome State Fault Refusal :=
  regInstr (.ballot f) s fun c _ _ => { regs := [(f.d.toNat, ballotOf c f.a.toNat)] }

/-- MATCH (R171): the lanes of P whose A equals the lane's; D is one register. -/
def execMatchEq (f : FmtA) (s : State) : Host.Outcome State Fault Refusal :=
  regInstr (.matchEq f) s fun c l _ =>
    let w := FmtA_wide f
    let a := c.laneSrc w f.sA f.a l
    { regs := [(f.d.toNat, laneMask (c.pLanes.filter fun k => c.laneSrc w f.sA f.a k == a))] }

/-- PMOV (R171): the guards as a word, bit 0 written 1. -/
def execPmov (f : FmtA) (s : State) : Host.Outcome State Fault Refusal :=
  regInstr (.pmov f) s fun _ _ t => { regs := [(f.d.toNat, (t.guards ||| 1).setWidth 32)] }

/-- PMOV_TO_GUARDS (R171): g1 to g7 from A[7:1]. -/
def execPmovToGuards (f : FmtA) (s : State) : Host.Outcome State Fault Refusal :=
  regInstr (.pmovToGuards f) s fun c _ t =>
    let a := src32 c.g t f.sA f.a
    { guards := (List.range 7).map fun i => (i + 1, a.getLsbD (i + 1)) }

/-! ## Predicates -/

/-- The conditions of SETP (R165): eq, ne, lt, le, gt, ge. -/
def cmpCond {w : Nat} (cond : Nat) (signed : Bool) (a b : BitVec w) : Bool :=
  let lt := if signed then a.slt b else a.ult b
  match cond with
  | 0 => a == b
  | 1 => a != b
  | 2 => lt
  | 3 => lt || a == b
  | 4 => !(lt || a == b)
  | _ => !lt

/-- The combine field M[2:1] with gC (R165). -/
def combine (f : FmtA) (t : Thread) (x : Bool) : Bool :=
  let g := t.guard (f.c.toNat % 8)
  match f.mode.toNat / 2 with
  | 0 => x
  | 1 => x && g
  | 2 => x || g
  | _ => x != g

/-- SETP (R166). -/
def execSetp (f : FmtA) (s : State) : Host.Outcome State Fault Refusal :=
  regInstr (.setp f) s fun c _ t =>
    let cond := f.var.toNat % 8
    let sg := f.var.getLsbD 3
    let x := if f.mode.getLsbD 0 then cmpCond cond sg (src64 c.g t f.sA f.a) (src64 c.g t f.sB f.b)
      else cmpCond cond sg (src32 c.g t f.sA f.a) (src32 c.g t f.sB f.b)
    { guards := [(f.d.toNat, combine f t x)] }

/-- SSETP (R166): two s-registers compared at 64 bits. -/
def execSsetp (f : FmtA) (s : State) : Host.Outcome State Fault Refusal :=
  regInstr (.ssetp f) s fun c _ t =>
    { guards := [(f.d.toNat, combine f t (cmpCond (f.var.toNat % 8) (f.var.getLsbD 3) (c.g.sreg f.a.toNat)
        (c.g.sreg f.b.toNat)))] }

/-- PAND (R167). -/
def execPand (f : FmtA) (s : State) : Host.Outcome State Fault Refusal :=
  regInstr (.pand f) s fun _ _ t => { guards := [(f.d.toNat, t.guard f.a.toNat && t.guard f.b.toNat)] }
/-- POR (R167). -/
def execPor (f : FmtA) (s : State) : Host.Outcome State Fault Refusal :=
  regInstr (.por f) s fun _ _ t => { guards := [(f.d.toNat, t.guard f.a.toNat || t.guard f.b.toNat)] }
/-- PXOR (R167). -/
def execPxor (f : FmtA) (s : State) : Host.Outcome State Fault Refusal :=
  regInstr (.pxor f) s fun _ _ t => { guards := [(f.d.toNat, t.guard f.a.toNat != t.guard f.b.toNat)] }
/-- PNOT (R167). -/
def execPnot (f : FmtA) (s : State) : Host.Outcome State Fault Refusal :=
  regInstr (.pnot f) s fun _ _ t => { guards := [(f.d.toNat, !t.guard f.a.toNat)] }

/-- VOTE (R167): any, all or uni of gA over P. -/
def execVote (f : FmtA) (s : State) : Host.Outcome State Fault Refusal :=
  regInstr (.vote f) s fun c _ _ =>
    let n := (c.pLanes.filter fun l => match lookup l c.g.members with
      | some t => t.guard f.a.toNat
      | none => false).length
    let x := match f.var.toNat with
      | 0 => n != 0
      | 1 => n == c.pLanes.length
      | _ => n == 0 || n == c.pLanes.length
    { guards := [(f.d.toNat, x)] }

/-! ## Allowance (R283) -/

/-- Write-combining entries that are free: an entry counts again when its drain leaves the core. -/
def Core.wcFree (c : Core) : Nat := 256 - c.wc.length
/-- A core's egress credit toward a peer: 128 while it is up. -/
def State.egressCredit (s : State) (core p : Nat) : Nat :=
  if s.peerState p == 1 then 128 - get (s.core core).egress p 0 else 0
def State.ucieCredit (s : State) (core d : Nat) : Nat := 256 - get (s.core core).ucie d 0

/-- ALW(p) (R283). -/
def State.alw (s : State) (core p : Nat) : Nat :=
  if p == s.pkg then 0xFFFFFFFF
  else if s.domain ≤ p || s.peerState p != 1 then 0
  else min (s.core core).wcFree (s.egressCredit core p)

/-- ALWD(d) (R283). -/
def State.alwd (s : State) (core d : Nat) : Nat :=
  if 6 ≤ d then 0 else if d == dieOfCore core then 0xFFFFFFFF else s.ucieCredit core d

/-- ALWP (R168): the allowance of the peer or die that A names is at least b; an index outside the range is false. -/
def execAlwp (f : FmtA) (s : State) : Host.Outcome State Fault Refusal :=
  regInstr (.alwp f) s fun c _ t =>
    let a := (src32 c.g t f.sA f.a).toNat
    let b := (src32 c.g t f.sB f.b).toNat
    let x := if f.var == 0 then a < 64 && b ≤ s.alw c.core a else a < 8 && b ≤ s.alwd c.core a
    { guards := [(f.d.toNat, x)] }

end Sys2Proof.Machine
end

