-- ==== Sys2Proof/Machine/Float.lean ====
section
/-! DEFINITION. FP32, packed half and FP64 arithmetic, majors 0x08 to 0x0A (R175 to R180), and FSETP (R166). -/

namespace Sys2Proof.Machine

/-- A source in the format's width: a register or a pair, the low half for a 16-bit format. -/
def fpSrc (fmt : FpFmt) (c : Ctx) (t : Thread) (sf : Bool) (i : BitVec 9) : Nat :=
  (srcW (fmt.ew == 11) c.g t sf i).toNat

/-- Inputs flushed and decoded, with the flags of reading them (R176). -/
def fpIn (fmt : FpFmt) (z : Bool) (xs : List Nat) : List Nat × Flags :=
  let ys := xs.map (fmt.flush z)
  (ys.map (·.1), inFlags (ys.map fun y => fmt.decode y.1) (ys.map (·.2)))

/-- A result written to D with its flags. -/
def fpOut (fmt : FpFmt) (f : FmtA) (r : Nat) (fl : Flags) : Out :=
  ({ regs := wideOut (fmt.ew == 11) f.d.toNat (d64 r) } : Out).flagged fl

def numOp1 (op : RMode → Bool → Num → Nat × Flags) (fmt : FpFmt) (m : RMode) (z : Bool) (x : Nat) : Nat × Flags :=
  let (xs, fl) := fpIn fmt z [x]
  let (r, fl') := op m z (fmt.decode (xs.getD 0 0))
  (r, fl.or fl')
def numOp2 (op : FpFmt → RMode → Bool → Num → Num → Nat × Flags) (fmt : FpFmt) (m : RMode) (z : Bool)
    (xs : List Nat) : Nat × Flags :=
  let (xs, fl) := fpIn fmt z (xs.take 2)
  let (r, fl') := op fmt m z (fmt.decode (xs.getD 0 0)) (fmt.decode (xs.getD 1 0))
  (r, fl.or fl')
def numOp3 (op : FpFmt → RMode → Bool → Num → Num → Num → Nat × Flags) (fmt : FpFmt) (m : RMode) (z : Bool)
    (xs : List Nat) : Nat × Flags :=
  let (xs, fl) := fpIn fmt z xs
  let (r, fl') := op fmt m z (fmt.decode (xs.getD 0 0)) (fmt.decode (xs.getD 1 0)) (fmt.decode (xs.getD 2 0))
  (r, fl.or fl')

/-- FMIN and FMAX: a signalling NaN sets NV even when a number is returned (R178); a subnormal result is an input that
was not flushed. -/
def minmaxOp (mx : Bool) (fmt : FpFmt) (z : Bool) (xs : List Nat) : Nat × Flags :=
  let (xs, fl) := fpIn fmt z (xs.take 2)
  (fmt.minmax mx (xs.getD 0 0) (xs.getD 1 0), fl)

def fp1 (fmt : FpFmt) (f : FmtA) (c : Ctx) (t : Thread) (op : RMode → Bool → Num → Nat × Flags) : Out :=
  let (r, fl) := numOp1 op fmt (roundMode f.mode t.fpcr) (ftzOf t.fpcr) (fpSrc fmt c t f.sA f.a)
  fpOut fmt f r fl
def fp2 (fmt : FpFmt) (f : FmtA) (c : Ctx) (t : Thread) (op : RMode → Bool → Num → Num → Nat × Flags) : Out :=
  let (r, fl) := numOp2 (fun _ => op) fmt (roundMode f.mode t.fpcr) (ftzOf t.fpcr)
    [fpSrc fmt c t f.sA f.a, fpSrc fmt c t f.sB f.b]
  fpOut fmt f r fl
def fp3 (fmt : FpFmt) (f : FmtA) (c : Ctx) (t : Thread) (op : RMode → Bool → Num → Num → Num → Nat × Flags) : Out :=
  let (r, fl) := numOp3 (fun _ => op) fmt (roundMode f.mode t.fpcr) (ftzOf t.fpcr)
    [fpSrc fmt c t f.sA f.a, fpSrc fmt c t f.sB f.b, fpSrc fmt c t f.sC f.c]
  fpOut fmt f r fl
def fpMinmax (fmt : FpFmt) (f : FmtA) (c : Ctx) (t : Thread) (mx : Bool) : Out :=
  let (r, fl) := minmaxOp mx fmt (ftzOf t.fpcr) [fpSrc fmt c t f.sA f.a, fpSrc fmt c t f.sB f.b]
  fpOut fmt f r fl

/-- FCLAMP by its composition (R178). -/
def fclampOut (f : FmtA) (c : Ctx) (t : Thread) : Out :=
  let z := ftzOf t.fpcr
  let (x, fl) := minmaxOp true f32 z [fpSrc f32 c t f.sA f.a, fpSrc f32 c t f.sB f.b]
  let (r, fl') := minmaxOp false f32 z [x, fpSrc f32 c t f.sC f.c]
  fpOut f32 f r (fl.or fl')

def frintOut (f : FmtA) (c : Ctx) (t : Thread) : Out :=
  let (xs, fl) := fpIn f32 (ftzOf t.fpcr) [fpSrc f32 c t f.sA f.a]
  fpOut f32 f (f32.rint (roundMode f.mode t.fpcr) (xs.getD 0 0)) fl

/-- FSCALE (R178): beyond ±600 the exponent no longer matters in binary32. -/
def fscaleOut (f : FmtA) (c : Ctx) (t : Thread) : Out :=
  let b := (src32 c.g t f.sB f.b).toInt
  let b : Int := if b < -600 then -600 else if 600 < b then 600 else b
  fp1 f32 f c t fun m z a =>
    match a with
    | .fin n x e => f32.round m z n x (e + b) false
    | a => f32.roundNum m z a

def fabsnegOut (f : FmtA) (c : Ctx) (t : Thread) : Out :=
  let a := src32 c.g t f.sA f.a
  let b := src32 c.g t f.sB f.b
  let r : Word := match f.var.toNat with
    | 0 => a &&& 0x7FFFFFFF
    | 1 => a ^^^ 0x80000000
    | 2 => a ||| 0x80000000
    | _ => (a &&& 0x7FFFFFFF) ||| (b &&& 0x80000000)
  { regs := [(f.d.toNat, r)] }

/-- A packed-half operation on each element (R179); the flags of both together. -/
def half2 (f : FmtA) (c : Ctx) (t : Thread) (op : FpFmt → RMode → Bool → List Nat → Nat × Flags) : Out :=
  let h := if FmtA_wide f then b16 else f16
  let m := roundMode f.mode t.fpcr
  let z := ftzOf t.fpcr
  let xs := [src32 c.g t f.sA f.a, src32 c.g t f.sB f.b, src32 c.g t f.sC f.c].map (·.toNat)
  let (r0, f0) := op h m z (xs.map (· % 65536))
  let (r1, f1) := op h m z (xs.map (· / 65536))
  ({ regs := [(f.d.toNat, w32 (r0 + 65536 * r1))] } : Out).flagged (f0.or f1)

/-- The exact sum of the finite terms of HDOT2, in order. -/
def sumNums (m : RMode) : List Num → Bool × Nat × Int
  | [] => (false, 0, 0)
  | [.fin n x e] => (n, x, e)
  | .fin n x e :: ns => let (n', x', e') := sumNums m ns; sumFin m n x e n' x' e'
  | _ :: ns => sumNums m ns

/-- HDOT2 (R179). Beside a quiet NaN, infinities of opposite sign set no NV: the rule says that NV is set there for ∞ × 0.
DEDUCED (unsafe): notes/assumptions/81.md. -/
def hdotOut (f : FmtA) (c : Ctx) (t : Thread) : Out :=
  let h := if FmtA_wide f then b16 else f16
  let m := roundMode f.mode t.fpcr
  let z := ftzOf t.fpcr
  let a := (src32 c.g t f.sA f.a).toNat
  let b := (src32 c.g t f.sB f.b).toNat
  let (xs, fl) := fpIn h z [a % 65536, b % 65536, a / 65536, b / 65536]
  let (ks, fl') := fpIn f32 z [fpSrc f32 c t f.sC f.c]
  let fl := fl.or fl'
  let x (i : Nat) := h.decode (xs.getD i 0)
  let k := f32.decode (ks.getD 0 0)
  let p0 := mulNum (x 0) (x 1)
  let p1 := mulNum (x 2) (x 3)
  let terms := [k, p0.getD (.nan false), p1.getD (.nan false)]
  let bad := p0.isNone || p1.isNone
  if bad || terms.any Num.isNan then fpOut f32 f f32.nan (fl.or { nv := bad })
  else if terms.any fun n => n == .inf false then
    if terms.any fun n => n == .inf true then fpOut f32 f f32.nan (fl.or { nv := true })
    else fpOut f32 f f32.infBits fl
  else if terms.any fun n => n == .inf true then fpOut f32 f (f32.signed true f32.infBits) fl
  else
    let (n, mg, e) := sumNums m terms
    let (r, fr) := f32.round m z n mg e false
    fpOut f32 f r (fl.or fr)

/-- The conditions of FSETP (R165, R166). -/
def fpCond (cond : Nat) (a b : Num) : Bool :=
  let nan := a.isNan || b.isNan
  match cond with
  | 0 => eqNum a b
  | 1 => !eqNum a b
  | 2 => ltNum a b
  | 3 => ltNum a b || eqNum a b
  | 4 => ltNum b a
  | 5 => ltNum b a || eqNum a b
  | 6 => !nan
  | _ => nan

/-- FADD (R177): a + b. -/
def execFadd (f : FmtA) (s : State) : Host.Outcome State Fault Refusal :=
  regInstr (.fadd f) s fun c _ t => fp2 f32 f c t f32.addNum

/-- FSUB (R177): a − b. -/
def execFsub (f : FmtA) (s : State) : Host.Outcome State Fault Refusal :=
  regInstr (.fsub f) s fun c _ t => fp2 f32 f c t fun m z a b => f32.addNum m z a b.negate

/-- FMUL (R177): a × b. -/
def execFmul (f : FmtA) (s : State) : Host.Outcome State Fault Refusal :=
  regInstr (.fmul f) s fun c _ t => fp2 f32 f c t f32.mulNum

/-- FFMA (R177): a × b + c, rounded once. -/
def execFfma (f : FmtA) (s : State) : Host.Outcome State Fault Refusal :=
  regInstr (.ffma f) s fun c _ t => fp3 f32 f c t f32.fmaNum

/-- FMIN (R178): minimumNumber. -/
def execFmin (f : FmtA) (s : State) : Host.Outcome State Fault Refusal :=
  regInstr (.fmin f) s fun c _ t => fpMinmax f32 f c t false

/-- FMAX (R178): maximumNumber. -/
def execFmax (f : FmtA) (s : State) : Host.Outcome State Fault Refusal :=
  regInstr (.fmax f) s fun c _ t => fpMinmax f32 f c t true

/-- FCLAMP (R178): FMIN(FMAX(a, b), c). -/
def execFclamp (f : FmtA) (s : State) : Host.Outcome State Fault Refusal :=
  regInstr (.fclamp f) s fun c _ t => fclampOut f c t

/-- FRINT (R178): an integral value in the selected mode; never NX. -/
def execFrint (f : FmtA) (s : State) : Host.Outcome State Fault Refusal :=
  regInstr (.frint f) s fun c _ t => frintOut f c t

/-- FSCALE (R178): a × 2^b. -/
def execFscale (f : FmtA) (s : State) : Host.Outcome State Fault Refusal :=
  regInstr (.fscale f) s fun c _ t => fscaleOut f c t

/-- FDIV (R178): a ÷ b. -/
def execFdiv (f : FmtA) (s : State) : Host.Outcome State Fault Refusal :=
  regInstr (.fdiv f) s fun c _ t => fp2 f32 f c t f32.divNum

/-- FSQRT (R178): √a. -/
def execFsqrt (f : FmtA) (s : State) : Host.Outcome State Fault Refusal :=
  regInstr (.fsqrt f) s fun c _ t => fp1 f32 f c t f32.sqrtNum

/-- FABSNEG (R178): bit 31 alone; no flags, no flush. -/
def execFabsneg (f : FmtA) (s : State) : Host.Outcome State Fault Refusal :=
  regInstr (.fabsneg f) s fun c _ t => fabsnegOut f c t

/-- HADD2 (R179): FADD on each half. -/
def execHadd2 (f : FmtA) (s : State) : Host.Outcome State Fault Refusal :=
  regInstr (.hadd2 f) s fun c _ t => half2 f c t fun h m z xs => numOp2 (fun h m z a b => h.addNum m z a b) h m z xs

/-- HSUB2 (R179): FSUB on each half. -/
def execHsub2 (f : FmtA) (s : State) : Host.Outcome State Fault Refusal :=
  regInstr (.hsub2 f) s fun c _ t => half2 f c t fun h m z xs => numOp2 (fun h m z a b => h.addNum m z a b.negate) h m z xs

/-- HMUL2 (R179): FMUL on each half. -/
def execHmul2 (f : FmtA) (s : State) : Host.Outcome State Fault Refusal :=
  regInstr (.hmul2 f) s fun c _ t => half2 f c t fun h m z xs => numOp2 (fun h m z a b => h.mulNum m z a b) h m z xs

/-- HFMA2 (R179): FFMA on each half. -/
def execHfma2 (f : FmtA) (s : State) : Host.Outcome State Fault Refusal :=
  regInstr (.hfma2 f) s fun c _ t => half2 f c t fun h m z xs => numOp3 (fun h m z a b k => h.fmaNum m z a b k) h m z xs

/-- HMIN2 (R179): FMIN on each half. -/
def execHmin2 (f : FmtA) (s : State) : Host.Outcome State Fault Refusal :=
  regInstr (.hmin2 f) s fun c _ t => half2 f c t fun h _ z xs => minmaxOp false h z xs

/-- HMAX2 (R179): FMAX on each half. -/
def execHmax2 (f : FmtA) (s : State) : Host.Outcome State Fault Refusal :=
  regInstr (.hmax2 f) s fun c _ t => half2 f c t fun h _ z xs => minmaxOp true h z xs

/-- HDOT2 (R179): c + a0 × b0 + a1 × b1 to binary32, rounded once. -/
def execHdot2 (f : FmtA) (s : State) : Host.Outcome State Fault Refusal :=
  regInstr (.hdot2 f) s fun c _ t => hdotOut f c t

/-- DADD (R180). -/
def execDadd (f : FmtA) (s : State) : Host.Outcome State Fault Refusal :=
  regInstr (.dadd f) s fun c _ t => fp2 f64 f c t f64.addNum

/-- DMUL (R180). -/
def execDmul (f : FmtA) (s : State) : Host.Outcome State Fault Refusal :=
  regInstr (.dmul f) s fun c _ t => fp2 f64 f c t f64.mulNum

/-- DFMA (R180). -/
def execDfma (f : FmtA) (s : State) : Host.Outcome State Fault Refusal :=
  regInstr (.dfma f) s fun c _ t => fp3 f64 f c t f64.fmaNum

/-- DMIN (R180). -/
def execDmin (f : FmtA) (s : State) : Host.Outcome State Fault Refusal :=
  regInstr (.dmin f) s fun c _ t => fpMinmax f64 f c t false

/-- DMAX (R180). -/
def execDmax (f : FmtA) (s : State) : Host.Outcome State Fault Refusal :=
  regInstr (.dmax f) s fun c _ t => fpMinmax f64 f c t true

/-- DDIV (R180). -/
def execDdiv (f : FmtA) (s : State) : Host.Outcome State Fault Refusal :=
  regInstr (.ddiv f) s fun c _ t => fp2 f64 f c t f64.divNum

/-- DSQRT (R180). -/
def execDsqrt (f : FmtA) (s : State) : Host.Outcome State Fault Refusal :=
  regInstr (.dsqrt f) s fun c _ t => fp1 f64 f c t f64.sqrtNum

/-- FSETP (R166): a comparison of binary32 or binary64 values; it sets NV alone. -/
def execFsetp (f : FmtA) (s : State) : Host.Outcome State Fault Refusal :=
  regInstr (.fsetp f) s fun c _ t =>
    let fmt := if f.mode.getLsbD 0 then f64 else f32
    let z := ftzOf t.fpcr
    let a := fmt.decode (fmt.flush z (fpSrc fmt c t f.sA f.a)).1
    let b := fmt.decode (fmt.flush z (fpSrc fmt c t f.sB f.b)).1
    let cond := f.var.toNat
    let nan := a.isNan || b.isNan
    let nv := if 2 ≤ cond && cond < 6 then nan else a.isSnan || b.isSnan
    ({ guards := [(f.d.toNat, combine f t (fpCond cond a b))] } : Out).flagged { nv := nv }

end Sys2Proof.Machine
end

