-- ==== Sys2Proof/Machine/Convert.lean ====
section
/-! DEFINITION. Conversions, major 0x0B (R183 to R187), with stochastic rounding (R184). -/

namespace Sys2Proof.Machine

/-- One step of SRSEED (R184). -/
def srStep (s : Word) : Word :=
  let b := (s.getLsbD 31 != s.getLsbD 21) != (s.getLsbD 1 != s.getLsbD 0)
  (s <<< 1) ||| (if b then 1 else 0)

/-- An exact magnitude rounded stochastically to a multiple of 2^q (R184): F is the first 32 bits of what lies below. -/
def srMag (m : Nat) (e : Int) (q : Int) (z : Word) : Nat × Bool :=
  if q ≤ e then (m * 2 ^ (e - q).toNat, false)
  else
    let k := (q - e).toNat
    let r := m % 2 ^ k
    let frac := r * 2 ^ 32 / 2 ^ k
    (m / 2 ^ k + (if 2 ^ 32 ≤ frac + z.toNat then 1 else 0), r != 0)

/-- A finite value rounded into a format, the encoding of its magnitude unbounded above: by mode, or stochastically with
a random value.
DEDUCED (unsafe): notes/assumptions/19.md. -/
def FpFmt.roundOpen (f : FpFmt) (mode : RMode) (sr : Option Word) (neg : Bool) (m : Nat) (e : Int) : Nat × Bool :=
  if m == 0 then (0, false)
  else
    let top := topOf m e
    let q := if top - f.fw < f.emin then f.emin else top - f.fw
    let (n, inex) := match sr with
      | some z => srMag m e q z
      | none => roundMag mode neg m e false q
    ((q - f.emin).toNat * 2 ^ f.fw + n, inex)

/-- Tininess after rounding, for an inexact result below the normal range (R176). -/
def FpFmt.tinyOpen (f : FpFmt) (mode : RMode) (sr : Option Word) (neg : Bool) (m : Nat) (e : Int) : Bool :=
  let top := topOf m e
  let (n, _) := match sr with
    | some z => srMag m e (top - f.fw) z
    | none => roundMag mode neg m e false (top - f.fw)
  m != 0 && top < f.emin + f.fw && !(n == 2 ^ (f.fw + 1) && top + 1 == f.emin + f.fw)

/-- CVTFF (R186) of a decoded, flushed value into a format.
DEDUCED (unsafe): notes/assumptions/19.md. -/
def cvtffNum (f : FpFmt) (mode : RMode) (sr : Option Word) (sat z : Bool) (x : Num) : Nat × Flags :=
  match x with
  | .nan _ => (f.nan, {})
  | .inf n => (f.signed n f.infBits, {})
  | .fin n m e =>
    let (bits, inex) := f.roundOpen mode sr n m e
    if f.infBits ≤ bits then
      if sat then (f.signed n f.maxBits, { ns := true, nx := true })
      else (f.signed n (f.overflow (if sr.isSome then .rne else mode) n), { of := true, nx := true })
    else if z && bits != 0 && bits < 2 ^ f.fw then (f.signed n 0, { uf := true, nx := true })
    else (f.signed n bits, { nx := inex, uf := inex && f.tinyOpen mode sr n m e })

/-- The float types of R183. -/
def ftype (n : Nat) : FpFmt :=
  match n with
  | 0 => f16
  | 1 => b16
  | 2 => f32
  | _ => f64

/-- A source of a float type: a 16-bit type in bits [15:0] (R183). -/
def ftSrc (ty : Nat) (c : Ctx) (t : Thread) (sf : Bool) (i : BitVec 9) : Nat :=
  let x := (srcW (ty == 3) c.g t sf i).toNat
  if ty < 2 then x % 65536 else x

/-- The integer types of R183: width, signed. -/
def itWide (n : Nat) : Bool := 2 ≤ n
def itSigned (n : Nat) : Bool := n % 2 == 0

/-- CVTIF (R185). -/
def execCvtif (f : FmtA) (s : State) : Host.Outcome State Fault Refusal :=
  regInstr (.cvtif f) s fun c _ t =>
    let it := f.var.toNat % 4
    let ty := f.var.toNat / 4
    let x := extInt (itSigned it) (if itWide it then 64 else 32) (srcW (itWide it) c.g t f.sA f.a)
    let (r, fl) := (ftype ty).round (roundMode f.mode t.fpcr) false (x < 0) x.natAbs 0 false
    fpOut (ftype ty) f r fl

/-- A value rounded to an integer type, saturating (R185): the integer and the flags. -/
def toIntSat (mode : RMode) (sg : Bool) (w : Nat) (x : Num) : Int × Flags :=
  match x with
  | .nan _ => (0, { nv := true })
  | .inf n => (satInt sg w (if n then -(2 ^ 70) else 2 ^ 70), { ns := true })
  | .fin n m e =>
    let (k, inex) := roundMag mode n m e false 0
    let v : Int := if n then -(k : Int) else k
    let r := satInt sg w v
    if r != v then (r, { ns := true }) else (r, { nx := inex })

/-- CVTFI (R185). -/
def execCvtfi (f : FmtA) (s : State) : Host.Outcome State Fault Refusal :=
  regInstr (.cvtfi f) s fun c _ t =>
    let ty := f.var.toNat % 4
    let it := f.var.toNat / 4
    let (xs, fl) := fpIn (ftype ty) (ftzOf t.fpcr) [ftSrc ty c t f.sA f.a]
    let w := if itWide it then 64 else 32
    let (v, fl') := toIntSat (roundMode f.mode t.fpcr) (itSigned it) w ((ftype ty).decode (xs.getD 0 0))
    ({ regs := wideOut (itWide it) f.d.toNat (BitVec.ofInt 64 v) } : Out).flagged (fl.or fl')

/-- The stochastic value of an element, and the seed after it (R184): none where the mode is not stochastic. -/
def srNext (f : FmtA) (seed : Word) : Option Word × Word :=
  if f.mode == 5 then (some (srStep seed), srStep seed) else (none, seed)

/-- CVTFF (R186). -/
def execCvtff (f : FmtA) (s : State) : Host.Outcome State Fault Refusal :=
  regInstr (.cvtff f) s fun c _ t =>
    let ty := f.var.toNat % 4
    let td := f.var.toNat / 4
    let z := ftzOf t.fpcr
    let (xs, fl) := fpIn (ftype ty) z [ftSrc ty c t f.sA f.a]
    let (sr, seed) := srNext f t.srseed
    let (r, fl') := cvtffNum (ftype td) (roundMode f.mode t.fpcr) sr (f.c.getLsbD 0) z ((ftype ty).decode (xs.getD 0 0))
    { fpOut (ftype td) f r (fl.or fl') with seed := some seed }

/-- PKH (R186): two CVTFF from binary32. -/
def execPkh (f : FmtA) (s : State) : Host.Outcome State Fault Refusal :=
  regInstr (.pkh f) s fun c _ t =>
    let h := if FmtA_wide f then b16 else f16
    let z := ftzOf t.fpcr
    let m := roundMode f.mode t.fpcr
    let (xs, fl) := fpIn f32 z [fpSrc f32 c t f.sA f.a, fpSrc f32 c t f.sB f.b]
    let (z0, s0) := srNext f t.srseed
    let (z1, s1) := srNext f s0
    let (r0, f0) := cvtffNum h m z0 (f.c.getLsbD 0) z (f32.decode (xs.getD 0 0))
    let (r1, f1) := cvtffNum h m z1 (f.c.getLsbD 0) z (f32.decode (xs.getD 1 0))
    { ({ regs := [(f.d.toNat, w32 (r0 + 65536 * r1))] } : Out).flagged ((fl.or f0).or f1) with seed := some s1 }

/-- The largest finite and the NaN codes of the 8-bit formats (R248, R187). -/
def f8Max (e5 : Bool) : Nat := if e5 then 0x7B else 0x7E
def f8Nan (e5 : Bool) : Nat := if e5 then 0x7E else 0x7F

/-- One byte of PKF8 (R187). -/
def pkf8Num (e5 : Bool) (mode : RMode) (sr : Option Word) (nan : Bool) (x : Num) : Nat × Flags :=
  let fm := if e5 then fE5M2 else fE4M3
  match x with
  | .nan sg => (f8Nan e5, { nv := sg })
  | .inf n =>
    if nan then (if e5 then fm.signed n 0x7C else 0x7F, {}) else (fm.signed n (f8Max e5), { ns := true })
  | .fin n m e =>
    let (bits, inex) := fm.roundOpen mode sr n m e
    if f8Max e5 < bits then
      if nan then (f8Nan e5, { of := true, nx := true }) else (fm.signed n (f8Max e5), { ns := true, nx := true })
    else (fm.signed n bits, { nx := inex, uf := inex && fm.tinyOpen mode sr n m e })

/-- Bytes of PKF8 in element order, stepping the seed once each (R184, R187). -/
def pkf8All (f : FmtA) (e5 : Bool) (mode : RMode) (nan : Bool) (seed : Word) : List Num → List Nat × Flags × Word
  | [] => ([], {}, seed)
  | x :: xs =>
    let (z, s1) := srNext f seed
    let (b, fl) := pkf8Num e5 mode z nan x
    let (bs, fl', s2) := pkf8All f e5 mode nan s1 xs
    (b :: bs, fl.or fl', s2)

/-- PKF8 (R187). -/
def execPkf8 (f : FmtA) (s : State) : Host.Outcome State Fault Refusal :=
  regInstr (.pkf8 f) s fun c _ t =>
    let ty := f.var.toNat % 4
    let wide := ty == 0
    let fm := if wide then f32 else if ty == 1 then f16 else b16
    let a := (srcW wide c.g t f.sA f.a).toNat
    let b := (srcW wide c.g t f.sB f.b).toNat
    let k := if wide then 2 ^ 32 else 65536
    let (xs, fl) := fpIn fm (ftzOf t.fpcr) [a % k, a / k, b % k, b / k]
    let (bs, fl', seed) := pkf8All f (f.var.getLsbD 2) (roundMode f.mode t.fpcr) (f.c.getLsbD 1) t.srseed
      (xs.map fm.decode)
    { ({ regs := [(f.d.toNat, w32 (leVal (bs.map (BitVec.ofNat 8))))] } : Out).flagged (fl.or fl') with
      seed := some seed }

/-- Decoding an 8-bit float (R248). -/
def f8Num (e5 : Bool) (x : Nat) : Num :=
  let neg := 128 ≤ x
  let mag := x % 128
  if e5 then if 0x7D ≤ mag then .nan false else if mag == 0x7C then .inf neg else fE5M2.decode x
  else if mag == 0x7F then .nan false
  else if 0x78 ≤ mag then .fin neg (8 + mag % 8) (fE4M3.emin + 14)
  else fE4M3.decode x

/-- UPF8 (R187): exact, no flags. -/
def execUpf8 (f : FmtA) (s : State) : Host.Outcome State Fault Refusal :=
  regInstr (.upf8 f) s fun c _ t =>
    let e5 := f.var.getLsbD 0
    let td := f.var.toNat / 2 % 4
    let a := (src32 c.g t f.sA f.a).toNat
    let conv (i : Nat) : Nat := ((ftype td).roundNum .rne false (f8Num e5 (a / 256 ^ i % 256))).1
    let v := if td == 2 then
        let n := f.b.toNat
        conv (2 * n) + 2 ^ 32 * conv (2 * n + 1)
      else conv 0 + 2 ^ 16 * conv 1 + 2 ^ 32 * conv 2 + 2 ^ 48 * conv 3
    { regs := pairOut f.d.toNat (d64 v) }

end Sys2Proof.Machine
end

