-- ==== Sys2Proof/Machine/Blocks.lean ====
section
/-! DEFINITION. Block floating point: packing and unpacking BX blocks (R188 to R191, R250), major 0x0D. -/

namespace Sys2Proof.Machine

/-- Element width and magnitude width of a BX format: 0 BX4, 1 BX6, 2 BX8 (R188). -/
def bxWidth (fmt : Nat) : Nat := 4 + 2 * (fmt % 3)
def bxMag (fmt : Nat) : Nat := bxWidth fmt - 2

/-- FromBX (R250): a NaN or an exact value. -/
def fromBx (fmt code scale : Nat) : Num :=
  let w := bxWidth fmt
  let mw := bxMag fmt
  let ea := scale % 256
  let eb := scale / 256 % 256
  let s := bit code (w - 2)
  let mag := code % 2 ^ mw
  let e := if bit code (w - 1) then eb else ea
  if ea == 255 then .nan false
  else if ea == 0 || e == 0 then .fin s 0 0
  else .fin s mag ((e : Int) - 127 - mw)

/-- An element encoded on a grid: its magnitude after RNE and saturation, whether it saturated, and its error as a
number times 2^u, where 2^u divides the value and the grid (R189). -/
structure GridCode where
  mag : Nat
  sat : Bool
  err : Nat
deriving DecidableEq, Repr

def gridCode (mw m : Nat) (e q u : Int) : GridCode :=
  let (n, _) := roundMag .rne false m e false q
  let c := min n (2 ^ mw - 1)
  let x := m * 2 ^ (e - u).toNat
  let y := c * 2 ^ (q - u).toNat
  ⟨c, c != n, if x ≤ y then y - x else x - y⟩

/-- Sign, magnitude and exponent of a finite element. -/
def Num.parts : Num → Bool × Nat × Int
  | .fin n m e => (n, m, e)
  | _ => (false, 0, 0)

/-- The greatest leading-bit exponent of nonzero magnitudes. -/
def topMax (xs : List (Bool × Nat × Int)) : Option Int :=
  xs.foldl (fun k x => if x.2.1 == 0 then k else
    let t := topOf x.2.1 x.2.2
    match k with
    | none => some t
    | some j => some (max j t)) none

/-- One element's code with what it says of the flags: inexact, saturated, underflowed (R189). -/
def packOne (mw w ea eb : Nat) (x : Bool × Nat × Int) : Nat × Flags :=
  let (s, m, e) := x
  let qa : Int := (ea : Int) - 127 - mw
  let qb : Int := (eb : Int) - 127 - mw
  let u := min e (min qa qb)
  let a := gridCode mw m e qa u
  let b := gridCode mw m e qb u
  let useB := eb != 0 && b.err < a.err
  let g := if useB then b else a
  (g.mag + (if s then 2 ^ (w - 2) else 0) + (if useB then 2 ^ (w - 1) else 0),
   { nx := g.err != 0, bc := g.sat, uf := m != 0 && g.mag == 0 })

/-- Packing one block (R189): the scale halfword, the codes in order, and the flags. -/
def packBlock (fmt : Nat) (xs : List Num) : Nat × List Nat × Flags :=
  let w := bxWidth fmt
  let mw := bxMag fmt
  if xs.any fun x => x.isNan || x.isInf then (255, xs.map fun _ => 0, { nv := true })
  else
    let ps := xs.map Num.parts
    match topMax ps with
    | none => (0, ps.map fun p => if p.1 then 2 ^ (w - 2) else 0, {})
    | some k =>
      let ea := (min (max (k + 128) 1) 254).toNat
      let q : Int := (ea : Int) - 127 - mw
      let z := ps.filter fun p => (roundMag .rne false p.2.1 p.2.2 false q).1 == 0
      let eb := match topMax z with
        | none => 0
        | some kz => (max (kz + 128) (max ((ea : Int) - 24) 1)).toNat
      let rs := ps.map (packOne mw w ea eb)
      (ea + 256 * eb, rs.map (·.1), rs.foldl (fun f r => f.or r.2) {})

/-- The element pair of a lane as read for BPACK, flushed under the lane's FTZ (R176). -/
def Ctx.bxPair (c : Ctx) (f : FmtA) (l : Nat) : List Num × Bool :=
  if !c.pLanes.contains l then ([.fin false 0 0, .fin false 0 0], false)
  else match lookup l c.g.members with
    | none => ([.fin false 0 0, .fin false 0 0], false)
    | some t =>
      let v := (src64 c.g t f.sA f.a).toNat
      let (lo, f1) := f32.flush (ftzOf t.fpcr) (v % 2 ^ 32)
      let (hi, f2) := f32.flush (ftzOf t.fpcr) (v / 2 ^ 32)
      ([f32.decode lo, f32.decode hi], f1 || f2)

/-- BPACK (R189): one block of the 64 elements of the group's lanes; every lane of P gets its two codes, the scale and
the block's flags. A flushed input sets UF (R176).
DEDUCED (unsafe): notes/assumptions/76.md. -/
def execBpack (f : FmtA) (s : State) : Host.Outcome State Fault Refusal :=
  regInstr (.bpack f) s fun c l _ =>
    let fmt := f.var.toNat % 4
    let prs := (List.range 32).map fun i => c.bxPair f i
    let (scale, codes, fl) := packBlock fmt (prs.flatMap (·.1))
    let fl := fl.or { uf := prs.any (·.2) }
    let lo := codes[2 * l]?.getD 0
    let hi := codes[2 * l + 1]?.getD 0
    ({ regs := [(f.d.toNat, w32 (lo + hi * 2 ^ bxWidth fmt + scale * 65536))] } : Out).flagged fl

/-- BUNPK (R190): the two codes of A under a scale halfword of B as binary32, exact but for flushing. -/
def execBunpk (f : FmtA) (s : State) : Host.Outcome State Fault Refusal :=
  regInstr (.bunpk f) s fun c _ t =>
    let fmt := f.var.toNat % 4
    let w := bxWidth fmt
    let a := (src32 c.g t f.sA f.a).toNat
    let b := (src32 c.g t f.sB f.b).toNat
    let scale := if f.var.getLsbD 2 then b / 65536 else b % 65536
    let conv (code : Nat) : Nat × Flags := f32.roundNum .rne (ftzOf t.fpcr) (fromBx fmt code scale)
    let (lo, f1) := conv (a % 2 ^ w)
    let (hi, f2) := conv (a / 2 ^ w % 2 ^ w)
    ({ regs := pairOut f.d.toNat (d64 (lo + 2 ^ 32 * hi)) } : Out).flagged (f1.or f2)

/-- The shift of one scale halfword (R191). -/
def bexpOne (h : Nat) (b : Int) : Nat × Flags :=
  let ea : Int := (h % 256 : Nat)
  let eb : Int := (h / 256 : Nat)
  if ea == 0 || ea == 255 then (h, {})
  else if 255 ≤ ea + b then (255, { of := true })
  else if ea + b ≤ 0 then (0, { uf := true })
  else if eb != 0 && 256 ≤ eb + b then (255, { of := true })
  else if eb == 0 || eb + b ≤ 0 then ((ea + b).toNat, { uf := eb != 0 })
  else ((ea + b).toNat + 256 * (eb + b).toNat, {})

/-- BEXP (R191). -/
def execBexp (f : FmtA) (s : State) : Host.Outcome State Fault Refusal :=
  regInstr (.bexp f) s fun c _ t =>
    let a := (src32 c.g t f.sA f.a).toNat
    let b := (src32 c.g t f.sB f.b).toInt
    let (lo, f1) := bexpOne (a % 65536) b
    let (hi, f2) := bexpOne (a / 65536) b
    ({ regs := [(f.d.toNat, w32 (lo + 65536 * hi))] } : Out).flagged (f1.or f2)

end Sys2Proof.Machine
end

