-- ==== Sys2Proof/Machine/Attrib.lean ====
section
/-! DEFINITION. Critical-path attribution: what events carry (R288), wakes (R290), edge logs and sample rings (R291,
R292, R294). -/

namespace Sys2Proof.Machine

/-- What an event of this thread carries (R288). -/
def State.carry (s : State) (w : Who) (t : Thread) : Attr := ⟨t.pathtok, s.agentOf w, t.seq⟩

/-! ## Rings (R292) -/

/-- A ring's registers. -/
structure Ring where
  base : DWord
  size : DWord
  head : DWord
  tail : DWord
  drop : Nat
  lost : Nat
deriving DecidableEq, Repr

def Ring.room (r : Ring) : Nat := r.tail.toNat + 2 ^ ringK r.size - r.head.toNat
def Ring.dropMode (r : Ring) : Bool := r.size.getLsbD 8

def gapBytes (lost : Nat) : List Byte :=
  leBytes 4 0xFFFFFFFF ++ leBytes 4 0 ++ leBytes 4 lost ++ leBytes 8 0 ++ leBytes 4 5 ++ leBytes 8 0

/-- A record put at the head, which rises after the write; a record that memory refuses is lost. -/
def State.ringPut (s : State) (r : Ring) (bs : List Byte) : State × Ring :=
  match s.ringWrite r.base r.size r.head bs with
  | some s => (s, { r with head := r.head + d64 bs.length })
  | none => (s, r)

/-- A record appended, or dropped in drop mode when the ring is full, with the gap record first (R292); the last
component says whether it was dropped. -/
def State.ringAppend (s : State) (r : Ring) (gaps : Bool) (bs : List Byte) : State × Ring × Bool :=
  if ringK r.size == 0 then (s, r, false)
  else if !r.dropMode then
    let (s, r) := s.ringPut r bs
    (s, r, false)
  else
    let (s, r) := if gaps && r.lost != 0 && 32 ≤ r.room then
        let (s, x) := s.ringPut r (gapBytes r.lost)
        (s, if x.head == r.head then r else { x with lost := 0 })
      else (s, r)
    if bs.length ≤ r.room then
      let (s, r) := s.ringPut r bs
      (s, r, false)
    else (s, { r with drop := (r.drop + 1) % 2 ^ 32, lost := r.lost + 1 }, true)

/-- A core's edge log (b = 0xA01) or sample ring (b = 0xA09). -/
def Core.ring (c : Core) (b : Nat) : Ring :=
  ⟨c.reg b, c.reg (b + 1), c.reg (b + 2), c.reg (b + 3), (c.reg (b + 4)).toNat, if b == 0xA01 then c.lost else 0⟩
def Core.setRing (c : Core) (b : Nat) (r : Ring) : Core :=
  let c := (c.setRegRaw (b + 2) r.head).setRegRaw (b + 4) (d64 r.drop)
  if b == 0xA01 then { c with lost := r.lost } else c

/-- A record of a core's edge log (R292); an edge record written, and any record dropped, is a raw event (R295).
DEDUCED (unsafe): notes/assumptions/70.md. -/
def State.logCore (s : State) (core : Nat) (edge : Bool) (bs : List Byte) : State :=
  let r := (s.core core).ring 0xA01
  if ringK r.size == 0 then s
  else
    let (s, r, dropped) := s.ringAppend r true bs
    let s := s.modCore core fun c => c.setRing 0xA01 r
    if edge || dropped then s.raise core 0x0F (if dropped then 1 else 0) 7 1 else s

/-- The die's log (R338). -/
def Die.ring (d : Die) : Ring :=
  ⟨d.reg 0x0D0, d.reg 0x0D8, d.reg 0x0E0, d.reg 0x0E8, (d.reg 0x0F0).toNat, d.lost⟩
def Die.setRing (d : Die) (r : Ring) : Die :=
  { (d.setReg 0x0E0 r.head).setReg 0x0F0 (d64 r.drop) with lost := r.lost }
def State.logDie (s : State) (die : Nat) (bs : List Byte) : State :=
  let (s, r, _) := s.ringAppend (s.die die).ring true bs
  s.modDie die fun d => d.setRing r

/-! ## Records (R291) -/

def recordBytes (agent seq x y cycles : Nat) (typ wkind hops len : Nat) : List Byte :=
  leBytes 4 agent ++ leBytes 4 seq ++ leBytes 4 x ++ leBytes 4 y ++ leBytes 4 (min cycles 0xFFFFFFFF) ++
  leBytes 4 (typ + 16 * wkind + 256 * hops) ++ leBytes 8 len

/-- Own cycles as reference cycles (R4); fabric cycles as reference cycles. -/
def refCycles (lat : Bool) (n : Nat) : Nat := if lat then 11 * n / 30 else n
def fabricCycles (n : Nat) : Nat := 22 * n / 35

/-- A wake from a wait in which the thread blocked for so many own cycles (R290): the token of the completing event
with one hop more, or the own length with the blocked cycles; SEQ rises; a long wait leaves an edge record. -/
def State.wakeBy (s : State) (w : Who) (a : Option Attr) (cycles wkind : Nat) : State :=
  match s.thread? w with
  | none => s
  | some t =>
    let lat := isLatency w.slot
    let t1 : Thread := match a with
      | some x => { t with pathtok := tokenOf (hopsOf x.token + 1) (lenOf x.token), seq := t.seq + 1 }
      | none => { t.grow lat cycles with seq := t.seq + 1 }
    let s := s.setThread w t1
    let core := coreOfSlot w.slot
    if ((s.core core).reg 0x804).toNat < cycles then
      let (p, q) := match a with
        | some x => (x.agent.toNat, x.seq.toNat)
        | none => (0xFFFFFFFF, 0)
      s.logCore core true (recordBytes (s.agentOf w).toNat t1.seq.toNat p q (refCycles lat cycles) 1 wkind
        (hopsOf t1.pathtok) (lenOf t1.pathtok))
    else s

/-- STEP and PTAG (R150): SEQ rises, then a record of the type with an id.
DEDUCED (unsafe): notes/assumptions/72.md. -/
def State.stepRecord (s : State) (w : Who) (t : Thread) (typ : Nat) (id : Word) : State :=
  let t1 := { t with seq := t.seq + 1, pathtok := if typ == 2 then t.pathtok &&& 0xFFF0000000000000 else t.pathtok }
  let hops := if typ == 4 then 0 else hopsOf t1.pathtok
  let len := if typ == 3 then lenOf t1.pathtok else 0
  (s.setThread w t1).logCore (coreOfSlot w.slot) false
    (recordBytes (s.agentOf w).toNat t1.seq.toNat id.toNat 0 0 typ 0 hops len)

/-! ## Latency samples (R294) -/

/-- What may have served a sampled request (R294, R344): a peer, a device; a load any cache or its memory, an access that
writes no L1. Which it was the caches decide. -/
def servers (t : Kind) (unit kind : Nat) : List Nat :=
  match t with
  | .peer => [6]
  | .device => [7]
  | _ => (if kind == 0 || kind == 3 then [0, 1, 2] else [1, 2]) ++ (if unit < 16 then [3, 4] else [5])
/-- What served it, by a free choice. -/
def servedBy (t : Kind) (unit kind free : Nat) : Nat :=
  let xs := servers t unit kind
  xs.getD (Config.freeChoice free % xs.length) 0
/-- The stations a sampled request passed where the spec fixes it (R289, R294), in the order of the sample: L1, crossbar, L2
slice, UCIe link, memory controller, fabric port. -/
def passed (t : Kind) (served : Nat) (far : Bool) : List Bool :=
  match t with
  | .local_ => [true, served != 0, served != 0, served != 0 && (far || served == 2), 3 ≤ served, false]
  | _ => List.replicate 6 true

/-- An eligible request counted; true if it is tagged. -/
def State.sample (s : State) (core : Nat) : State × Bool :=
  let per := ((s.core core).reg 0xA08).toNat
  if per == 0 then (s, false)
  else
    let n := (s.core core).samples + 1
    (s.modCore core fun c => { c with samples := if per ≤ n then 0 else n }, per ≤ n)

/-- The sample of a request that returned so many own cycles after its issue, from a memory unit, a peer or a device: the
queueing at the stations it passed is a free value.
DESIGN CHOICE (safe): notes/assumptions/3.md. -/
def State.writeSample (s : State) (w : Who) (pc va : DWord) (kind : Nat) (k : Kind) (unit peer cycles : Nat) : State :=
  let core := coreOfSlot w.slot
  let st := s.stamp
  let by_ := servedBy k unit kind st
  let die := if k == .local_ then unitDie unit else 0
  let queued := (passed k by_ (die != dieOfCore core)).zipIdx.map fun x =>
    if x.1 then (Config.freeWord st (x.2 + 1)).toNat else 0
  let bs := leBytes 8 pc.toNat ++ leBytes 8 va.toNat ++ leBytes 4 (s.agentOf w).toNat ++
    leBytes 4 (kind + 4 * by_ + 64 * die + 512 * peer) ++ leBytes 4 (refCycles (isLatency w.slot) cycles) ++
    leBytes 4 0 ++ queued.flatMap (leBytes 4) ++ leBytes 8 0
  let (s, r, _) := s.bump.ringAppend ((s.core core).ring 0xA09) false bs
  s.modCore core fun c => c.setRing 0xA09 r

end Sys2Proof.Machine
end

