-- ==== Sys2Proof/Machine/Crypto.lean ====
section
/-! DEFINITION. The arithmetic that the management controller and the fabric ports use: SHA-256 (FIPS 180-4) and ECDSA on
P-256 (FIPS 186-5), which R330 to R335 name, and the CRC-32C of R364. -/

namespace Sys2Proof.Machine

/-! ## SHA-256 -/

/-- The first half of the round constants. -/
def shaK0 : List Word :=
  [0x428A2F98, 0x71374491, 0xB5C0FBCF, 0xE9B5DBA5, 0x3956C25B, 0x59F111F1, 0x923F82A4, 0xAB1C5ED5,
   0xD807AA98, 0x12835B01, 0x243185BE, 0x550C7DC3, 0x72BE5D74, 0x80DEB1FE, 0x9BDC06A7, 0xC19BF174,
   0xE49B69C1, 0xEFBE4786, 0x0FC19DC6, 0x240CA1CC, 0x2DE92C6F, 0x4A7484AA, 0x5CB0A9DC, 0x76F988DA,
   0x983E5152, 0xA831C66D, 0xB00327C8, 0xBF597FC7, 0xC6E00BF3, 0xD5A79147, 0x06CA6351, 0x14292967]
/-- The second half of the round constants. -/
def shaK1 : List Word :=
  [0x27B70A85, 0x2E1B2138, 0x4D2C6DFC, 0x53380D13, 0x650A7354, 0x766A0ABB, 0x81C2C92E, 0x92722C85,
   0xA2BFE8A1, 0xA81A664B, 0xC24B8B70, 0xC76C51A3, 0xD192E819, 0xD6990624, 0xF40E3585, 0x106AA070,
   0x19A4C116, 0x1E376C08, 0x2748774C, 0x34B0BCB5, 0x391C0CB3, 0x4ED8AA4A, 0x5B9CCA4F, 0x682E6FF3,
   0x748F82EE, 0x78A5636F, 0x84C87814, 0x8CC70208, 0x90BEFFFA, 0xA4506CEB, 0xBEF9A3F7, 0xC67178F2]

/-- The eight working variables. -/
structure Sha where
  a : Word
  b : Word
  c : Word
  d : Word
  e : Word
  f : Word
  g : Word
  h : Word
deriving DecidableEq, Repr

def shaInit : Sha :=
  ⟨0x6A09E667, 0xBB67AE85, 0x3C6EF372, 0xA54FF53A,
   0x510E527F, 0x9B05688C, 0x1F83D9AB, 0x5BE0CD19⟩

def rotr (x : Word) (n : Nat) : Word := x.rotateRight n

/-- One round with its constant and message word. -/
def shaRound (v : Sha) (k w : Word) : Sha :=
  let s1 := rotr v.e 6 ^^^ rotr v.e 11 ^^^ rotr v.e 25
  let ch := (v.e &&& v.f) ^^^ (~~~v.e &&& v.g)
  let t1 := v.h + s1 + ch + k + w
  let s0 := rotr v.a 2 ^^^ rotr v.a 13 ^^^ rotr v.a 22
  let maj := (v.a &&& v.b) ^^^ (v.a &&& v.c) ^^^ (v.b &&& v.c)
  ⟨t1 + (s0 + maj), v.a, v.b, v.c, v.d + t1, v.e, v.f, v.g⟩

/-- The rounds of a block over a window of sixteen message words, the next word appended as each is used. -/
def shaRounds : List Word → List Word → Sha → Sha
  | k :: ks, w :: ws, v =>
    let x15 := ws.getD 0 0
    let x2 := ws.getD 13 0
    let s0 := rotr x15 7 ^^^ rotr x15 18 ^^^ (x15 >>> 3)
    let s1 := rotr x2 17 ^^^ rotr x2 19 ^^^ (x2 >>> 10)
    shaRounds ks (ws ++ [w + s0 + ws.getD 8 0 + s1]) (shaRound v k w)
  | _, _, v => v

def Sha.add (x y : Sha) : Sha :=
  ⟨x.a + y.a, x.b + y.b, x.c + y.c, x.d + y.d, x.e + y.e, x.f + y.f, x.g + y.g, x.h + y.h⟩

/-- The sixteen big-endian words of a block. -/
def shaWords (bs : List Byte) : List Word := (List.range 16).map fun i => w32 (beVal ((bs.drop (4 * i)).take 4))

def shaBlocks : Nat → List Byte → Sha → Sha
  | 0, _, v => v
  | n + 1, bs, v => shaBlocks n (bs.drop 64) (v.add (shaRounds (shaK0 ++ shaK1) (shaWords (bs.take 64)) v))

/-- The message with its padding. -/
def shaPad (bs : List Byte) : List Byte :=
  let n := bs.length
  bs ++ [0x80] ++ leBytes (roundUp (n + 9) 64 - (n + 9)) 0 ++ beBytes 8 (8 * n)

/-- SHA-256 of some bytes: 32 bytes.
PRESUMED (unsafe): notes/assumptions/15.md. -/
def sha256 (bs : List Byte) : List Byte :=
  let p := shaPad bs
  let v := shaBlocks (p.length / 64) p shaInit
  [v.a, v.b, v.c, v.d, v.e, v.f, v.g, v.h].flatMap fun x => beBytes 4 x.toNat

/-! ## ECDSA on P-256 -/

/-- The field's prime, the group's order, the curve's b, and the base point. -/
def ecP : Nat := 0xffffffff00000001000000000000000000000000ffffffffffffffffffffffff
def ecN : Nat := 0xffffffff00000000ffffffffffffffffbce6faada7179e84f3b9cac2fc632551
def ecB : Nat := 0x5ac635d8aa3a93e7b3ebbd55769886bc651d06b0cc53b0f63bce3c3e27d2604b
def ecG : Nat × Nat :=
  (0x6b17d1f2e12c4247f8bce6e563a440f277037d812deb33a0f4a13945d898c296,
   0x4fe342e2fe1a7f9b8ee7eb4a7c0f9e162bce33576b315ececbb6406837bf51f5)

/-- x to the power e modulo m, by the bits of e from the top: `fuel` of them. -/
def powMod (m x e : Nat) : Nat → Nat
  | 0 => 1 % m
  | fuel + 1 =>
    let r := powMod m x (e / 2) fuel
    if e % 2 == 1 then r * r % m * x % m else r * r % m
/-- The inverse modulo a 256-bit prime. -/
def invMod (m x : Nat) : Nat := powMod m (x % m) (m - 2) 256

/-- A point in Jacobian coordinates; z = 0 is the point at infinity. -/
structure EcPoint where
  x : Nat
  y : Nat
  z : Nat
deriving DecidableEq, Repr

def subP (a b : Nat) : Nat := (a + ecP - b) % ecP

/-- Twice a point (a = −3). -/
def EcPoint.double (q : EcPoint) : EcPoint :=
  if q.z == 0 || q.y == 0 then ⟨1, 1, 0⟩
  else
    let zz := q.z * q.z % ecP
    let yy := q.y * q.y % ecP
    let m := 3 * (subP q.x zz * ((q.x + zz) % ecP)) % ecP
    let s := 4 * (q.x * yy) % ecP
    let x := subP (m * m % ecP) (2 * s % ecP)
    ⟨x, subP (m * subP s x % ecP) (8 * (yy * yy) % ecP), 2 * (q.y * q.z) % ecP⟩

/-- The sum of two points. -/
def EcPoint.add (p q : EcPoint) : EcPoint :=
  if p.z == 0 then q
  else if q.z == 0 then p
  else
    let z1 := p.z * p.z % ecP
    let z2 := q.z * q.z % ecP
    let u1 := p.x * z2 % ecP
    let u2 := q.x * z1 % ecP
    let s1 := p.y * (q.z * z2 % ecP) % ecP
    let s2 := q.y * (p.z * z1 % ecP) % ecP
    if u1 == u2 then (if s1 == s2 then p.double else ⟨1, 1, 0⟩)
    else
      let h := subP u2 u1
      let r := subP s2 s1
      let hh := h * h % ecP
      let hhh := h * hh % ecP
      let v := u1 * hh % ecP
      let x := subP (subP (r * r % ecP) hhh) (2 * v % ecP)
      ⟨x, subP (r * subP v x % ecP) (s1 * hhh % ecP), h * (p.z * q.z % ecP) % ecP⟩

/-- k times a point, over `fuel` bits of k. -/
def EcPoint.mul (q : EcPoint) (k : Nat) : Nat → EcPoint
  | 0 => ⟨1, 1, 0⟩
  | fuel + 1 =>
    let r := (q.mul (k / 2) fuel).double
    if k % 2 == 1 then r.add q else r

/-- A point of the curve, its coordinates below the prime. -/
def onCurve (x y : Nat) : Bool :=
  x < ecP && y < ecP && y * y % ecP == (x * x % ecP * x + (ecP - 3) * x + ecB) % ecP

/-- The signature (r, s) over a message verifies with a key X then Y (R331, check 4): both values from 1 to n − 1.
PRESUMED (unsafe): notes/assumptions/15.md. -/
def ecdsaOk (key sig msg : List Byte) : Bool :=
  let x := beVal (key.take 32)
  let y := beVal ((key.drop 32).take 32)
  let r := beVal (sig.take 32)
  let s := beVal ((sig.drop 32).take 32)
  if r == 0 || ecN ≤ r || s == 0 || ecN ≤ s || !onCurve x y then false
  else
    let e := beVal (sha256 msg)
    let w := invMod ecN s
    let g : EcPoint := ⟨ecG.1, ecG.2, 1⟩
    let q := (g.mul (e * w % ecN) 256).add ((EcPoint.mk x y 1).mul (r * w % ecN) 256)
    if q.z == 0 then false
    else
      let zi := invMod ecP q.z
      q.x * (zi * zi % ecP) % ecP % ecN == r

/-! ## The package's identity (R329, R333) -/

/-- The affine coordinates of k times the base point. -/
def ecBase (k : Nat) : Nat × Nat :=
  let q := (EcPoint.mk ecG.1 ecG.2 1).mul k 256
  let zi := invMod ecP q.z
  (q.x * (zi * zi % ecP) % ecP, q.y * (zi * (zi * zi % ecP) % ecP) % ecP)
/-- A private key or nonce, from 1 to n − 1. -/
def ecScalar (x : Nat) : Nat := x % (ecN - 1) + 1
/-- The public half of a private key: X then Y. -/
def ecPublic (d : Nat) : List Byte := beBytes 32 (ecBase d).1 ++ beBytes 32 (ecBase d).2
/-- The signature (r, s) over a message by a private key, with the number k it draws (FIPS 186-5). -/
def ecdsaSign (d k : Nat) (msg : List Byte) : List Byte :=
  let r := (ecBase k).1 % ecN
  beBytes 32 r ++ beBytes 32 (invMod ecN k * ((beVal (sha256 msg) + r * d) % ecN) % ecN)

/-- The identity key pair: its private half is fixed at manufacture and free (R333). -/
def identityKey : List Byte := ecPublic (ecScalar Config.identitySecret)
def identitySign (bs : List Byte) : List Byte :=
  ecdsaSign (ecScalar Config.identitySecret) (ecScalar (Config.signingNonce bs)) bs
/-- SHA-256 of the ROM together with the patch in force (R333). -/
def romMeasure (patch : List Byte) : List Byte := sha256 (Config.rom ++ patch)

/-! ## CRC-32C -/

/-- The polynomial 0x1EDC_6F41, reflected. -/
def crcPoly : Word := 0x82F63B78

def crcBits : Nat → Word → Word
  | 0, c => c
  | n + 1, c => crcBits n (if c.getLsbD 0 then (c >>> 1) ^^^ crcPoly else c >>> 1)

/-- CRC-32C of bytes in transmission order.
PRESUMED (unsafe): notes/assumptions/12.md. -/
def crc32c (bs : List Byte) : Word := ~~~(bs.foldl (fun c b => crcBits 8 (c ^^^ b.setWidth 32)) 0xFFFFFFFF)

end Sys2Proof.Machine
end

