-- ==== Sys2Proof/Machine/Links.lean ====
section
/-! DEFINITION. Links of the fabric: channels and their states (R361, R366, R367, R393), flits and their CRC (R364), the
transmit queue, striping and the replay buffer (R365). -/

namespace Sys2Proof.Machine

/-! ## Channels (R361) -/

def starReg (c : Nat) : Nat := 0x1000 + 8 * c
def statReg (q : Nat) : Nat := 0x200 + 8 * q
def errReg (c : Nat) : Nat := 0x1800 + 8 * c
def State.star (s : State) (d c : Nat) : Nat := (s.freg d (starReg c)).toNat
def State.chanPeer (s : State) (d c : Nat) : Nat := s.star d c % 64
/-- STATE: 0 down, 1 active, 2 parked, 3 failed. -/
def State.chanState (s : State) (d c : Nat) : Nat := bitsOf (s.star d c) 9 8
/-- In service: EN of the channel and of the die's YCTL. -/
def State.chanOn (s : State) (d c : Nat) : Bool := bit (s.star d c) 12 && bit (s.freg d 0).toNat 8
/-- The channels in service of a die to a peer in a state, by number. -/
def State.chansTo (s : State) (d q st : Nat) : List Nat :=
  (List.range 256).filter fun c => s.chanPeer d c == q && s.chanState d c == st && s.chanOn d c
/-- Active channels of a die to a peer, PEERSTAT[15:8]. -/
def State.active (s : State) (d q : Nat) : Nat := bitsOf (s.freg d (statReg q)).toNat 15 8

/-- PEERSTAT of a die with its count of active channels brought up to date. -/
def State.recount (s : State) (d q : Nat) : State :=
  let v := (s.freg d (statReg q)).toNat
  s.setFreg d (statReg q) (d64 (v - 256 * bitsOf v 15 8 + 256 * ((s.chansTo d q 1).length % 256)))

/-- A channel's STATE changed. -/
def State.setChanState (s : State) (d c st : Nat) : State :=
  let v := s.star d c
  (s.setFreg d (starReg c) (d64 (v - 256 * bitsOf v 9 8 + 256 * st))).recount d (s.chanPeer d c)

/-- PEERSTAT[1:0] and the epoch of a peer on every S-die, in one step (R368). -/
def State.setPeerState (s : State) (q st epoch : Nat) : State :=
  each (fun d s => s.setFreg d (statReg q)
    (d64 (bitsOf (s.freg d (statReg q)).toNat 15 8 * 256 + st + epoch % 65536 * 65536))) [0, 1, 2, 3] s
def State.epochOf (s : State) (q : Nat) : Nat := bitsOf (s.freg 0 (statReg q)).toNat 31 16

/-! ## Links -/

def Link.fresh : Link :=
  { nextSeq := 0, replay := [], expect := 0, naked := false, replays := 0, queue := [], sent := 0, received := 0, naks := 0,
    replayed := 0, low := 0, idle := 0 }
def State.link (s : State) (d q : Nat) : Link := get (s.die d).links q .fresh
def State.modLink (s : State) (d q : Nat) (f : Link → Link) : State :=
  s.modDie d fun x => { x with links := put q (f (get x.links q .fresh)) x.links }

/-- Flits go over channels in turn, round-robin from the one after the last (R365). -/
def Link.spread (cs : List Nat) : Nat → Link → Link
  | 0, l => l
  | n + 1, l => match nextAfter l.last cs with
    | none => l
    | some c => Link.spread cs n { l with last := c, lanes := put c (get l.lanes c 0 + 1) l.lanes }
/-- The last n flits outstanding are sent again over the channels, in order: one replay (R365, R366). -/
def Link.resend (l : Link) (cs : List Nat) (n : Nat) : Link :=
  Link.spread cs n { l with sent := l.sent + n, replayed := l.replayed + 1, idle := 0 }
/-- The S-die whose channels carry an S-die's link to a peer: its own; where that link has no active channel, the S-die with the
most (R366). -/
def State.portDie (s : State) (d q : Nat) : Nat :=
  if s.active d q != 0 then d
  else [0, 1, 2, 3].foldl (fun b x => if s.active b q < s.active x q then x else b) d
/-- The channels that a link's flits go over. -/
def State.stripeOf (s : State) (d q : Nat) : List Nat := s.chansTo (s.portDie d q) q 1

/-- Every parked channel of a link is being woken (R367), one that is already goes on. -/
def State.wakeAll (s : State) (d q : Nat) : State :=
  each (fun c s => s.modDie d fun x => { x with waking := put c (get x.waking c 0) x.waking }) (s.chansTo d q 2) s

/-- A channel failed (R366): its STATE, the resend of what is outstanding over the remaining channels, the wake of parked
ones, and the health events. -/
def State.failChannel (s : State) (d c : Nat) : State :=
  let q := s.chanPeer d c
  let was := s.active d q
  let s := (s.setChanState d c 3).modDie d fun x => { x with waking := del c x.waking }
  let s := if (s.link d q).replay.isEmpty then s else s.modLink d q fun l => l.resend (s.stripeOf d q) l.replay.length
  let min_ := bitsOf (s.freg d 0x010).toNat 39 32
  let s := if s.active d q < min_ then s.wakeAll d q else s
  let s := s.health 0x11 1 d c 0 (d64 c)
  if was != 0 && s.active d q == 0 then s.health 0x12 2 d q 0 (d64 q) else s

/-- The eighth replay in a row without progress fails every channel of the link (R365).
DEDUCED (unsafe): notes/assumptions/60.md. -/
def State.replayLink (s : State) (d q : Nat) : State :=
  if (s.link d q).replay.isEmpty then s
  else
    let s := s.modLink d q fun l => { l.resend (s.stripeOf d q) l.replay.length with replays := l.replays + 1 }
    if (s.link d q).replays < 8 then s else each (fun c s => s.failChannel d c) (s.chansTo d q 1) s

/-! ## Flits (R364) -/

def flitHdr (src dst seq typ hops len tag : Nat) : BitVec 96 :=
  BitVec.ofNat 96 (src * 2 ^ 90 + dst * 2 ^ 84 + seq % 4096 * 2 ^ 72 + typ * 2 ^ 68 + hops * 2 ^ 52 + len * 2 ^ 12 + tag % 4096)
def flitSrc (f : Flit) : Nat := bitsOf f.hdr.toNat 95 90
def flitDst (f : Flit) : Nat := bitsOf f.hdr.toNat 89 84
def flitSeq (f : Flit) : Nat := bitsOf f.hdr.toNat 83 72
def flitTyp (f : Flit) : Nat := bitsOf f.hdr.toNat 71 68
/-- Header and payload in transmission order, which the spec does not give: lowest byte first
(notes/assumptions/12.md).
PRESUMED (unsafe): notes/assumptions/12.md. -/
def flitBytes (f : Flit) : List Byte := leBytes 12 f.hdr.toNat ++ f.payload
/-- A flit given its SEQ and CRC.
PRESUMED (unsafe): notes/assumptions/12.md. -/
def flitSeal (f : Flit) (seq : Nat) : Flit :=
  let h := flitHdr (flitSrc f) (flitDst f) seq (flitTyp f) (bitsOf f.hdr.toNat 63 52) (bitsOf f.hdr.toNat 51 12) (f.hdr.toNat % 4096)
  { f with hdr := h, crc := crc32c (leBytes 12 h.toNat ++ f.payload) }
/-- What R364 treats as a CRC error on a channel of a peer.
PRESUMED (unsafe): notes/assumptions/12.md. -/
def State.flitBad (s : State) (peer : Nat) (f : Flit) : Bool :=
  f.payload.length != 64 || crc32c (flitBytes f) != f.crc || 7 ≤ flitTyp f || flitDst f != s.pkg || flitSrc f != peer

/-- The S-die whose link a core of a die sends a peer's traffic on: its own, for an L-die's core the first in nearest order.
PRESUMED (unsafe): notes/assumptions/12.md. -/
def linkDie (d : Nat) : Nat := if d < 4 then d else if d == 4 then 0 else 2
/-- The payload of a write's data: its bytes at their places in the line. -/
def linePayload (cells : Memory) : List Byte := (List.range 64).map fun i => get (cells.map fun c => (c.1 % 64, c.2)) i 0

/-- A request to a peer enters the transmit queue: a request flit, the data of a write, an attribution (R364, R365).
DEDUCED (unsafe): notes/assumptions/60.md. -/
def State.transmit (s : State) (core q tag : Nat) (data : Option Memory) (attr : Option Attr) : State :=
  let d := linkDie (dieOfCore core)
  let tok := (attr.map fun a => a.token.toNat).getD 0
  let mk (typ : Nat) (p : List Byte) : Flit :=
    { hdr := flitHdr s.pkg q 0 typ (bitsOf tok 51 40) (tok % 2 ^ 40) tag, payload := p, crc := 0 }
  let req := mk 1 ((List.range 64).map fun i => Config.freeByte s.stamp i)
  let wr := match data with
    | some c => [mk 2 (linePayload c)]
    | none => []
  let at_ := match attr with
    | some a => [mk 4 (leBytes 4 a.agent.toNat ++ leBytes 4 a.seq.toNat ++ leBytes 56 0)]
    | none => []
  s.bump.modLink d q fun l => { l with queue := l.queue ++ req :: (wr ++ at_) }

/-- The response to a request of a peer enters the transmit queue of a die's link, with the request's tag and the bytes read, at
their places in the line (R364).
PRESUMED (unsafe): notes/assumptions/12.md. -/
def State.respond3 (s : State) (die q tag : Nat) (data : Memory) : State :=
  let f : Flit := { hdr := flitHdr s.pkg q 0 3 0 0 tag, payload := linePayload data, crc := 0 }
  s.modLink (linkDie die) q fun l => { l with queue := l.queue ++ [f] }

/-- A receiver's acknowledge flit enters the transmit queue (R365). What it holds beside its TYPE is free: R364 gives it no
layout (notes/assumptions/60.md). -/
def State.ackFlit (s : State) (d q : Nat) : State :=
  let any_ (i : Nat) : Nat := (Config.freeByte s.stamp i).toNat
  let f : Flit := { hdr := flitHdr s.pkg q 0 5 0 0 (any_ 64 + 256 * any_ 65),
                    payload := (List.range 64).map fun i => Config.freeByte s.stamp i, crc := 0 }
  s.bump.modLink d q fun l => { l with queue := l.queue ++ [f] }
/-- A cumulative acknowledge is due: 64 flits, or 256 fabric cycles (R365). -/
def Link.ackDue (l : Link) : Bool := 64 ≤ l.owes || (l.owes != 0 && 256 ≤ l.owesFor)
/-- The acknowledge that is due is sent. -/
def State.payAck (s : State) (d q : Nat) : State :=
  if !(s.link d q).ackDue then s
  else (s.modLink d q fun l => { l with owes := 0, owesFor := 0 }).ackFlit d q

/-- Up to `n` flits of the queue are sent over the channels in turn, while the replay buffer of 256 has room. -/
def Link.stripe (l : Link) (cs : List Nat) : Nat → Link
  | 0 => l
  | n + 1 => match l.queue with
    | [] => l
    | f :: fs =>
      if 256 ≤ l.replay.length then l
      else (Link.spread cs 1 { l with queue := fs, replay := l.replay ++ [flitSeal f l.nextSeq],
                                      nextSeq := (l.nextSeq + 1) % 4096, sent := l.sent + 1 }).stripe cs n

/-- The parked channel that a wake takes: the fewest on-hours, the lower number on a tie (R393). -/
def State.wakeOne (s : State) (d q : Nat) : State :=
  let cs := (s.chansTo d q 2).filter fun c => (lookup c (s.die d).waking).isNone
  let hours (c : Nat) : Nat := get (s.die d).hours c 0
  match cs.foldl (fun (b : Option Nat) c => match b with
      | none => some c
      | some x => if hours c < hours x then some c else some x) none with
  | some c => s.modDie d fun x => { x with waking := put c 0 x.waking }
  | none => s

/-- One fabric cycle of a link: flits go out, an acknowledge that is due is sent, the counts of R365 and R367 move; a queue that
comes to PARKHI wakes one parked channel.
DEDUCED (unsafe): notes/assumptions/60.md. -/
def State.linkCycle (s : State) (d q : Nat) : State :=
  let lo := (s.freg d 0x010).toNat % 65536
  let hi := bitsOf (s.freg d 0x010).toNat 31 16
  let l := s.link d q
  let up := hi ≤ l.queue.length
  let wake := up && !l.high
  let l := { l with low := if l.queue.length < lo then l.low + 1 else 0, idle := if l.replay.isEmpty then 0 else l.idle + 1,
                    owesFor := if l.owes == 0 then 0 else l.owesFor + 1, high := up }
  let s := (s.modLink d q fun _ => l.stripe (s.stripeOf d q) (s.stripeOf d q).length).payAck d q
  if wake then s.wakeOne d q else s

/-- The agent id, less its package and die, of a channel's port (R3). -/
def portKey (c : Nat) : Nat := c / 16 * 2 ^ 17 + c % 16 * 128 + 2
/-- One fabric cycle of an S-die: its links, those without a flit so far too, the on-hours of its lasers in quarters (R393), the
ERRTHR window, the channels being woken, the tokens of its ports (R287). A laser is lit from when its channel has EN until it
fails: at a quarter where it is parked.
DEDUCED (unsafe): notes/assumptions/60.md. -/
def State.fabricCycle (s : State) (d : Nat) : State :=
  let win := bitsOf (s.freg d 0x020).toNat 47 16
  let t := (s.die d).ticks + 1
  let qs := ((s.die d).links.map (·.1) ++ (List.range 64).filter fun q => s.active d q != 0).eraseDups
  let s := each (fun q s => s.linkCycle d q) qs s
  let on := ((s.die d).fabric.filter fun r => 0x1000 ≤ r.1 && r.1 < 0x1800 && bit r.2.toNat 12).filterMap fun r =>
    let st := bitsOf r.2.toNat 9 8
    if st == 3 then none else some ((r.1 - 0x1000) / 8, if st == 2 then 1 else 4)
  let lens := each (fun (h : Nat × Nat) m => withToken (portKey h.1) (22 * (t - 1) / 35) m) on (s.die d).tokens
  s.modDie d fun x => { x with
    ticks := t, tokens := growKind 2 (22 * t / 35 - 22 * (t - 1) / 35) lens, hours := each (fun h m => put h.1 (get m h.1 0 + h.2) m) on x.hours,
    window := if t % (max 1 win) == 0 then [] else x.window,
    waking := x.waking.map fun w => (w.1, w.2 + 1) }

/-- One fabric cycle of the peers that no S-die has a channel to in service, active or parked (R363, R368). -/
def State.lossCycle (s : State) : State :=
  if s.domain == 1 then s
  else
    let used (q : Nat) : Bool := [0, 1, 2, 3].any fun d => s.active d q != 0 || !(s.chansTo d q 2).isEmpty
    let count (q : Nat) : Option (Nat × Nat) :=
      if q == s.pkg || s.peerState q == 2 || used q then none else some (q, get s.ctrl.down q 0 + 1)
    s.modCtrl fun c => { c with down := (List.range s.domain).filterMap count }
/-- A peer is lost: no channel for LOSSTO cycles, or a reset notice (R363, R368). -/
def State.lossDue (s : State) (p : Nat) : Bool :=
  (s.freg 0 0x028).toNat ≤ get s.ctrl.down p 0 || [0, 1, 2, 3].any fun d => (s.link d p).notice
/-- The reset notices a package sends as it begins a reset: a link-control flit on every channel in service (R368).
PRESUMED (unsafe): notes/assumptions/12.md. -/
def State.resetNotices (s : State) : List (Nat × Flit) :=
  if s.domain == 1 then [] else [0, 1, 2, 3].flatMap fun d => ((List.range 256).filter fun c =>
      s.chanOn d c && (s.chanState d c == 1 || s.chanState d c == 2)).map fun c =>
    let q := s.chanPeer d c
    (256 * d + c, flitSeal { hdr := flitHdr s.pkg q 0 6 0 0 0, payload := (List.range 64).map fun i => Config.freeByte s.stamp i,
                             crc := 0 } (s.link d q).nextSeq)

end Sys2Proof.Machine
end

