-- ==== Sys2Proof/Machine/Path.lean ====
section
/-! DEFINITION. The path of a thread's accesses: write-combining entries and their drains (R67 to R73), requests in
flight, what an access waits for (R49, R204), the atomic operations (R200 to R202), and performing a request where it
arrives (R194). Everything is performed in the one order of the steps (notes/assumptions/1.md). -/

namespace Sys2Proof.Machine

/-! ## Destinations -/

def Target.dest (t : Target) : Dest :=
  match t.kind with
  | .peer => .peer t.peer t.mirror
  | _ => .unit t.unit
def Req.target (r : Req) (u : Nat) : Target := ⟨.local_, r.pa, unitDie u, u, 0, none, r.pin, r.sparse⟩

def State.peerRead (s : State) (p : Nat) (mirror : Option Nat) (pa n : Nat) : Option (List Byte) :=
  (s.servingPeer p mirror).map fun q => memRead (s.peerMem q) pa n

/-- A write at a peer: to the primary and the mirror, whichever are up (R72, R73), with the attribution it carries. -/
def State.peerWrite (s : State) (p : Nat) (mirror : Option Nat) (cells : Memory) (attr : Option Attr) : State :=
  let s := if s.peerState p == 1 then s.writePeer p cells (s.flightTo p attr) else s
  match mirror with
  | some m => if s.peerState m == 1 then s.writePeer m cells (s.flightTo m attr) else s
  | none => s

/-- The datum of a failed access over several lines (R152): the first line's VA that fails, or the peer of cause 0x06. -/
def State.badDatumFrom (s : State) (core asid cause : Nat) (sup : Bool) (acc : Acc) (va : DWord) : Nat → DWord
  | 0 => va
  | fuel + 1 => match s.translate core asid sup va acc with
    | .error c => if c == cause then va else s.badDatumFrom core asid cause sup acc (va + 64) fuel
    | .ok (t, _) =>
      if t.kind == .peer && cause == 6 && (s.servingPeer t.peer t.mirror).isNone then d64 t.peer
      else if t.kind == .local_ && (s.memFault t 64 (acc != .write)).isSome then va
      else s.badDatumFrom core asid cause sup acc (d64 ((va.toNat / 64 + 1) * 64)) fuel
def State.badDatum (s : State) (core asid cause : Nat) (sup : Bool) (acc : Acc) (va : DWord) (n : Nat) : DWord :=
  s.badDatumFrom core asid cause sup acc va (lines n)

/-! ## Requests in flight -/

/-- A request with nothing but what it does, and where. -/
def Req.plain (w : Who) (pa : Nat) (dest : Dest) (op : ReqOp) : Req :=
  { id := 0, who := w, pc := 0, va := 0, pa := pa, dest := dest, op := op, pin := false, reg := 0, acq := false,
    attr := none, tagged := false, cycles := 0, atMove := none, sc := 0, batch := 0, paid := [], glue := false, preds := [] }

/-- A request leaves the core with a number, the next or one that was kept for it; one for a peer enters the transmit queue
of a link (R365).
DESIGN CHOICE (unsafe): notes/assumptions/1.md. -/
def State.sendAs (s : State) (id : Nat) (r : Req) : State :=
  let s1 := { s with reqs := s.reqs ++ [{ r with id := id }], reqNo := max s.reqNo (id + 1) }
  match r.dest with
  | .peer p _ => s1.transmit r.who.core p id (match r.op with
      | .write cells _ => some cells
      | _ => none) r.attr
  | _ => s1
def State.send (s : State) (r : Req) : State := s.sendAs s.reqNo r

/-- A request in the program order of a thread: its own, or an SLD's, which counts for every member (R174). -/
def Req.of (r : Req) (w : Who) : Bool :=
  r.who == w || (r.who.slot == w.slot && match r.op with
    | .load _ _ (_ :: _) => true
    | _ => false)
/-- The thread has a read outstanding. -/
def State.readsOut (s : State) (w : Who) : Bool := s.reqs.any fun r => r.of w && r.reads
/-- The thread has a drain or store that is not performed yet. -/
def State.writesOut (s : State) (w : Who) : Bool := s.reqs.any fun r => r.who == w && r.isWrite
/-- A lane waits for an outstanding acquire (R49). -/
def State.acqOut (s : State) (w : Who) : Bool := s.reqs.any fun r => r.of w && r.acq
/-- A load of [pa, pa + n) waits: behind an outstanding acquire, or an own write or atomic to the bytes (R46, R49), and
where it would be performed at once behind an own load of them. -/
def State.loadWaits (s : State) (w : Who) (space pa n : Nat) : Bool :=
  s.reqs.any fun r => r.of w && (r.acq || ((!r.isLoad || !s.pace.late) && r.touches space pa n))
/-- A store or the write of an atomic waits for the thread's outstanding reads (R49: unconditional), and one performed
at once for own writes to the bytes. -/
def State.storeWaits (s : State) (w : Who) : Bool := s.readsOut w
def State.overlapOut (s : State) (w : Who) (space pa n : Nat) : Bool :=
  s.reqs.any fun r => r.who == w && r.touches space pa n

/-! ## Raw events of lines (R295) -/

/-! ## Credit (R283) -/

def State.takeEgress (s : State) (core p : Nat) : State :=
  (s.modCore core fun c => { c with egress := put p (get c.egress p 0 + 1) c.egress }).raise core 0x09 7 6 1
def State.giveEgress (s : State) (core p : Nat) : State :=
  s.modCore core fun c => { c with egress := put p (get c.egress p 0 - 1) c.egress }
def State.takeUcie (s : State) (core d : Nat) : State :=
  (s.modCore core fun c => { c with ucie := put d (get c.ucie d 0 + 1) c.ucie }).raise core 0x08 (dieOfCore core) d 1
def State.giveUcie (s : State) (core d : Nat) : State :=
  s.modCore core fun c => { c with ucie := put d (get c.ucie d 0 - 1) c.ucie }

/-- The credit a line takes at a destination: of each peer that is to hold it (R72), or of the die it lies on, by
numbers: peer p, or 64 + die. -/
def State.toll (s : State) (core : Nat) (d : Dest) : List Nat :=
  match d with
  | .peer p m => (p :: m.toList).filter fun q => s.peerState q == 1
  | .unit u => if unitDie u == dieOfCore core then [] else [64 + unitDie u]
  | .spad _ => []
def State.canPay (s : State) (core : Nat) (ks : List Nat) : Bool :=
  ks.all fun k => if k < 64 then s.egressCredit core k != 0 else s.ucieCredit core (k - 64) != 0
def State.pay (s : State) (core : Nat) (ks : List Nat) : State :=
  each (fun k s => if k < 64 then s.takeEgress core k else s.takeUcie core (k - 64)) ks s
/-- The credit a request took comes back, to where it was taken. -/
def State.payBack (s : State) (r : Req) : State :=
  each (fun k s => if k < 64 then s.giveEgress r.who.core k else s.giveUcie r.who.core (k - 64)) r.paid s

/-! ## Write-combining entries (R67 to R70) -/

/-- The owner of discarded bytes: it owes cause 0x06 to its next fence, release or departure; one that has ended or is
parked has a fault record queued in its place (R70). -/
def State.owe (s : State) (w : Who) (p : Nat) : State :=
  match s.group? w.slot with
  | none => s.queueFault (dieOfSlot w.slot) ⟨s.agentOf w, causeWord 6 0, 0, d64 p, w32 65536, 0⟩
  | some g => match lookup w.lane g.members with
    | none => s.queueFault (dieOfSlot w.slot) ⟨s.agentOf w, causeWord 6 0, 0, d64 p, w32 (g.asid + 65536), 0⟩
    | some t => match t.run with
      | .parked _ _ _ => s.queueFault (dieOfSlot w.slot) (s.recordOf w t g.asid (causeWord 6 0) t.pc (d64 p) 0)
      | _ => s.setThread w { t with owed := some (t.owed.getD p) }

def WcEntry.cells (e : WcEntry) : Memory := e.bytes.map fun b => (64 * e.line + b.1, b.2)

/-- An entry drains: its bytes leave the core for the home, or are discarded when no home can be reached. A line takes a
unit of credit toward each peer that is to hold it (R72, R283); where one has none, the entry waits to leave, in its place
among the thread's accesses.
DESIGN CHOICE (unsafe): notes/assumptions/1.md. -/
def State.drainAs (s : State) (core : Nat) (e : WcEntry) (glue : Bool) : State :=
  let dest := Dest.peer e.peer e.mirror
  let ks := s.toll core dest
  let gone := s.modCore core fun c => { c with wc := c.wc.filter fun x => !(x.peer == e.peer && x.line == e.line) }
  if (s.servingPeer e.peer e.mirror).isNone then gone.owe e.owner e.peer
  else
    let no := if e.leaving then e.no else s.reqNo
    if s.canPay core ks then
      (gone.pay core ks).sendAs no { Req.plain e.owner (64 * e.line) dest (.write e.cells true) with
        batch := e.turn, paid := ks, glue := glue || e.glue }
    else
      let leave := fun (x : WcEntry) =>
        if x.peer == e.peer && x.line == e.line then { x with leaving := true, no := no, glue := glue || e.glue } else x
      ({ s with reqNo := max s.reqNo (no + 1) }).modCore core fun c => { c with wc := c.wc.map leave }
def State.drain (s : State) (core : Nat) (e : WcEntry) : State := s.drainAs core e false

/-- Every entry of the core for which `f` holds drains, oldest first.
DEDUCED (unsafe): notes/assumptions/48.md. -/
def State.drainIf (s : State) (core : Nat) (f : WcEntry → Bool) : State :=
  each (fun e s => s.drain core e) ((s.core core).wc.filter f) s
/-- Entries that wait to leave go where credit has come back. -/
def State.leaveEntries (s : State) (core : Nat) : State := s.drainIf core WcEntry.leaving
def State.drainOwner (s : State) (w : Who) : State := s.drainIf (coreOfSlot w.slot) fun e => e.owner == w
def State.ownsEntry (s : State) (w : Who) : Bool := (s.core (coreOfSlot w.slot)).wc.any fun e => e.owner == w
def Core.entry (c : Core) (p line : Nat) : Option WcEntry := c.wc.find? fun e => e.peer == p && e.line == line

/-- Cells merged into an entry, which drains when all its 64 bytes are valid. -/
def State.merge (s : State) (core : Nat) (e : WcEntry) (cells : Memory) : State :=
  let e' := { e with bytes := each (fun c m => put (c.1 % 64) c.2 m) cells e.bytes, turn := s.turnNo }
  let s := s.modCore core fun c => { c with wc := c.wc.map fun x => if x.peer == e.peer && x.line == e.line then e' else x }
  if e'.bytes.length == 64 then s.drain core e' else s

/-! ## Trips: an access of one lane -/

/-- How a lane's access ends: gone (the lane has moved on), at issue still, blocked on allowance, or a cause. -/
inductive Trip where
  | go (s : State)
  | stay (s : State)
  | block (s : State)
  | fault (cause : Nat) (datum : DWord) (s : State)
  /-- A data breakpoint matched (R381), with its number. -/
  | brk (i : Nat) (s : State)
deriving DecidableEq, Repr

def Trip.isStay : Trip → Bool
  | .stay _ => true
  | _ => false

/-- A lane blocked on allowance (R36): out of issue in blocking mode, at issue in reporting mode. -/
def State.blockLane (s : State) (w : Who) : State :=
  let core := coreOfSlot w.slot
  if (s.core core).reg 0x1C8 == 0 then s.modThread w fun t => { t with run := .allowance } else s

/-! ## Breakpoints (R379 to R382) -/

/-- A breakpoint of the thread's die that matches the thread for an access kind (0 execute, 1 load, 2 store, 3 both) of
n bytes at an address; one that breaks a constraint of R380 never matches. -/
def State.bpMatch (s : State) (w : Who) (t : Thread) (asid kind : Nat) (va n i : Nat) : Bool :=
  let d := dieOfSlot w.slot
  let pa := (s.dreg d (0x440 + 32 * i)).toNat
  let c := (s.dreg d (0x448 + 32 * i)).toNat
  let m := s.dreg d (0x450 + 32 * i)
  let len := 2 ^ bitsOf c 11 8
  let k := bitsOf c 5 4
  let kinds := if kind == 0 then k == 0 else k != 0 && ((kind == 1 && k != 2) || (kind == 2 && k != 1) || kind == 3)
  bit c 0 && kinds && bitsOf c 63 48 == asid && pa < 2 ^ 48 && pa % len == 0 && bitsOf c 11 8 ≤ 12 &&
  (if k == 0 then len == 1 && va == pa else va < pa + len && pa < va + n) &&
  match bitsOf c 7 6 with
  | 0 => true
  | 1 => (s.agentOf w).setWidth 64 == m &&& 0xFFFFFFFF
  | 2 => t.cohort.toNat == bitsOf c 47 16 && t.wid == m
  | _ => false

/-- The lowest matching breakpoint. -/
def State.bpFor (s : State) (w : Who) (t : Thread) (asid kind : Nat) (va n : Nat) : Option Nat :=
  (List.range 8).find? fun i => s.bpMatch w t asid kind va n i

/-- A request to halt the package (R382, R383): the first stands. -/
def State.requestHalt (s : State) (cause : Nat) (agent : Word) : State :=
  if s.ctrl.halting.isSome then s else s.modCtrl fun c => { c with halting := some (cause, agent) }

/-- Breakpoint i is delivered (R381): a user trap where TOUSER and UBRK are set, else a fault; with STOPALL the package
is asked to halt (R382). The thread's PC is the instruction. -/
def State.takeBreak (s : State) (w : Who) (i : Nat) (pc : DWord) : State :=
  let d := dieOfSlot w.slot
  let ctl := (s.dreg d 0x400).toNat
  let datum := d64 (0x200 + i)
  let s := if bit ctl 1 then s.requestHalt 1 (s.agentOf w) else s
  if bit ctl 0 && (s.dreg d (0x448 + 32 * i)).getLsbD 15 then s.takeTrap w 0x0C datum pc
  else s.takeFault w (causeWord 0x0C 0) datum pc false

/-- The end of a lane's trip. -/
def State.endTrip (w : Who) (pc : DWord) : Trip → State
  | .go s => s
  | .stay s => s
  | .block s => s.blockLane w
  | .fault c d s => s.takeFault w (causeWord c 0) d pc false
  | .brk i s => s.takeBreak w i pc

/-- Some lane of P must stay at issue. -/
def tripStays (f : Ctx → Nat → Thread → State → Trip) (c : Ctx) (s : State) : Bool :=
  c.pLanes.any fun l => (s.thread? (c.who l)).any fun t => (f c l t s).isStay

/-- The body of a memory instruction: the whole subset stays at issue while some lane must (with the drains that the
lanes started); else the lanes go in increasing order (R198), those whose guard is false moving on. -/
def tripBody (f : Ctx → Nat → Thread → State → Trip) (c : Ctx) (s : State) : State :=
  if tripStays f c s then
    each (fun l s => match s.thread? (c.who l) with
      | some t => match f c l t s with
        | .stay s' => s'
        | _ => s
      | none => s) c.pLanes s
  else eachLane (fun c l t s => State.endTrip (c.who l) c.u.pc (f c l t s)) c s

def memInstr (i : Instr) (s : State) (f : Ctx → Nat → Thread → State → Trip) : Host.Outcome State Fault Refusal :=
  issue i s (tripBody f)

/-- A lane that goes on after its access (R131). -/
def State.goOn (s : State) (w : Who) (f : Thread → Thread) : Trip :=
  .go (s.modThread w fun t => (f t).advance (isLatency w.slot))

/-- What an arrival needs of a lane (R53, R69): its entries drained and its writes and reads performed. -/
def State.drained (s : State) (w : Who) (next : State → Trip) : Trip :=
  let s1 := s.drainOwner w
  if s.ownsEntry w || s1.writesOut w || s1.readsOut w then .stay s1 else next s1

/-- What a fence with acquire and release, or a departure, needs: a cause owed is taken first (R70). -/
def State.release (s : State) (w : Who) (t : Thread) (next : State → Trip) : Trip :=
  match t.owed with
  | some p => .fault 6 (d64 p) (s.modThread w fun t => { t with owed := none })
  | none => s.drained w next

/-- The thread has a drain that is not performed yet. -/
def State.drainsOut (s : State) (w : Who) : Bool := s.reqs.any fun r => r.who == w && r.isDrain
/-- What a release store or a fence with release alone needs: the same, or where the pace lets the release go early, its
reads and drains performed (R49, R69); other writes in flight it only precedes in its scope.
DESIGN CHOICE (unsafe): notes/assumptions/79.md. -/
def State.releaseEarly (s : State) (w : Who) (t : Thread) (next : State → Trip) : Trip :=
  if !s.pace.early then s.release w t next
  else match t.owed with
    | some p => .fault 6 (d64 p) (s.modThread w fun t => { t with owed := none })
    | none =>
      let s1 := s.drainOwner w
      if s.ownsEntry w || s1.drainsOut w || s1.readsOut w then .stay s1 else next s1
/-- The writes of a thread still in flight, as a release of a scope precedes them, with those its fences precede. -/
def State.before (s : State) (w : Who) (t : Thread) (sc : Nat) : List (Nat × Nat) :=
  (s.reqs.filter fun r => r.who == w && r.isWrite).map (fun r => (sc, r.id)) ++ s.live t.fences

/-! ## Atomics (R200, R202) -/

/-- The new value of an atomic on n bytes, none where a comparison fails. -/
def atomicNew (aop n old b c : Nat) : Option Nat :=
  let m : Nat := 2 ^ (8 * n)
  let sg (x : Nat) : Int := if bit x (8 * n - 1) then (x : Int) - (m : Int) else (x : Int)
  match aop with
  | 0 => some ((old + b) % m)
  | 1 => some (old &&& b)
  | 2 => some (old ||| b)
  | 3 => some (old ^^^ b)
  | 4 => some (if sg b < sg old then b else old)
  | 5 => some (if sg old < sg b then b else old)
  | 6 => some (if b < old then b else old)
  | 7 => some (if old < b then b else old)
  | 8 => some b
  | 9 => if old == c then some b else none
  | _ =>
    let f := if n == 4 then f32 else f64
    some (f.addNum .rne false (f.decode old) (f.decode b)).1

/-! ## Performing a request (R194) -/

/-- The loaded bytes of a request reach their register (R196): the lane's, or the group's s-register for SLD. -/
def State.deliver (s : State) (r : Req) (n : Nat) (sext : Bool) (lanes : List Nat) (bs : List Byte) : State :=
  if !lanes.isEmpty then
    s.modGroup r.who.slot fun g =>
      { g.setSreg r.reg (d64 (leVal bs)) with
        sLoaded := if r.reg == 0 then g.sLoaded else g.sLoaded.filter (· != 512 + r.reg) ++ [512 + r.reg] }
  else
    s.modThread r.who fun t => (t.write (loadWrites r.reg n sext bs)).mark (regSpan r.reg n)

/-- The register destination of a failed access is undefined (R401), and a load's still (R88). -/
def State.undefDest (s : State) (r : Req) : State :=
  let st := s.stamp
  let s := match r.op with
    | .load n _ lanes =>
      if !lanes.isEmpty then s.modGroup r.who.slot fun g =>
        { g.forget r.reg st with
          sLoaded := if r.reg == 0 then g.sLoaded else g.sLoaded.filter (· != 512 + r.reg) ++ [512 + r.reg] }
      else s.modThread r.who fun t => (t.forget (regSpan r.reg n) st).mark (regSpan r.reg n)
    | .atomic _ n _ _ _ _ => s.modThread r.who fun t => (t.forget (regSpan r.reg n) st).mark (regSpan r.reg n)
    | _ => s
  s.bump

/-- A failure learned after issue (R401): pending in the thread until its next boundary; the first one stands. -/
def State.defer (s : State) (w : Who) (pc : DWord) (cause : Nat) (datum : DWord) : State :=
  s.modThread w fun t => { t with deferred := some (t.deferred.getD ⟨pc, cause, datum⟩) }

/-- The kind code of a sample (R294). -/
def Req.sampleKind (r : Req) : Nat :=
  match r.op with
  | .write _ _ => 1
  | .atomic _ _ _ _ _ _ => 2
  | .load _ _ (_ :: _) => 3
  | _ => 0
def State.sampleReq (s : State) (r : Req) : State :=
  if !r.tagged then s
  else match r.dest with
    | .unit u => s.writeSample r.who r.pc r.va r.sampleKind .local_ u 0 r.cycles
    | .peer p _ => s.writeSample r.who r.pc r.va r.sampleKind .peer 0 p r.cycles
    | .spad _ => s

/-- A line that a copy channel sent could not be performed: its command meets ERR (R60, R216). -/
def State.badLine (s : State) (slot cause : Nat) : State :=
  let fail := fun (x : ChanCmd) => { x with bad := some (x.bad.getD cause) }
  let head := fun (ch : Chan) => { ch with cmds := (ch.cmds.take 1).map fail ++ ch.cmds.drop 1 }
  s.modCore (agentCore slot) fun c => { c with chans := modify (slotOf slot) head c.chans }

/-- A request that failed where it was to be performed (R401, R70).
DEDUCED (unsafe): notes/assumptions/46.md. -/
def State.failReq (s : State) (r : Req) (cause : Nat) (datum : DWord) : State :=
  let s := s.dropReq r.id
  match r.op with
  | .write _ true => s.owe r.who datum.toNat
  | .write _ false => if isChanSlot r.who.slot then s.badLine r.who.slot cause else s.defer r.who r.pc cause datum
  | .unstand _ => s
  | .load _ _ (l :: ls) =>
    each (fun l s => s.defer ⟨r.who.slot, l⟩ r.pc cause datum) (l :: ls) (s.undefDest r)
  | _ => (s.undefDest r).defer r.who r.pc cause datum

/-- The generation and the error of a sync word (R217). -/
def swGen (w : Nat) : Nat := bitsOf w 62 56
def swErr (w : Nat) : Bool := bit w 63

/-- A follow-on whose sync word has moved on enters the queue, discarded if its word has ERR (R229). -/
def Follow.due (x : Follow) (w : Nat) : Option MatCmd :=
  if swErr w then some { x.cmd with poison := true } else if swGen w != x.gen then some x.cmd else none
/-- The follow-ons of a group for which `due` answers enter its queue, in order of issue. -/
def Group.follow (g : Group) (due : Follow → Option MatCmd) : Group :=
  if g.follows.isEmpty then g
  else { g with follows := g.follows.filter fun x => (due x).isNone, queue := g.queue ++ g.follows.filterMap due }
/-- The follow-ons that a write to [off, off + n) of a scratchpad triggers, in the same step (R305). -/
def State.trigger (s : State) (core off n : Nat) : State :=
  let m := s.spadOf core
  let due (slot : Nat) (x : Follow) : Option MatCmd := match spadDecode (coreOfSlot slot) x.sync with
    | .ok (c, o) => if c == core && o < off + n && off < o + 8 then x.due (leVal (memRead m o 8)) else none
    | .error _ => none
  if s.groups.all fun g => g.2.follows.isEmpty then s else { s with groups := s.groups.map fun g => (g.1, g.2.follow (due g.1)) }

/-- Bytes written to a scratchpad; an attribution at a word they touch is gone (R288), a 64-byte unit written whole reads
well again, and a follow-on whose sync word they move on is triggered. -/
def State.spadWrite (s : State) (core off : Nat) (bs : List Byte) : State :=
  let n := bs.length
  ((s.setSpad core (memWrite (s.spadOf core) off bs)).modCore core fun x =>
    { x with marks := x.marks.filter (fun m => !(m.1 < off + n && off < m.1 + 8)),
             spoiled := x.spoiled.filter fun u => !(off ≤ u && u + 64 ≤ off + n) }).trigger core off n
/-- A byte of [off, off + n) of a scratchpad is in an uncorrectable unit (R152). -/
def State.spadBad (s : State) (core off n : Nat) : Bool := (s.core core).spoiled.any fun u => u < off + n && off < u + 64

/-- The datum of cause 0x06: the peer's number (R152), for SLD the address (R174).
DEDUCED (unsafe): notes/assumptions/81.md. -/
def Req.gone (r : Req) (p : Nat) : DWord :=
  match r.op with
  | .load _ _ (_ :: _) => r.va
  | _ => d64 p

/-- Why a request cannot be performed where it arrived (R358, R374, R376; a lost peer, R73; a region that is its space's no
more, R280), with the datum. -/
def State.refusal (s : State) (r : Req) : Option (Nat × DWord) :=
  match r.dest with
  | .unit u => (s.memFault (r.target u) r.size r.reads).map fun c => (c, r.va)
  | .peer p m =>
    let served := match r.op with
      | .atomic _ _ _ _ _ _ => s.peerState p == 1
      | _ => (s.servingPeer p m).isSome
    if served then none else some (6, r.gone p)
  | .spad c =>
    if !s.spadOwned r.asid c r.pa r.size then some (5, r.va)
    else if r.reads && s.spadBad c r.pa r.size then some (7, r.va) else none

/-- The bytes a request reads where it arrived. -/
def State.readAt (s : State) (r : Req) (n : Nat) : List Byte × State :=
  match r.dest with
  | .unit u => s.homeRead (r.target u) n (dieOfCore r.who.core)
  | .peer p m => ((s.peerRead p m r.pa n).getD [], s)
  | .spad c => (memRead (s.spadOf c) r.pa n, s)
/-- Cells a request writes where it arrived; what its release precedes guards them. -/
def State.writeAt (s : State) (r : Req) (cells : Memory) : State :=
  ((match r.dest with
    | .unit u => s.homeWrite (r.target u) cells r.attr (dieOfCore r.who.core)
    | .peer p m => s.peerWrite p m cells r.attr
    | .spad c => s.spadWrite c r.pa (cells.map fun (c : Nat × Byte) => c.2)).noteWrite r).guardBytes r
/-- The threads in whose program order a request stands: its own, or for SLD every member of the group (R174). -/
def State.parties (s : State) (r : Req) : List Who :=
  match r.op with
  | .load _ _ (_ :: _) => ((s.group? r.who.slot).map fun g => g.members.map fun m => (⟨r.who.slot, m.1⟩ : Who)).getD []
  | _ => [r.who]
/-- What a read returns of the bytes now: a thread's relaxed load what it may see, everything else the bytes. -/
def State.seen (s : State) (r : Req) (bs : List Byte) : List Byte × State :=
  match r.op with
  | .load _ _ [] =>
    (s.viewed ((s.thread? r.who).bind (·.back)) r.dest.space r.pa bs, s.noteRead r.who r.dest.space r.pa bs.length r.acq r.sc)
  | _ => (bs, each (fun w s =>
      let s := s.sawNow w r.dest.space r.extent.1 r.extent.2
      if r.acq then s.orderedNow w r.sc else s) (s.parties r) s)

/-- A load, drain, store or atomic performed where it arrived, its result delivered and its credit returned.
DESIGN CHOICE (unsafe): notes/assumptions/1.md.
DEDUCED (unsafe): notes/assumptions/46.md. -/
def State.performWhole (s : State) (r : Req) : State :=
  let s0 := ({ s with writer := r.who.slot }.dropReq r.id).payBack r
  let s1 := match s.refusal r with
    | some (c, d) => s0.failReq r c d
    | none => match r.op with
      | .load n sext lanes =>
        let (bs, s1) := s0.readAt r n
        let (bs, s1) := s1.seen r bs
        (s1.deliver r n sext lanes bs).sampleReq r
      | .write cells _ => (s0.writeAt r cells).sampleReq r
      | .atomic aop n b c b2 c2 =>
        let (bs, s1) := s0.readAt r n
        let (_, s1) := s1.seen r bs
        let s1 := match atomicNew aop n (leVal bs) (b.toNat + 2 ^ 64 * b2.toNat) (c.toNat + 2 ^ 64 * c2.toNat) with
          | some v => s1.writeAt r (cellsAt r.pa (leBytes n v))
          | none => s1
        (s1.deliver r n false [] bs).sampleReq r
      | _ => s
  if r.paid.isEmpty then s1 else s1.leaveEntries r.who.core

/-- The aligned 16-byte unit of a request in flight that is performed next, and what is left of it, where it has several
(R45, R67); which one is a matter of the turn. -/
def Req.part (r : Req) (turn : Nat) : Option (Req × Req) :=
  match r.op with
  | .load 32 sext lanes =>
    let lo := { r with op := .load 16 sext lanes }
    let hi := { lo with pa := r.pa + 16, reg := if r.reg == 0 then 0 else r.reg + 4 }
    some (if turn % 2 == 0 then (lo, hi) else (hi, lo))
  | .write cells d =>
    let units := (cells.map fun c => c.1 / 16).eraseDups
    if units.length ≤ 1 then none
    else
      let k := units.getD (turn % units.length) 0
      let of_ (cs : Memory) : Req := { r with op := .write cs d, pa := (cs.head?.map (·.1)).getD r.pa }
      some (of_ (cells.filter fun c => c.1 / 16 == k), of_ (cells.filter fun c => c.1 / 16 != k))
  | _ => none

/-- A request performed: whole, or at a late pace one unit of it, the rest staying in flight. -/
def State.performReq (s : State) (r : Req) : State :=
  match if s.pace.late && r.preds.isEmpty && s.reqs.any (fun x => x.id == r.id) then r.part s.turnNo else none with
  | none => s.performWhole r
  | some (now, rest) =>
    if (s.refusal r).isSome then s.performWhole r
    else
      let keep := fun (x : Req) => if x.id == r.id then rest else x
      { s with reqs := s.reqs.map keep }.performWhole { now with id := s.reqNo, paid := [], tagged := false }

/-! ## Which requests can be performed -/

/-- A request at the place its page has moved to (R74, R346). -/
def State.here (s : State) (r : Req) : Req :=
  match r.dest with
  | .unit u =>
    let (t, _) := s.redirect (r.target u)
    if t.pa == r.pa then r
    else { r with pa := t.pa, dest := t.dest, op := match r.op with
      | .write cs d => .write (cs.map fun c => (t.pa + (c.1 - r.pa), c.2)) d
      | o => o }
  | _ => r
/-- Its page is in move (R74). -/
def State.moving (s : State) (r : Req) : Bool :=
  match r.dest with
  | .unit u => (s.redirect (r.target u)).2.isSome
  | _ => false
/-- No older request of the same thread to the same bytes, or drain of the same line, is in flight (R46, R67). -/
def State.oldest (s : State) (r : Req) : Bool :=
  let h := s.here r
  !s.reqs.any fun x => x.id < r.id && x.who == r.who && ((s.here x).meets h || (s.here x).sameLine h)
/-- The request can be performed by itself: the oldest of its thread to its bytes, at no page in move, behind no release's
earlier writes. -/
def State.free (s : State) (r : Req) : Bool :=
  r.atMove.isNone && !s.moving r && s.oldest r && !s.guarded r.who r.dest.space r.extent.1 r.extent.2
/-- The accesses of one instruction's lanes to the same bytes, in lane order: they are performed together (R198). -/
def State.mates (s : State) (r : Req) : List Req :=
  if !r.changes || r.isDrain then [r]
  else
    let h := s.here r
    s.reqs.filter fun x => x.id == r.id ||
      (x.batch == r.batch && x.who.slot == r.who.slot && x.changes && !x.isDrain && (s.here x).meets h)
/-- The drain that takes over the line of a drain at once (R198). -/
def State.follower (s : State) (r : Req) : Option Req :=
  if r.glue then s.reqs.find? fun x => r.id < x.id && x.sameLine r else none
/-- A drain whose line a later lane took over waits for that lane's drain. -/
def State.glued (s : State) (r : Req) : Nat → Option (List Req)
  | 0 => some [r]
  | fuel + 1 =>
    if !r.glue then some [r]
    else match s.follower r with
      | some x => if s.free x then (s.glued x fuel).map (r :: ·) else none
      | none => match r.dest with
        | .peer p _ => if ((s.core r.who.core).entry p (r.pa / 64)).isSome then none else some [r]
        | _ => some [r]
/-- The requests performed together with a request, in order, if it can be performed now and goes first. -/
def State.together (s : State) (r : Req) : Option (List Req) :=
  if !s.free r then none
  else if r.isDrain then s.glued r s.reqs.length
  else
    let ms := s.mates r
    if ms.all (fun x => r.id ≤ x.id && s.free x) then some ms else none
/-- A request performed, with those that go together with it. -/
def State.performAll (s : State) (r : Req) : State :=
  match (s.together r).getD [] with
  | [x] => s.performReq (s.here x)
  | xs => each (fun x s => s.performWhole (s.here x)) xs s

end Sys2Proof.Machine
end

