-- ==== Sys2Proof/Machine/Members.lean ====
section
/-! DEFINITION. What happens to members of groups: waits and holds that end (R17, R139), GSYNC and BAR (R15, R24),
leaving a group (R10), ending (R23, R135), departing (R28 to R31, R133). -/

namespace Sys2Proof.Machine

/-! ## Waits that end -/

/-- A wait that completes (R139): its register writes, q undefined (R88), the next PC, the wake if it blocked, and its
acquire at a scope.
DEDUCED (safe): notes/assumptions/18.md. -/
def State.finishWait (s : State) (w : Who) (ws : List (Nat × Word)) (a : Option Attr) (blocked : Bool)
    (cycles wkind : Nat) (acq : Option Nat) : State :=
  let st := s.stamp
  let s := s.bump.modThread w fun t =>
    let t := ({ (t.write ws).dropQ st with run := .ready } : Thread).advance (isLatency w.slot)
    match acq with
    | some sc => t.orderedAt sc w.slot s.turnNo
    | none => t
  if blocked then s.wakeBy w a cycles wkind else s

/-- A wait, hold, block or migration wait that is abandoned: the instruction re-executes; the cycles blocked count
(R32, R39, R42, R290). -/
def Thread.abandon (t : Thread) (lat : Bool) : Thread :=
  match t.run with
  | .waiting _ true n => { t.grow lat n with run := .ready }
  | .held n => { t.grow lat n with run := .ready }
  | .parked c d f => { t with run := .parked c d f }
  | _ => { t with run := .ready }

/-- Cycles a thread has waited or been held. -/
def Run.cycles : Run → Nat
  | .waiting _ _ n => n
  | .held n => n
  | _ => 0

/-- The last to arrive among some lanes: fewest cycles, the highest lane of one turn.
DEDUCED (unsafe): notes/assumptions/74.md. -/
def lastOf (ms : Map Thread) : Option Nat :=
  (ms.foldl (fun (b : Option (Nat × Nat)) m => match b with
    | none => some (m.1, m.2.run.cycles)
    | some (l, n) => if m.2.run.cycles ≤ n then some (m.1, m.2.run.cycles) else some (l, n)) none).map (·.1)

/-! ## Holds (R17) -/

def Run.isHeld : Run → Bool
  | .held _ => true
  | _ => false
def Run.isParked : Run → Bool
  | .parked _ _ _ => true
  | _ => false

/-- The held members of a meeting value. -/
def Group.heldAt (g : Group) (m : DWord) : Map Thread := g.members.filter fun x => x.2.run.isHeld && x.2.meet == m
/-- No member with this meeting value is outside the hold, parked ones apart. -/
def Group.holdMet (g : Group) (m : DWord) : Bool :=
  g.members.all fun x => x.2.meet != m || x.2.run.isHeld || x.2.run.isParked

/-- The held members of a meeting value go on together; all but the last to arrive blocked (R290), whose cycles in the hold count
like any other (R287). -/
def State.releaseHold (s : State) (slot : Nat) (m : DWord) (a : Option Attr) (last : Option Nat) : State :=
  match s.group? slot with
  | none => s
  | some g =>
    each (fun x s =>
      let w : Who := ⟨slot, x.1⟩
      let st := s.stamp
      let s := s.bump.modThread w fun t => { t.dropQ st with run := .ready }
      if some x.1 == last then s.modThread w fun t => t.grow (isLatency slot) x.2.run.cycles else s.wakeBy w a x.2.run.cycles 6) (g.heldAt m) s

/-- Holds that are met; while the package halts they are left as they stand (R383). `left` is what a member that has just left
carried.
DEDUCED (unsafe): notes/assumptions/74.md. -/
def State.settleHolds (s : State) (slot : Nat) (left : Option (Option Attr)) : State :=
  match s.group? slot with
  | none => s
  | some g =>
    let ms := ((g.members.filter fun x => x.2.run.isHeld).map fun x => x.2.meet).eraseDups
    each (fun m s =>
      if !g.holdMet m || s.frozen then s
      else match left with
        | some a => s.releaseHold slot m a none
        | none =>
          let last := lastOf (g.heldAt m)
          let a := last.bind fun l => (lookup l g.members).map fun t => s.carry ⟨slot, l⟩ t
          s.releaseHold slot m a last) ms s

/-! ## GSYNC (R15) and BAR (R24) -/

def Run.inGsync : Run → Bool
  | .waiting .gsync _ _ => true
  | _ => false
def Run.inBar (k : Nat) : Run → Bool
  | .waiting (.bar j) _ _ => j == k
  | _ => false

/-- GSYNC completes when every member waits in one; while the package halts it is left as it stands (R383).
DEDUCED (unsafe): notes/assumptions/74.md. -/
def State.settleGsync (s : State) (slot : Nat) (left : Option (Option Attr)) : State :=
  match s.group? slot with
  | none => s
  | some g =>
    if g.members.isEmpty || s.frozen || !g.members.all (fun x => x.2.run.inGsync) then s
    else
      let last := if left.isSome then none else lastOf g.members
      let a := match left with
        | some a => a
        | none => last.bind fun l => (lookup l g.members).map fun t => s.carry ⟨slot, l⟩ t
      each (fun x s => s.finishWait ⟨slot, x.1⟩ [] a (some x.1 != last) x.2.run.cycles 4 (some 0)) g.members s

/-- The threads of all groups that wait in BAR k of a cohort. -/
def State.barWaiters (s : State) (c : Word) (k : Nat) : List (Who × Thread) :=
  s.groups.flatMap fun g => g.2.members.filterMap fun x =>
    if x.2.cohort == c && x.2.run.inBar k then some (⟨g.1, x.1⟩, x.2) else none

/-- Threads of a level-k unit: the product of the extents up to k (R21). -/
def hdrUnit (h : List Byte) (k : Nat) : Nat := (List.range (k + 1)).foldl (fun n j => n * hdrExtent h j) 1

/-- BAR k completes for the unit of flattened index `fi` when its waiting and ended threads are all of it, with the order of
R53 among its participants (package scope where some have ended).
DEDUCED (unsafe): notes/assumptions/74.md. -/
def State.settleUnit (s : State) (c : Word) (k fi : Nat) (left : Option (Option Attr)) : State :=
  match s.cohort? c with
  | none => s
  | some co =>
    let n := hdrUnit co.header k
    let unit := fi / n
    let ws := (s.barWaiters c k).filter fun x => flatOfWid co.header x.2.wid.toNat / n == unit
    let ended := (co.ended.filter fun f => f / n == unit).length
    if ws.isEmpty || ws.length + ended != n then s
    else
      let here : List (Who × Thread) := match s.issuer with
        | some u => ws.filter fun x => x.1.slot == u.slot
        | none => []
      let last : Option (Who × Thread) := if left.isSome then none
        else (if here.isEmpty then ws else here).foldl (fun (b : Option (Who × Thread)) x => match b with
          | none => some x
          | some y => if x.2.run.cycles ≤ y.2.run.cycles then some x else some y) none
      let a := match left with
        | some a => a
        | none => last.map fun x => s.carry x.1 x.2
      let sc := if ended == 0 then commonScope (ws.map fun x => x.1.slot) else 4
      let from_ := last.map fun x => coreOfSlot x.1.slot
      each (fun (x : Who × Thread) s =>
        let a := if from_ == some (coreOfSlot x.1.slot) then a else s.onWay (x.1.slot * 32 + x.1.lane) a
        s.finishWait x.1 [] a (last.map (fun y => y.1) != some x.1) x.2.run.cycles 3 (some sc)) ws s

/-- BARs of a cohort that a thread's end or arrival may complete. -/
def State.settleBars (s : State) (c : Word) (left : Option (Option Attr)) : State :=
  match s.cohort? c with
  | none => s
  | some co =>
    each (fun k s =>
      let us := ((s.barWaiters c k).map fun x => flatOfWid co.header x.2.wid.toNat / hdrUnit co.header k).eraseDups
      each (fun u s => s.settleUnit c k (u * hdrUnit co.header k) left) us s) (List.range 6) s

/-! ## Leaving (R10) -/

/-- The page of a subscription in move now, by its old PA (R74). -/
def State.movingPage (s : State) (pa : Nat) (d : Dest) : Option Nat :=
  match d with
  | .peer _ _ | .spad _ => none
  | .unit u => (s.redirect ⟨.local_, pa, unitDie u, u, 0, none, false, false⟩).2
/-- The request of an UNSTAND goes to the home that the core recorded (R212). -/
def State.sendUnstand (s : State) (w : Who) (u : Sub) : State :=
  s.send { Req.plain w u.pa u.dest (.unstand u.slot) with
    va := u.va, asid := u.asid, sub := u.no, atMove := s.movingPage u.pa u.dest }
/-- An UNSTAND of a core's subscription is pending. -/
def State.ending (s : State) (core : Nat) (u : Sub) : Bool :=
  s.reqs.any fun r => coreOfSlot r.who.slot == core && r.op == .unstand u.slot && r.sub == u.no

/-- Subscriptions of a group whose last member leaves are unsubscribed (R213); one that is lost ends without (R317). -/
def State.unstandAll (s : State) (slot : Nat) : State :=
  each (fun i s =>
    let core := 4 * clusterOf (coreOfSlot slot) + i
    each (fun (u : Sub) s => s.sendUnstand ⟨slotKey core 0, 0⟩ u)
      ((s.core core).subs.filter fun u => u.owner == slot && !u.lost && !s.ending core u) s) (List.range 4) s

/-- A numeric trap pending in a thread that leaves is delivered as a host interrupt (R154, R264). -/
def State.dropTraps (s : State) (w : Who) (t : Thread) : State :=
  each (fun k s => s.coreInterrupt (coreOfSlot w.slot) k (s.agentOf w)) t.numTraps s

/-- A member leaves its group: holds and GSYNCs that waited for it are re-evaluated; the last one gives the slot's
subscriptions up; a latency hardware thread is left without a thread.
DEDUCED (unsafe): notes/assumptions/21.md. -/
def State.leave (s : State) (w : Who) (a : Option Attr) : State :=
  match s.thread? w with
  | none => s
  | some t =>
    let s := (s.dropTraps w t).modGroup w.slot fun g => { g with members := del w.lane g.members }
    let s := (s.settleHolds w.slot (some a)).settleGsync w.slot (some a)
    match s.group? w.slot with
    | none => s
    | some g =>
      if !g.members.isEmpty then s
      else
        let s := s.unstandAll w.slot
        if isLatency w.slot then { s with groups := del w.slot s.groups } else s

/-! ## Ending (R23, R135) -/

/-- The completion word of a cohort rises by one, carrying an attribution, or the cause that prevents it; cause 0 where the
access must wait and `wait` says that it can.
DESIGN CHOICE (unsafe): notes/assumptions/24.md. -/
def State.complete (wait : Bool) (s : State) (core asid : Nat) (va : DWord) (a : Attr) : Except Nat State :=
  match s.translate core asid false va .update with
  | .error c => .error c
  | .ok _ => match s.readLineAt wait core asid false va 8 with
    | .error c => .error c
    | .ok (bs, s) => s.writeLineAt wait core asid false va (leBytes 8 (leVal bs + 1)) (some a)
/-- The completion word of a thread's cohort cannot be reached yet (R74). -/
def State.completeWaits (s : State) (w : Who) (t : Thread) (asid : Nat) : Bool :=
  match s.cohort? t.cohort with
  | none => false
  | some co =>
    let va := hdrCompletion co.header
    va != 0 && match s.complete true (coreOfSlot w.slot) asid va (s.carry w t) with
      | .error 0 => true
      | _ => false

/-- The cohort table's live flag cleared when the last thread has ended (R353). -/
def State.retire (s : State) (die : Nat) (c : Word) : State :=
  match s.cohort? c with
  | none => s
  | some co =>
    if co.ended.length < hdrCount co.header then s
    else
      let s := { s with cohorts := del c.toNat s.cohorts }
      let b := s.dreg die 0x008
      if b == 0 then s
      else
        let pa := b.toNat + 16 * (c.toNat % 65536) + 8
        match s.readPhys pa 4 with
        | .error _ => s
        | .ok bs => match s.writePhys pa (leBytes 4 (leVal bs % 65536)) with
          | .ok s => s
          | .error _ => s

/-- A thread of a cohort ends: completion word, its place among the ended, the BARs that waited for it. A failed
increment queues an ENDED record (R23).
DESIGN CHOICE (unsafe): notes/assumptions/24.md. -/
def State.endThread (s : State) (w : Who) (t : Thread) (asid : Nat) (a : Option Attr) : State :=
  let die := dieOfSlot w.slot
  let s := match s.cohort? t.cohort with
    | none => s
    | some co =>
      let va := hdrCompletion co.header
      let s := if va == 0 then s
        else match s.complete false (coreOfSlot w.slot) asid va (s.carry w t) with
          | .ok s => s
          | .error c => s.queueFault die (s.recordOf w t asid (causeWord c 0) t.pc va 1)
      { s with cohorts := put t.cohort.toNat { co with ended := flatOfWid co.header t.wid.toNat :: co.ended } s.cohorts }
  (((s.endLife asid t).leave w a).settleBars t.cohort (some a)).retire die t.cohort

/-! ## Departing (R28 to R30) -/

/-- The targets of R28. -/
def targetOk (t : Nat) : Bool := t ≤ 4 || (8 ≤ t && t ≤ 10)

/-- The frame of a departing thread is written at TFRAME and the thread waits for its destination (R29, R30): its own
state stays at the instruction until the frame is accepted. `t'` is the thread as the frame holds it. -/
def State.depart (s : State) (w : Who) (g : Group) (t' : Thread) (target : Nat) : Trip :=
  let va := s.tframe (dieOfSlot w.slot) g.asid t'
  if va.toNat % 64 != 0 then .fault 3 va s
  else if va == 0 then .fault 4 va s
  else match s.writeVa (coreOfSlot w.slot) g.asid false va (frameBytes t' g.footprint g.asid t'.pc 0 .none)
      (lines (frameSize g.footprint)) with
    | .error 0 => .stay s
    | .error c => .fault c (s.badDatum (coreOfSlot w.slot) g.asid c false .write va (frameSize g.footprint)) s
    | .ok s => .go ((s.keepLife g.asid t').modThread w fun t => { t with run := .migrating target va t.pc })

/-- Departure after the drains and reads of R28, R133; a cause of TFRAME or of its translation comes before a cause owed
(R153). -/
def State.departReady (s : State) (w : Who) (t : Thread) (target : Nat) (t' : Thread) : Trip :=
  match s.group? w.slot with
  | none => .stay s
  | some g => match s.depart w g t' target with
    | .fault c d s' => if c ≤ 5 then .fault c d s' else s.release w t fun s => s.depart w g t' target
    | _ => s.release w t fun s => s.depart w g t' target

end Sys2Proof.Machine
end

