-- ==== Sys2Proof/Machine/Waits.lean ====
section
/-! DEFINITION. Waits and barriers, major 0x14 (R138 to R144, R24), SLEEP and WAKE (R137). -/

namespace Sys2Proof.Machine

/-! ## Reading a location now -/

/-- What an immediate read of n bytes gives: bytes with the line's attribution, a reason to stay, or a cause. -/
inductive ReadNow where
  | ok (bs : List Byte) (attr : Option Attr) (s : State)
  | stay (s : State)
  | fault (cause : Nat) (datum : DWord)
deriving DecidableEq, Repr

/-- The owner's bytes of its write-combining entry for [pa, pa + n), if all are valid, and whether any is (R68). -/
def State.ownBytes (s : State) (w : Who) (p pa n : Nat) : Option (List Byte) × Bool :=
  match (s.core (coreOfSlot w.slot)).entry p (pa / 64) with
  | none => (none, false)
  | some e =>
    if e.owner != w then (none, false)
    else
      let bs := (List.range n).map fun i => lookup (pa % 64 + i) e.bytes
      (if bs.all Option.isSome then some (bs.map fun b => b.getD 0) else none, bs.any Option.isSome)

/-- A read that is performed at once: of global memory (R66 to R68, R192). An absent peer is waited for (R362); a lost one
gives cause 0x06 with the address as datum (R141), where R152's table says the peer's number. A wait's reads are not eligible
requests (R294).
DEDUCED (unsafe): notes/assumptions/81.md.
DESIGN CHOICE (unsafe): notes/assumptions/1.md. -/
def State.readNow (s : State) (w : Who) (asid : Nat) (va : DWord) (n : Nat) : ReadNow :=
  if va.toNat % n != 0 then .fault 3 va
  else match s.translate (coreOfSlot w.slot) asid (isSup w.slot) va .read with
    | .error c => .fault c va
    | .ok (t0, s1) =>
      let (t, moving) := s1.redirect t0
      let saw (s : State) : State := s.sawNow w t.dest.space t.pa n
      if moving.isSome || s1.loadWaits w t.dest.space t.pa n || s1.guarded w t.dest.space t.pa n then .stay s1
      else match t.kind with
        | .local_ => match s1.memFault t n true with
          | some c => .fault c va
          | none =>
            let (bs, s2) := (s1.lineEvent (coreOfSlot w.slot) t.die).homeRead t n (dieOfSlot w.slot)
            .ok bs (s2.onWay (w.slot * 32 + w.lane) (s2.lineAttr t)) (saw s2)
        | .peer =>
          let (own, some_) := s1.ownBytes w t.peer t.pa n
          match own with
          | some bs => .ok bs none s1
          | none =>
            let a := lookup (lineOf t.pa) (s1.die (peerHome t.peer)).attrs
            if some_ then .stay (s1.drainIf (coreOfSlot w.slot) fun e => e.owner == w && e.peer == t.peer && e.line == t.pa / 64)
            else match s1.peerRead t.peer t.mirror t.pa n with
              | some bs => .ok bs (s1.flightTo t.peer (s1.onWay (w.slot * 32 + w.lane) a)) (saw (s1.lineEvent (coreOfSlot w.slot) 6))
              | none => if s1.peerState t.peer == 2 then .fault 6 va else .stay s1
        | .device =>
          if isBlockPa t.pa then .fault 5 va
          else .ok ((List.range n).map fun i => Config.freeByte s1.stamp i) none s1.bump
        | .window => .fault 5 va

/-- A slot that a STAND of the thread will write overlaps [a, a + n) (R210): on a SIMT core of scratchpad. -/
def State.slotAwaited (s : State) (w : Who) (a : DWord) (n : Nat) : Bool :=
  s.reqs.any fun r => r.who == w && match r.op with
    | .stand slot _ =>
      if isLatency w.slot then slot.toNat < a.toNat + n && a.toNat < slot.toNat + 16
      else match spadDecode (coreOfSlot w.slot) slot, spadDecode (coreOfSlot w.slot) a with
        | .ok (c, o), .ok (c', o') => c == c' && o < o' + n && o' < o + 16
        | _, _ => false
    | _ => false

/-- A read of scratchpad, or on a latency core of the global VA it is (R142 to R144): the bytes, and the attribution at
the sync word, or at the second word of a slot; of memory, the line's (R288).
DEDUCED (unsafe): notes/assumptions/52.md. -/
def State.readWord (s : State) (w : Who) (asid : Nat) (a : DWord) (n : Nat) : ReadNow :=
  if s.slotAwaited w a n then .stay s
  else if isLatency w.slot then s.readNow w asid a n
  else if a.toNat % n != 0 then .fault 3 a
  else match s.spadCheck w.slot asid a n with
    | .error c => .fault c a
    | .ok (c, off) =>
      if s.loadWaits w (128 + c) off n || s.guarded w (128 + c) off n then .stay s
      else if s.spadBad c off n then .fault 7 a
      else .ok (memRead (s.spadOf c) off n) (lookup (off + (n - 8)) (s.core c).marks) (s.sawNow w (128 + c) off n)

/-! ## The polled waits -/

/-- The condition of WAITV (R138, R141). -/
def waitvMet (cond : BitVec 2) (sg wide : Bool) (x : Nat) (b : DWord) : Bool :=
  let v : DWord := if wide then d64 x else if sg then (BitVec.ofNat 32 x).signExtend 64 else d64 x
  let c : DWord := if wide then b else if sg then (b.setWidth 32).signExtend 64 else (b.setWidth 32).setWidth 64
  let lt := if sg then v.slt c else v.ult c
  match cond.toNat with
  | 0 => v == c
  | 1 => v != c
  | 2 => !lt
  | _ => lt

/-- What a wait's read leads to. -/
inductive Poll where
  | done (ws : List (Nat × Word)) (a : Option Attr) (wkind : Nat) (s : State)
  | unmet (s : State)
  | stay (s : State)
  | fault (cause : Nat) (datum : DWord)
  | brk (i : Nat) (s : State)
deriving DecidableEq, Repr

/-- One read of a polled wait (R141 to R143); WAITV's is a load, at which a breakpoint matches (R381). -/
def State.poll (s : State) (w : Who) (asid : Nat) : Wait → Poll
  | .waitv va cond sg wide cmp d _ => match s.readNow w asid va (if wide then 8 else 4) with
    | .ok bs a s => match (s.thread? w).bind fun t => s.bpFor w t asid 1 va.toNat (if wide then 8 else 4) with
      | some i => .brk i s
      | none =>
      let x := leVal bs
      if waitvMet cond sg wide x cmp then .done (wideOut wide d (d64 x)) a 0 s else .unmet s
    | .stay s => .stay s
    | .fault c x => .fault c x
  | .waits addr gen => match s.readWord w asid addr 8 with
    | .ok bs a s =>
      let x := leVal bs
      if swErr x then .fault 9 addr else if swGen x != gen then .done [] a 1 s else .unmet s
    | .stay s => .stay s
    | .fault c x => .fault c x
  | .waitp addr pushes => match s.readWord w asid addr 16 with
    | .ok bs a s =>
      let p := field bs 8 4
      let fl := field bs 12 4
      if p != pushes.toNat || !bit fl 0 || bit fl 2 then .done [] a 2 s else .unmet s
    | .stay s => .stay s
    | .fault c x => .fault c x
  | _ => .unmet s

/-- The scope of the acquire that a polled wait ends with (R54, R55, R63, R144). -/
def Wait.acquire (lat : Bool) : Wait → Option Nat
  | .waitv _ _ _ _ _ _ acq => acq
  | .waits _ _ => some (if lat then 3 else 2)
  | _ => none

/-- A polled wait's first read, made at issue: the wait completes, or blocks (R139, R290). -/
def State.firstPoll (s : State) (w : Who) (asid : Nat) (wt : Wait) : Trip :=
  match s.poll w asid wt with
  | .done ws a k s => .go (s.finishWait w ws a false 0 k (wt.acquire (isLatency w.slot)))
  | .unmet s => .go (s.modThread w fun t => { t with run := .waiting wt true 0 })
  | .stay s => .stay s
  | .fault c x => .fault c x s
  | .brk i s => .brk i s

/-- A later read of a waiting thread's word: the wait goes on, completes, or ends in its fault. -/
def State.rePoll (s : State) (w : Who) : State :=
  match s.group? w.slot with
  | none => s
  | some g => match lookup w.lane g.members with
    | none => s
    | some t => match t.run with
      | .waiting wt b n => match s.poll w g.asid wt with
        | .done ws a k s => s.finishWait w ws a b n k (wt.acquire (isLatency w.slot))
        | .fault c x => (s.modThread w fun t => { t with run := .ready }).takeFault w (causeWord c 0) x t.pc false
        | .brk i s => (s.modThread w fun t => { t with run := .ready }).takeBreak w i t.pc
        | .unmet s => s
        | .stay s => s
      | _ => s

/-- WAITV (R141). -/
def execWaitv (f : FmtA) (s : State) : Host.Outcome State Fault Refusal :=
  memInstr (.waitv f) s fun c l t s =>
    let wide := f.var.getLsbD 3
    s.firstPoll (c.who l) c.asid (.waitv (src64 c.g t f.sA f.a) (f.var.extractLsb' 0 2) (f.var.getLsbD 2) wide
      (srcW wide c.g t f.sB f.b) f.d.toNat (if bitsOf f.c.toNat 4 3 == 1 then some (f.c.toNat % 8) else none))

/-- WAITS (R142, R144). -/
def execWaits (f : FmtA) (s : State) : Host.Outcome State Fault Refusal :=
  memInstr (.waits f) s fun c l t s =>
    s.firstPoll (c.who l) c.asid (.waits (src64 c.g t f.sA f.a) ((src32 c.g t f.sB f.b).toNat % 128))

/-- WAITP (R143, R144). -/
def execWaitp (f : FmtA) (s : State) : Host.Outcome State Fault Refusal :=
  memInstr (.waitp f) s fun c l t s =>
    s.firstPoll (c.who l) c.asid (.waitp (src64 c.g t f.sA f.a) (src32 c.g t f.sB f.b))

/-! ## BAR -/

/-- BAR k (R24, R140): a thread of no cohort completes at once; the others arrive once drained and go on when their
unit is complete. -/
def execBar (f : FmtA) (s : State) : Host.Outcome State Fault Refusal :=
  issue (.bar f) s fun c s =>
    let k := f.var.toNat
    let s := tripBody (fun c l t s =>
      if t.cohort == 0 then .go (s.finishWait (c.who l) [] none false 0 3 none)
      else s.drained (c.who l) fun s =>
        .go (s.modThread (c.who l) fun t => { t with run := .waiting (.bar k) true 0 })) c s
    let cs := (c.pLanes.filterMap fun l => (s.thread? (c.who l)).map fun t => t.cohort).eraseDups
    each (fun x s => if x == 0 then s else s.settleBars x none) cs s

/-! ## SLEEP and WAKE (R137) -/

/-- A sleeping lane, with its destination and the cycles it has slept. -/
def Run.asleep : Run → Option (Nat × Nat × Nat)
  | .waiting (.sleep limit d) _ n => some (limit, d, n)
  | _ => none

/-- SLEEP: a kept wake ends it at once, else it waits. -/
def execSleep (f : FmtA) (s : State) : Host.Outcome State Fault Refusal :=
  issue (.sleep f) s (eachLane fun c l t s =>
    match s.group? c.u.slot with
    | none => s
    | some g =>
      if g.wake.getLsbD l then
        (s.modGroup c.u.slot fun g => { g with wake := g.wake &&& ~~~(1#32 <<< l) }).finishWait (c.who l)
          [(f.d.toNat, 1)] none false 0 5 (some 0)
      else s.modThread (c.who l) fun t =>
        { t with run := .waiting (.sleep (src32 c.g t f.sA f.a).toNat f.d.toNat) true 0 })

/-- A wake for one lane: kept in the mask, or it ends the lane's SLEEP. -/
def State.wakeLane (s : State) (slot l : Nat) (a : Option Attr) : State :=
  match s.thread? ⟨slot, l⟩ with
  | none => s
  | some t => match t.run.asleep with
    | some (_, d, n) => s.finishWait ⟨slot, l⟩ [(d, 1)] a true n 5 (some 0)
    | none => s.modGroup slot fun g => { g with wake := g.wake ||| (1#32 <<< l) }

/-- WAKE: after its release at group scope, the lanes named by the OR of A over P are woken, with the token of the
highest lane of P (R288; notes/assumptions/8.md).
DEDUCED (unsafe): notes/assumptions/8.md. -/
def execWake (f : FmtA) (s : State) : Host.Outcome State Fault Refusal :=
  issue (.wake f) s fun c s =>
    let ls := c.pLanes.filter fun l => (s.thread? (c.who l)).any fun t => t.owed.isNone
    let m := ls.foldl (fun m l => match lookup l c.g.members with
      | some t => m ||| src32 c.g t f.sA f.a
      | none => m) (0 : Word)
    let trip (c : Ctx) (l : Nat) (t : Thread) (s : State) : Trip :=
      s.release (c.who l) t fun s => s.goOn (c.who l) id
    let s1 := tripBody trip c s
    if tripStays trip c s then s1
    else
      let a := ls.getLast?.bind fun l => (lookup l c.g.members).map fun t => s.carry (c.who l) t
      each (fun l s => if m.getLsbD l then s.wakeLane c.u.slot l a else s) (List.range 32) s1

end Sys2Proof.Machine
end

