-- ==== Sys2Proof/Machine/Sync.lean ====
section
/-! DEFINITION. What the engines reach: near memory, which is the cluster's scratchpads or, for a latency core, global
memory (R245, R280), far memory line by line (R215, R227), and sync words (R217 to R219, R60). -/

namespace Sys2Proof.Machine

/-! ## Far accesses -/

/-- How an engine's access ends: done, waiting (a page in move, no credit, an earlier access of the issuing thread), or a
cause (R152). -/
inductive Eng (α : Type) where
  | ok (a : α) (s : State)
  | wait
  | fail (cause : Nat)
deriving DecidableEq, Repr

/-- Who makes an engine's access: the engine and its channel, the core it works for, the address space and mode; the issuing
thread with the number of the first request after the command (R57), how far back its reads may reach, whether its writes
are performed at once, and what they are tagged with. -/
structure Doer where
  core   : Nat
  near   : Nat
  chan   : Nat
  asid   : Nat
  sup    : Bool
  prior  : Option (Who × Nat)
  back   : Option Back
  prompt : Bool
  tag    : DWord
deriving DecidableEq, Repr

/-- An agent that is no channel: the hardware of a core. -/
def Doer.plain (core asid : Nat) (sup : Bool) : Doer := ⟨core, core, 4, asid, sup, none, none, true, 0⟩
def Doer.who (d : Doer) : Who := ⟨chanSlot d.core d.chan, 0⟩
def Doer.die (d : Doer) : Nat := dieOfCore d.core
def Doer.lat (d : Doer) : Bool := 4 ≤ dieOfCore d.near
/-- The memory a target lies in. -/
def Target.space (t : Target) : Nat := if t.kind == .window then 128 + coreKey t.die t.unit else t.dest.space

/-- The issuing thread has an earlier access to [pa, pa + n) in flight, or a write-combining entry for it (R57, R67); or the
bytes are a release's, behind its earlier writes (R50). -/
def State.behind (s : State) (d : Doer) (space pa n : Nat) : Bool :=
  s.guarded d.who space pa n || match d.prior with
    | none => false
    | some (w, first) =>
      s.reqs.any (fun r => r.of w && r.id < first && r.touches space pa n) ||
      (s.core (coreOfSlot w.slot)).wc.any fun e => e.owner == w && e.peer == space && 64 * e.line < pa + n && pa < 64 * e.line + 64

/-- A raw event of an engine's core (R295). -/
def State.engRaise (s : State) (d : Doer) (ev p1 p2 : Nat) : State := s.modCore d.near fun c => c.raise ev p1 p2 1
/-- Lines of n bytes that an engine requests of a home, or of a peer (6); from another die it comes back over UCIe (R295). -/
def State.engLine (s : State) (d : Doer) (home n : Nat) : State :=
  let s := s.modCore d.near fun c => c.raise 0x07 d.die home (max 1 (n / 64))
  if d.die == home || 6 ≤ home then s else s.raise d.near 0x08 home d.die (max 1 (n / 64))
/-- A peer is lost, and no mirror serves for it (R73). -/
def State.peerGone (s : State) (p : Nat) (mirror : Option Nat) : Bool :=
  s.peerState p == 2 && (s.servingPeer p mirror).isNone

/-- A read of at most one line by an engine; a scratchpad window is read where the address space owns the region
(R227, R280, R341), a peer that is not up yet is waited for (R362). -/
def State.engReadLine (s : State) (d : Doer) (va : DWord) (n : Nat) : Eng (List Byte) :=
  match s.translate d.core d.asid d.sup va .read with
  | .error c => .fail c
  | .ok (t0, s) =>
    let (t, moving) := s.redirect t0
    if moving.isSome || s.behind d t.space t.pa n then .wait
    else match t.kind with
      | .local_ => match s.memFault t n true with
        | some c => .fail c
        | none => let (bs, s) := s.homeRead t n d.die; .ok (s.viewed d.back 64 t.pa bs) (s.engLine d t.die n)
      | .peer => match s.peerRead t.peer t.mirror t.pa n with
        | some bs => .ok (s.viewed d.back t.peer t.pa bs) (s.engLine d 6 n)
        | none => if s.peerGone t.peer t.mirror then .fail 6 else .wait
      | .window =>
        let c := coreKey t.die t.unit
        if !s.spadOwned d.asid c t.pa n then .fail 5
        else if s.spadBad c t.pa n then .fail 7
        else .ok (s.viewed d.back t.space t.pa (memRead (s.spadOf c) t.pa n)) s
      | .device => .fail 5

/-- The credit of a line taken, and back at once. -/
def State.paidNow (s : State) (core : Nat) (ks : List Nat) : State :=
  (s.pay core ks).payBack { Req.plain ⟨slotKey core 0, 0⟩ 0 (.unit 0) (.unstand 0) with paid := ks }
/-- A line leaves an engine: each takes a unit of the destination's credit, until it is performed (R215, R283). A die-level engine
of an L-die has credit of its own, as a core has.
DESIGN CHOICE (unsafe): notes/assumptions/81.md. -/
def State.engSend (s : State) (d : Doer) (t : Target) (va : DWord) (cells : Memory) (attr : Option Attr) : State :=
  let ks := s.toll d.core t.dest
  (s.pay d.core ks).send { Req.plain d.who t.pa t.dest (.write cells false) with
    pc := d.tag, va := va, pin := t.pin, attr := attr, paid := ks, batch := s.reqNo, sparse := t.sparse }

/-- A write of at most one line by an engine. A line for another die or a peer needs a unit of its credit (R215, R283); it
is in flight until it is performed, unless the writer waits for that anyway. -/
def State.engWriteLine (s : State) (d : Doer) (va : DWord) (bs : List Byte) (attr : Option Attr) : Eng Unit :=
  match s.translate d.core d.asid d.sup va .write with
  | .error c => .fail c
  | .ok (t0, s1) =>
    let s := { s1 with writer := d.who.slot }
    let (t, moving) := s.redirect t0
    let ks := if t.kind == .window then (if t.die == d.die then [] else [64 + t.die]) else s.toll d.core t.dest
    let cells := cellsAt t.pa bs
    if moving.isSome || s.behind d t.space t.pa bs.length then .wait
    else match t.kind with
      | .local_ => match s.memFault t bs.length false with
        | some c => .fail c
        | none =>
          if !s.canPay d.core ks then .wait
          else if ks.isEmpty || d.prompt then .ok () ((s.paidNow d.core ks).homeWrite t cells attr d.die)
          else .ok () (s.engSend d t va cells attr)
      | .peer =>
        if s.peerGone t.peer t.mirror then .fail 6
        else if (s.servingPeer t.peer t.mirror).isNone || !s.canPay d.core ks then .wait
        else if d.prompt then .ok () ((s.paidNow d.core ks).peerWrite t.peer t.mirror cells attr)
        else .ok () (s.engSend d t va cells attr)
      | .window =>
        let c := coreKey t.die t.unit
        if !s.spadOwned d.asid c t.pa bs.length then .fail 5
        else if !s.canPay d.core ks then .wait
        else .ok () ((s.paidNow d.core ks).spadWrite c t.pa bs)
      | .device => .fail 5

/-- A read over at most `fuel` lines.
DEDUCED (unsafe): notes/assumptions/66.md. -/
def State.engRead (s : State) (d : Doer) (va : DWord) (n : Nat) : Nat → Eng (List Byte)
  | 0 => .ok [] s
  | fuel + 1 =>
    if n == 0 then .ok [] s
    else
      let k := lineBytes va.toNat n
      match s.engReadLine d va k with
      | .wait => .wait
      | .fail c => .fail c
      | .ok bs s => match s.engRead d (va + d64 k) (n - k) fuel with
        | .ok bs' s => .ok (bs ++ bs') s
        | r => r

/-- The bytes of one write at the home from an address on: a whole 512-byte block of this die's memory (R376, R377), or of
what is performed at once, else those of a line. -/
def State.engChunk (s : State) (d : Doer) (va : DWord) (n : Nat) : Nat :=
  if va.toNat % 512 != 0 || n < 512 then lineBytes va.toNat n
  else match s.translate d.core d.asid d.sup va .write with
    | .ok (t, _) =>
      if t.kind == .local_ && (d.prompt || (s.toll d.core (s.redirect t).1.dest).isEmpty) then 512 else lineBytes va.toNat n
    | .error _ => lineBytes va.toNat n

/-- A write over at most `fuel` lines; a line that fails or waits leaves nothing written.
DEDUCED (unsafe): notes/assumptions/66.md. -/
def State.engWrite (s : State) (d : Doer) (va : DWord) (bs : List Byte) (attr : Option Attr) : Nat → Eng Unit
  | 0 => .ok () s
  | fuel + 1 =>
    if bs.isEmpty then .ok () s
    else
      let k := s.engChunk d va bs.length
      match s.engWriteLine d va (bs.take k) attr with
      | .ok _ s => s.engWrite d (va + d64 k) (bs.drop k) attr fuel
      | r => r

/-! ## Near accesses -/

/-- The 4 KiB pages of [va, va + n) can be accessed by the space (R245). -/
def State.pagesOk (s : State) (core asid : Nat) (sup : Bool) (acc : Acc) (va n : Nat) : Nat → Except Nat Unit
  | 0 => .ok ()
  | fuel + 1 =>
    if n == 0 then .ok ()
    else
      let k := min n (4096 - va % 4096)
      match s.translate core asid sup (d64 va) acc with
      | .error c => .error c
      | .ok (t, _) =>
        if t.kind == .device || t.kind == .window then .error 5 else s.pagesOk core asid sup acc (va + k) (n - k) fuel

/-- The check of a near range at issue, after its alignment (R193, R216, R245): on a latency core what is only read needs
read permission alone. -/
def State.nearCheckAs (s : State) (slot asid : Nat) (sup : Bool) (acc : Acc) (a : DWord) (n al : Nat) : Option Nat :=
  if a.toNat % al != 0 then some 3
  else if isLatency slot then match s.pagesOk (coreOfSlot slot) asid sup acc a.toNat n (n / 4096 + 2) with
    | .error c => some c
    | .ok _ => none
  else match s.spadCheck slot asid a n with
    | .error c => some c
    | .ok _ => none
def State.nearCheck (s : State) (slot asid : Nat) (sup : Bool) (a : DWord) (n al : Nat) : Option Nat :=
  s.nearCheckAs slot asid sup .update a n al

/-- A near read, checked as it is performed (R280). -/
def State.nearRead (s : State) (d : Doer) (a : DWord) (n : Nat) : Eng (List Byte) :=
  if d.lat then s.engRead d a n (lines n)
  else match spadDecode d.near a with
    | .error c => .fail c
    | .ok (c, off) =>
      if s.behind d (128 + c) off n then .wait
      else if !s.spadOwned d.asid c off n then .fail 5
      else if s.spadBad c off n then .fail 7
      else .ok (s.viewed d.back (128 + c) off (memRead (s.spadOf c) off n)) s

/-- A near write, checked as it is performed (R280). -/
def State.nearWrite (s : State) (d : Doer) (a : DWord) (bs : List Byte) : Eng Unit :=
  if d.lat then s.engWrite d a bs none (lines bs.length)
  else match spadDecode d.near a with
    | .error c => .fail c
    | .ok (c, off) =>
      if s.behind d (128 + c) off bs.length then .wait
      else if s.spadOwned d.asid c off bs.length then .ok () (({ s with writer := d.who.slot }).spadWrite c off bs) else .fail 5

/-- The first cause of R153's order among those of two addresses; codes 3 to 7 stand in that order. -/
def firstCause (a b : Option (Nat × DWord)) : Option (Nat × DWord) :=
  match a, b with
  | some x, some y => if y.1 < x.1 then some y else some x
  | some x, none => some x
  | none, y => y

/-! ## Sync words -/

/-- An arrival of n bytes (R218); of none, no change (R219). -/
def swArrive (w n : Nat) : Nat :=
  let count := w % 2 ^ 28
  let target := bitsOf w 55 28
  let top := w / 2 ^ 63 * 2 ^ 63
  if n == 0 then w
  else if target == 0 then w - count + min (count + n) (2 ^ 28 - 1)
  else top + (bitsOf w 62 56 + (count + n) / target) % 128 * 2 ^ 56 + target * 2 ^ 28 + (count + n) % target

/-- ERR set (R60, R218). -/
def swSetErr (w : Nat) : Nat := if swErr w then w else w + 2 ^ 63

/-- The attribution at a word of scratchpad, or of a latency core's memory at the line that holds it (R288).
DEDUCED (unsafe): notes/assumptions/52.md. -/
def State.markOf (s : State) (d : Doer) (a : DWord) : Option Attr :=
  if d.lat then match s.translate d.core d.asid d.sup a .read with
    | .ok (t, _) =>
      let t := (s.redirect t).1
      if t.kind == .peer then lookup (lineOf t.pa) (s.die (peerHome t.peer)).attrs else s.lineAttr t
    | .error _ => none
  else match spadDecode d.near a with
    | .ok (c, off) => lookup off (s.core c).marks
    | .error _ => none
/-- The attribution at a word, or none.
DEDUCED (unsafe): notes/assumptions/52.md. -/
def State.setMark (s : State) (d : Doer) (a : DWord) (m : Option Attr) : State :=
  let at_ (k : Nat) (x : Map Attr) : Map Attr := match m with
    | some y => put k y x
    | none => del k x
  if d.lat then match s.translate d.core d.asid d.sup a .read with
    | .ok (t, _) =>
      let t := (s.redirect t).1
      s.modDie (if t.kind == .peer then peerHome t.peer else t.die) fun x => { x with attrs := at_ (lineOf t.pa) x.attrs }
    | .error _ => s
  else match spadDecode d.near a with
    | .ok (c, off) => s.modCore c fun x => { x with marks := at_ off x.marks }
    | .error _ => s

/-- A single-copy atomic update of a sync word; a generation completed carries the attribution, grown on its way (R288,
R289). A word that cannot be reached is left alone, with the reason. -/
def State.syncUpdate (s : State) (d0 : Doer) (a : DWord) (f : Nat → Nat) (attr : Option Attr) : Eng Nat :=
  let d := { d0 with prompt := true, back := none }
  match s.nearRead d a 8 with
  | .wait => .wait
  | .fail c => .fail c
  | .ok bs s =>
    let old := leVal bs
    let new := f old
    let kept := s.markOf d a
    match s.nearWrite d a (leBytes 8 new) with
    | .wait => .wait
    | .fail c => .fail c
    | .ok _ s =>
      .ok old (s.setMark d a (if swGen new == swGen old then kept else s.onWay a.toNat attr))

/-- A count at a sync word, wherever it is. -/
def State.countIn (s : State) (d : Doer) (a : DWord) (n : Nat) (attr : Option Attr) : Eng Nat :=
  s.syncUpdate d a (fun w => swArrive w n) attr
/-- A count at the sync word an operand names, none at address 0 (R225). -/
def State.countAt (s : State) (d : Doer) (a : DWord) (n : Nat) (attr : Option Attr) : Eng Nat :=
  if a == 0 then .ok 0 s else s.countIn d a n attr
/-- ERR at a sync word (R60); a word whose region is gone takes none (R280). -/
def State.errIn (s : State) (d : Doer) (a : DWord) : Eng Unit :=
  match s.syncUpdate d a swSetErr none with
  | .ok _ s => .ok () s
  | .wait => .wait
  | .fail _ => .ok () s
/-- ERR at the sync word an operand names, if it names one. -/
def State.errAt (s : State) (d : Doer) (a : DWord) : Eng Unit := if a == 0 then .ok () s else s.errIn d a
/-- The state after an access that has no reason to wait, or unchanged. -/
def Eng.orElse {α : Type} (r : Eng α) (s : State) : State :=
  match r with
  | .ok _ s' => s'
  | _ => s

/-! ## Slots (R208) -/

/-- A slot's flags: SUB, OVR, ERR, CLOSED, as the bits above PUSHES. -/
def flSub : Nat := 1
def flOvr : Nat := 2
def flErr : Nat := 4
def flClosed : Nat := 8

/-- The 16 bytes of a slot; its reserved bits are written zero. -/
def slotBytes (value : DWord) (pushes : Word) (flags : Nat) : List Byte :=
  leBytes 8 value.toNat ++ leBytes 4 pushes.toNat ++ leBytes 4 (flags % 16)

/-- The 16 bytes of a slot as its core's subscription unit reaches it: scratchpad, or a global VA on a latency core in the mode
of the thread that owns it. -/
def State.slotRead (s : State) (core owner asid : Nat) (slot : DWord) : Eng (List Byte) :=
  s.nearRead (.plain core asid (isSup owner)) slot 16

/-- An update of all 16 bytes of a slot, with the attribution of the event at its second word (R288). -/
def State.slotWrite (s : State) (core owner asid : Nat) (slot : DWord) (bs : List Byte) (attr : Option Attr) : Eng Unit :=
  let d := Doer.plain core asid (isSup owner)
  match s.nearWrite d slot bs with
  | .ok _ s => .ok () (s.setMark d (slot + 8) (s.onWay slot.toNat attr))
  | r => r

/-- A subscription lost with its home (R65, R317): ERR set and SUB cleared in one update, the rest kept. -/
def State.slotLost (s : State) (core owner asid : Nat) (slot : DWord) : Eng Unit :=
  match s.slotRead core owner asid slot with
  | .ok old s1 =>
    let fl := (field old 12 4 % 16 &&& (flOvr + flClosed)) ||| flErr
    s1.slotWrite core owner asid slot (slotBytes (d64 (field old 0 8)) (w32 (field old 8 4)) fl) none
  | .wait => .wait
  | .fail c => .fail c

/-! ## SWINIT and SWADD (R219) -/

/-- A lane as it updates a sync word itself. -/
def Ctx.doer (c : Ctx) (l : Nat) (first : Nat) : Doer :=
  ⟨c.core, c.core, 4, c.asid, c.u.sup, some (c.who l, first), none, true, 0⟩

/-- The memory and the address that a near address leads to. -/
def State.nearPlace (s : State) (d : Doer) (a : DWord) : Option (Nat × Nat) :=
  if d.lat then match s.translate d.core d.asid d.sup a .read with
    | .ok (t, _) => some ((s.redirect t).1.space, (s.redirect t).1.pa)
    | .error _ => none
  else match spadDecode d.near a with
    | .ok (c, off) => some (128 + c, off)
    | .error _ => none
/-- A thread's own access, performed now, of n bytes at a near address (R46). -/
def State.sawNear (s : State) (w : Who) (d : Doer) (a : DWord) (n : Nat) : State :=
  match s.nearPlace d a with
  | some (space, pa) => s.sawNow w space pa n
  | none => s

/-- The attribution of a release at a sync word, and the ordering of a scratchpad atomic (R49, R51): a release waits
for the lane's drains, every atomic for its loads. -/
def State.swTrip (s : State) (c : Ctx) (f : FmtX) (l : Nat) (t : Thread) (g : Nat → Nat → Nat) : Trip :=
  let w := c.who l
  let a := t.pair f.a.toNat
  let b := (t.reg f.b.toNat).toNat
  let rel := f.p.getLsbD 1
  let go (s : State) : Trip :=
    match s.syncUpdate (c.doer l s.reqNo) a (g b) (if rel then some (s.carry w t) else none) with
    | .wait => .stay s
    | .fail x => .fault x a s
    | .ok old s => ({ s with writer := w.slot }.sawNear w (c.doer l 0) a 8).goOn w fun t =>
      (t.write (pairOut f.d.toNat (d64 old))).mark (regSpan f.d.toNat 8)
  match s.nearCheck c.u.slot c.asid c.u.sup a 8 8 with
  | some x => .fault x a s
  | none =>
    if rel then s.release w t go
    else if s.storeWaits w || !(s.live t.fences).isEmpty then .stay s
    else go s

/-- SWINIT: COUNT 0, the new TARGET, ERR clear, GEN kept. -/
def swInit (b w : Nat) : Nat := bitsOf w 62 56 * 2 ^ 56 + b % 2 ^ 28 * 2 ^ 28

/-- SWINIT (R219). -/
def execSwinit (f : FmtX) (s : State) : Host.Outcome State Fault Refusal :=
  memInstr (.swinit f) s fun c l t s => s.swTrip c f l t swInit

/-- SWADD (R219): a software arrival of n bytes. -/
def execSwadd (f : FmtX) (s : State) : Host.Outcome State Fault Refusal :=
  memInstr (.swadd f) s fun c l t s => s.swTrip c f l t fun n w => swArrive w n

end Sys2Proof.Machine
end

