-- ==== Sys2Proof/Machine/Matrix.lean ====
section
/-! DEFINITION. The matrix arrays: the queue of a group (R233, R234), the multiply family (R235 to R240), accumulator
and constant-matrix commands (R241 to R243), with the arithmetic of R254 to R257. Majors 0x20 and 0x21. -/

namespace Sys2Proof.Machine

/-! ## Operand formats (R236) -/

/-- The element formats of the arrays. -/
inductive MatFmt where
  | bx (fmt : Nat)
  | e4m3
  | e5m2
  | f16
  | b16
  | s8
  | n8
deriving DecidableEq, Repr

def MatFmt.isBx : MatFmt → Bool
  | .bx _ => true
  | _ => false

/-- Bytes of a block of 64 elements. -/
def MatFmt.block : MatFmt → Nat
  | .bx k => 8 * bxWidth k
  | .f16 | .b16 => 128
  | _ => 64

/-- The pitch of a row or column of kb blocks. -/
def MatFmt.pitch (m : MatFmt) (kb : Nat) : Nat := roundUp (kb * m.block) 64

/-- Element e of a block's bytes, exactly (R188, R247, R248, R256). -/
def MatFmt.elem (m : MatFmt) (block : List Byte) (scale e : Nat) : Num :=
  let byte := field block e 1
  match m with
  | .bx k => fromBx k (leVal block / 2 ^ (bxWidth k * e) % 2 ^ bxWidth k) scale
  | .e4m3 => f8Num false byte
  | .e5m2 => f8Num true byte
  | .f16 => Machine.f16.decode (field block (2 * e) 2)
  | .b16 => Machine.b16.decode (field block (2 * e) 2)
  | .s8 => if byte < 128 then .fin false byte 0 else .fin true (256 - byte) 0
  | .n8 => .fin false byte 0

/-- The format of MMAG's field P[9:7] (R235). -/
def mmagFmt (n : Nat) : MatFmt :=
  match n with
  | 3 => .e4m3
  | 4 => .e5m2
  | 5 => .f16
  | 6 => .b16
  | 7 => .s8
  | k => .bx k

/-- The formats of A and B of a command of major 0x20 (R235). -/
def matFmts : Instr → MatFmt × MatFmt
  | .mmab4 _ => (.bx 0, .bx 0)
  | .mmab6 _ => (.bx 1, .bx 1)
  | .mmab8 _ => (.bx 2, .bx 2)
  | .mmaf8 f => (if f.p.getLsbD 4 then .e5m2 else .e4m3, if f.p.getLsbD 5 then .e5m2 else .e4m3)
  | .mmah f => if f.p.getLsbD 4 then (.b16, .b16) else (.f16, .f16)
  | .mmai8 f => (if f.p.getLsbD 4 then .s8 else .n8, if f.p.getLsbD 5 then .s8 else .n8)
  | .mmag f => (mmagFmt (f.p.toNat / 128), mmagFmt (f.p.toNat / 128))
  | .mmas f =>
    let m : MatFmt := match f.p.toNat / 16 % 4 with
      | 0 => .e4m3
      | 1 => .e5m2
      | 2 => .s8
      | _ => .n8
    (m, m)
  | _ => (.n8, .n8)

/-- The fields of a command of majors 0x20 and 0x21. -/
def matFields : Instr → Option FmtX
  | .mmab4 f | .mmab6 f | .mmab8 f | .mmaf8 f | .mmah f | .mmai8 f | .mmag f | .mmas f
  | .azero f | .ald f | .ast f | .mtrn f | .mprm f | .mred f => some f
  | _ => none

/-- A command of major 0x20. -/
def isMma : Instr → Bool
  | .mmab4 _ | .mmab6 _ | .mmab8 _ | .mmaf8 _ | .mmah _ | .mmai8 _ | .mmag _ | .mmas _ => true
  | _ => false

/-! ## Block sums (R238, R256, R257) -/

/-- The exact sum of a block's products, and whether an invalid operation of R257 stands among its terms. -/
def blockSum (xs ys : List Num) : Num × Bool :=
  let ps := (xs.zip ys).map fun p => (mulNum p.1 p.2, p.1.isNan || p.2.isNan)
  let bad := ps.any fun p => p.1.isNone
  let nan := ps.any fun p => p.2
  let terms := ps.filterMap fun p => p.1
  let pos := terms.any fun t => t.isInf && !t.neg?
  let neg := terms.any fun t => t.isInf && t.neg?
  if bad || nan then (.nan false, bad)
  else if pos && neg then (.nan false, true)
  else if pos || neg then (.inf neg, false)
  else
    let r := terms.foldl (fun (a : Option (Bool × Nat × Int)) t => match a with
      | none => some t.parts
      | some (n, m, e) =>
        let (n', m', e') := t.parts
        some (sumFin .rne n m e n' m' e')) none
    match r with
    | none => (.fin false 0 0, false)
    | some (n, m, e) => (.fin n m e, false)

/-- One block added into an element (R238): RNE in the accumulator format, with the events of R257. -/
def accAdd (acc : BitVec 42) (sum : Num × Bool) : BitVec 42 × Flags :=
  let (r, fl) := fAcc.addNum .rne false (fAcc.decode acc.toNat) sum.1
  (BitVec.ofNat 42 r, { nv := fl.nv || sum.2, of := fl.of })

def Tile.at (t : Tile) (row col : Nat) : BitVec 42 := get t.elems (128 * row + col) 0
def Tile.zero : Tile := { elems := [], err := false }
/-- A tile from its elements; zeros are not listed. -/
def tileOf (err : Bool) (f : Nat → Nat → BitVec 42) : Tile :=
  { elems := ((List.range 16384).map fun i => (i, f (i / 128) (i % 128))).filter fun x => x.2 != 0, err := err }

/-- A multiplication of one K-block: accumulator rows with the A and B blocks of their row and of each column. -/
def rowAdd (t : Tile × Flags) (dst : Nat) (xs : List Num) (cols : List (List Num)) : Tile × Flags :=
  cols.zipIdx.foldl (fun (r : Tile × Flags) c =>
    let (v, fl) := accAdd (r.1.at dst c.2) (blockSum xs c.1)
    ({ r.1 with elems := put (128 * dst + c.2) v r.1.elems }, r.2.or fl)) t

/-! ## Operands of a command (R235 to R240) -/

def matKb (f : FmtX) : Nat := f.p.toNat % 16 + 1
def matZf (f : FmtX) : Bool := f.p.getLsbD 6
def matTile (f : FmtX) : Nat := f.d.toNat % 16

/-- Bytes of the A tile of a command. -/
def matASize (i : Instr) (f : FmtX) : Nat :=
  match i with
  | .mmas _ => 128 * 64 * matKb f
  | _ => 128 * (matFmts i).1.pitch (matKb f)
def matBSize (i : Instr) (f : FmtX) : Nat := 128 * (matFmts i).2.pitch (matKb f)

/-- A scale halfword as a lane's register holds it now; a lane without a member reads zero (R237). -/
def Group.scaleAt (g : Group) (reg hi lane : Nat) : BitVec 16 :=
  match lookup lane g.members with
  | none => 0
  | some t => BitVec.ofNat 16 ((t.reg reg).toNat / 2 ^ (16 * hi))

/-- The scale halfwords of 128 rows and kb blocks, by 16 × row + block (R237).
DEDUCED (unsafe): notes/assumptions/30.md. -/
def Group.scales (g : Group) (reg hi kb : Nat) : Map (BitVec 16) :=
  (List.range 2048).filterMap fun i =>
    if i % 16 < kb then some (i, g.scaleAt (reg + 4 * (i % 16) + i / 16 / 32) hi (i / 16 % 32)) else none

/-- A row of MMAG's table (R239). -/
structure MmagRow where
  addr : Nat
  rows : Nat
  off  : Nat
  sb   : Nat
  hsb  : Nat
deriving DecidableEq, Repr

def mmagRow (tab : List Byte) (g : Nat) : MmagRow :=
  let o := 8 + 16 * g
  ⟨field tab o 4, field tab (o + 4) 2, field tab (o + 6) 2, field tab (o + 8) 2, field tab (o + 10) 1⟩
def mmagRows (tab : List Byte) : List MmagRow := (List.range (field tab 0 4)).map (mmagRow tab)
def mmagFirst (tab : List Byte) (g : Nat) : Nat := (List.range g).foldl (fun n h => n + (mmagRow tab h).rows) 0

/-- A group's matrix work as it reaches scratchpad for a command (R57). -/
def MatCmd.doer (c : MatCmd) (asid : Nat) : Doer :=
  let core := coreOfSlot c.issuer.slot
  ⟨core, core, 5, asid, false, some (c.issuer, c.first), none, true, 0⟩

/-- The table is malformed (R239): the count, the row sums, reserved fields, scale registers, B addresses; an off(g) above 127 with no
rows or an HSB(g) above 1, which the list does not name but the layout has no meaning for, counts as malformed too.
DEDUCED (unsafe): notes/assumptions/30.md. -/
def State.mmagBad (s : State) (slot asid : Nat) (fp : Word) (i : Instr) (f : FmtX) (tab : List Byte) : Bool :=
  let n := field tab 0 4
  let bx := (matFmts i).2.isBx
  n == 0 || 32 < n || field tab 4 4 != 0 || 128 < mmagFirst tab n ||
  (List.range n).any fun g =>
    let r := mmagRow tab g
    let last := r.sb + 4 * matKb f - 1
    128 < r.off + r.rows || 127 < r.off || 1 < r.hsb || field tab (8 + 16 * g + 11) 5 != 0 ||
    (if bx then 512 ≤ last || !oneFile r.sb (4 * matKb f) || (r.sb < 0x1E0 && fpNV fp < last)
      else r.sb != 0) ||
    s.nearCheck slot asid false (d64 r.addr) (matBSize i f) 64 != none

/-- What a command reads when it starts: MMAG's table, after the issuer's earlier accesses to it (R57, R233), and the scales
(R229, R239, R306); none while it waits. -/
def State.capture (s : State) (slot : Nat) (g : Group) (c : MatCmd) (i : Instr) (f : FmtX) : Option MatCmd :=
  let kb := matKb f
  let hsa := b2n (f.p.getLsbD 4) 1
  match i with
  | .mmab4 _ | .mmab6 _ | .mmab8 _ =>
    let sb := f.c.toNat + (if f.p.getLsbD 7 then 4 * kb else 0)
    some { c with scaleA := g.scales f.c.toNat hsa kb, scaleB := [g.scales sb (b2n (f.p.getLsbD 5) 1) kb] }
  | .mmag _ =>
    let d := c.doer g.asid
    let n := match s.nearRead d c.b 8 with
      | .ok hd _ => 8 + 16 * min (leVal (hd.take 4)) 32
      | _ => 8
    let with_ (tab : List Byte) : MatCmd :=
      if (matFmts i).1.isBx then
        { c with table := tab, scaleA := g.scales f.c.toNat hsa kb,
                 scaleB := if s.mmagBad slot g.asid g.footprint i f tab then []
                   else (mmagRows tab).map fun r => g.scales r.sb r.hsb kb }
      else { c with table := tab }
    match s.nearRead d c.b n with
    | .ok bs _ => some (with_ bs)
    | .wait => none
    | .fail _ => some (with_ (leBytes 8 0))
  | _ => some c

/-! ## Effects -/

/-- The blocks of one row or column of a tile's bytes, decoded. -/
def tileBlock (m : MatFmt) (pitch : Nat) (bytes : List Byte) (scales : Map (BitVec 16)) (row j : Nat) : List Num :=
  let block := (bytes.drop (row * pitch + j * m.block)).take m.block
  let scale := (get scales (16 * row + j) 0).toNat
  (List.range 64).map fun e => m.elem block scale e

/-- One K-block of a plain multiply: every row by every column. -/
def mmaBlock (ma mb : MatFmt) (kb : Nat) (a b : List Byte) (sa sb : Map (BitVec 16)) (rows : List (Nat × Nat)) (j : Nat)
    (t : Tile × Flags) : Tile × Flags :=
  let cols := (List.range 128).map fun n => tileBlock mb (mb.pitch kb) b sb n j
  rows.foldl (fun r x => rowAdd r x.2 (tileBlock ma (ma.pitch kb) a sa x.1 j) cols) t

/-- A sparse unit as its 512 dense bytes (R240), none where it marks more than 448. -/
def expandUnit (u : List Byte) : Option (List Byte) :=
  let map := leVal (u.take 64)
  let n := (List.range 512).foldl (fun n t => n + b2n (bit map t) 1) 0
  if 448 < n then none
  else some ((List.range 512).foldl (fun (r : List Byte × Nat) t =>
    if bit map t then (r.1 ++ [BitVec.ofNat 8 (field u (64 + r.2) 1)], r.2 + 1) else (r.1 ++ [0#8], r.2)) ([], 0)).1

/-- The sparse A tile as a dense one. -/
def expandTile (bytes : List Byte) : Option (List Byte) :=
  (List.range (bytes.length / 512)).foldl (fun (r : Option (List Byte)) k => match r, expandUnit ((bytes.drop (512 * k)).take 512) with
    | some a, some b => some (a ++ b)
    | _, _ => none) (some [])

/-- The next bytes, at most n from offset o, of some ranges read one after another: none past one that must wait. -/
def takePieces (read : DWord × Nat → Nat → Nat → Option (List Byte)) (o n : Nat) : List (DWord × Nat) → List Byte
  | [] => []
  | r :: rs =>
    if r.2 ≤ o then takePieces read (o - r.2) n rs
    else match read r o (min n (r.2 - o)) with
      | none => []
      | some bs => if n ≤ r.2 - o then bs else bs ++ takePieces read 0 (n - (r.2 - o)) rs

/-- The tile of a command that stopped in an error, its rows unspecified (R234). -/
def Tile.broken (st : Nat) : Tile :=
  { elems := (List.range 16384).map fun i => (i, Config.freeElem st i), err := true }

/-- The scratchpad a command reads as it is performed (R236, R239, R241, R243). -/
def MatCmd.reads (c : MatCmd) (i : Instr) (f : FmtX) : List (DWord × Nat) :=
  match i with
  | .azero _ | .ast _ | .mtrn _ | .mred _ => []
  | .ald _ => [(c.a, 65536)]
  | .mprm _ => [(c.b, 128)]
  | .mmag _ => (c.a, matASize i f) ::
      if 32 < field c.table 0 4 then [] else (mmagRows c.table).map fun r => (d64 r.addr, matBSize i f)
  | _ => [(c.a, matASize i f), (c.b, matBSize i f)]
/-- All the bytes a command reads. -/
def MatCmd.total (c : MatCmd) (i : Instr) (f : FmtX) : Nat := (c.reads i f).foldl (fun n r => n + r.2) 0
/-- The bytes of one of its operands, where it has read them piece by piece (R45). -/
def takeOperand (a : DWord) (n : Nat) : List (DWord × Nat) → List Byte → List Byte
  | [], _ => leBytes n 0
  | r :: rs, bs => if r == (a, n) then bs.take n else takeOperand a n rs (bs.drop r.2)

/-- The bytes of near memory, zeros where the region cannot be read. -/
def State.matBytes (s : State) (d : Doer) (a : DWord) (n : Nat) : List Byte :=
  match s.nearRead d a n with
  | .ok bs _ => bs
  | _ => leBytes n 0
/-- The bytes of an operand of a command: as it read them piece by piece, or now. -/
def State.operand (s : State) (d : Doer) (c : MatCmd) (i : Instr) (f : FmtX) (a : DWord) (n : Nat) : List Byte :=
  if c.got.isEmpty || c.got.length < c.total i f then s.matBytes d a n else takeOperand a n (c.reads i f) c.got

/-- The blocks of a multiply, in the order they are added: its K-blocks, MMAG's entry by entry (R238, R239). -/
def MatCmd.blocks (c : MatCmd) (i : Instr) (f : FmtX) : Nat :=
  match i with
  | .mmag _ => matKb f * max 1 (min (field c.table 0 4) 32)
  | _ => matKb f
/-- Some blocks of a multiply (R238 to R240): the tile and its events.
DEDUCED (safe): notes/assumptions/31.md. -/
def State.mma (s : State) (slot : Nat) (g : Group) (c : MatCmd) (i : Instr) (f : FmtX) (blocks : List Nat) (t : Tile) :
    Tile × Flags :=
  let kb := matKb f
  let d := c.doer g.asid
  let (ma, mb) := matFmts i
  let a := s.operand d c i f c.a (matASize i f)
  let plain := (List.range 128).map fun r => (r, r)
  match i with
  | .mmag _ =>
    if s.mmagBad slot g.asid g.footprint i f c.table then ({ t with err := true }, {})
    else
      let es := (mmagRows c.table).zipIdx.map fun e =>
        let first := mmagFirst c.table e.2
        (s.operand d c i f (d64 e.1.addr) (matBSize i f), (c.scaleB[e.2]?).getD [],
          (List.range e.1.rows).map fun k => (first + k, e.1.off + k))
      each (fun b r => match es[b / kb]? with
        | some e => mmaBlock ma mb kb a e.1 c.scaleA e.2.1 e.2.2 (b % kb) r
        | none => r) blocks (t, {})
  | .mmas _ => match expandTile a with
    | none => (.broken s.stamp, {})
    | some a =>
      let b := s.operand d c i f c.b (matBSize i f)
      each (fun j r => mmaBlock ma mb kb a b [] [] plain j r) blocks (t, {})
  | _ =>
    let b := s.operand d c i f c.b (matBSize i f)
    each (fun j r => mmaBlock ma mb kb a b c.scaleA ((c.scaleB[0]?).getD []) plain j r) blocks (t, {})

/-- An element as binary32 or bfloat16 (R242). -/
def astNum (b16_ sat : Bool) (x : BitVec 42) : Nat × Flags :=
  cvtffNum (if b16_ then b16 else f32) .rne none sat false (fAcc.decode x.toNat)

/-- AST's bytes and events (R242, R257): .f32, .b16, or .bx8 codes and scales. -/
def astBytes (f : FmtX) (t : Tile) : List Byte × Flags :=
  let fmt := f.p.toNat % 4
  let sat := f.p.getLsbD 3
  let vs := (List.range 16384).map fun k => astNum (fmt == 1) sat (get t.elems k 0)
  let fl := vs.foldl (fun (a : Flags) v => a.or v.2) {}
  if fmt != 2 then (vs.flatMap fun v => leBytes (if fmt == 1 then 2 else 4) v.1, fl)
  else
    let bl := (List.range 256).map fun k => packBlock 2 (((vs.drop (64 * k)).take 64).map fun v => f32.decode v.1)
    let fb := bl.foldl (fun (a : Flags) b => a.or { b.2.2 with nv := false }) {}
    (bl.flatMap (fun b => b.2.1.map (BitVec.ofNat 8)) ++ bl.flatMap (fun b => leBytes 2 b.1), fl.or fb)

/-- The sum of rows lo to lo + n of a column in increasing order (R243). -/
def redSum (t : Tile) (col lo n : Nat) : BitVec 42 × Flags :=
  (List.range (n - 1)).foldl (fun (r : BitVec 42 × Flags) k =>
    let (v, fl) := accAdd r.1 (fAcc.decode (t.at (lo + k + 1) col).toNat, false)
    (v, r.2.or fl)) (t.at lo col, {})

/-- MRED's tile and events. -/
def redTile (t : Tile) (m : Nat) (err : Bool) : Tile × Flags :=
  let n := 2 ^ m
  let cell (row col : Nat) : BitVec 42 × Flags := if row < 128 / n then redSum t col (row * n) n else (0, {})
  (tileOf err fun r c => (cell r c).1,
    (List.range 16384).foldl (fun (a : Flags) i => a.or (cell (i / 128) (i % 128)).2) {})

def Group.tile (g : Group) (n : Nat) : Tile := get g.tiles n .zero
def Group.setTile (g : Group) (n : Nat) (t : Tile) : Group := { g with tiles := put n t g.tiles }

/-- What a count of the command carries: its issuer's token with the command's cycles (R288).
DEDUCED (unsafe): notes/assumptions/32.md. -/
def MatCmd.carry (c : MatCmd) : Option Attr := c.attr.map fun a => { a with token := growTok a.token c.cycles }

/-- Its operands can be read now: behind no earlier access of the issuing thread (R57, R233), with no uncorrectable error
(R234). -/
def State.matReady (s : State) (d : Doer) : List (DWord × Nat) → Eng Unit
  | [] => .ok () s
  | (a, n) :: rs => match s.nearRead d a n with
    | .wait => .wait
    | .fail 7 => .fail 7
    | _ => s.matReady d rs

/-- Classes put with those a command has raised. -/
def MatCmd.raise (c : MatCmd) (fl : Flags) : MatCmd :=
  { c with classes := c.classes ++ fl.classes.filter fun k => !(c.classes ++ c.counted).contains k }
/-- The numeric events of a command, one per class, for its issuer, as it completes or stops (R234, R257, R262). -/
def State.matEvents (s : State) (c : MatCmd) : State := s.countEvents c.issuer c.classes

/-- Some K-blocks of a multiply on its tile, by a command that has the classes of their events after it (R238 to R240); a
tile with its error set is left alone, an uncorrectable error in the tile or an operand sets it (R234). -/
def State.matBlocks (s : State) (slot : Nat) (g : Group) (c : MatCmd) (i : Instr) (f : FmtX) (blocks : List Nat)
    (broken : Bool) : State × MatCmd :=
  let d := matTile f
  let t := if matZf f && c.next == 0 then Tile.zero else g.tile d
  if t.err then (s, c)
  else
    let (t', fl) := if broken || t.ecc then (Tile.broken s.stamp, {}) else s.mma slot g c i f blocks t
    (s.bump.modGroup slot fun g => g.setTile d t', c.raise fl)

/-- A command performed to its end (R238 to R243): its tile, its bytes, its count and its events; none while it waits for an
access before it.
DEDUCED (safe): notes/assumptions/31.md. -/
def State.matPerform (s : State) (slot : Nat) (g : Group) (c : MatCmd) (i : Instr) (f : FmtX) : Option State :=
  let d := matTile f
  let t := g.tile d
  let k := c.doer g.asid
  let set (s : State) (t : Tile) : State := s.modGroup slot fun g => g.setTile d t
  let src := g.tile (f.a.toNat % 16)
  let sync (s : State) (n : Nat) : Option State := match s.countAt k c.c n c.carry with
    | .ok _ s => some s
    | .wait => none
    | .fail _ => some s
  let err (s : State) : Option State := match s.errAt k c.c with
    | .ok _ s => some s
    | _ => none
  if c.poison then some (set s { t with err := true })
  else match s.matReady k (c.reads i f) with
  | .wait => none
  | r =>
    let broken := r == .fail 7
    match i with
    | .azero _ => some (set s .zero)
    | .ald _ =>
      if broken then err (set s { Tile.broken s.stamp with err := true }).bump
      else
        let bs := s.operand k c i f c.a 65536
        let conv (r n : Nat) : BitVec 42 := BitVec.ofNat 42 (fAcc.roundNum .rne false (f32.decode (field bs (512 * r + 4 * n) 4))).1
        sync (set s (tileOf false conv)) 65536
    | .ast _ =>
      if t.err || t.ecc then err (set s { t with err := true })
      else
        let (bs, fl) := astBytes f t
        match s.nearWrite k (c.a + d64 c.part) (bs.drop c.part) with
        | .wait => none
        | .fail _ => err ((if f.p.getLsbD 2 then set s .zero else s).matEvents (c.raise fl))
        | .ok _ s => sync ((if f.p.getLsbD 2 then set s .zero else s).matEvents (c.raise fl)) bs.length
    | .mtrn _ =>
      if t.err then some s
      else if src.ecc then some (set s.bump (.broken s.stamp)) else some (set s (tileOf src.err fun r n => src.at n r))
    | .mprm _ =>
      if t.err then some s
      else if broken || src.ecc then some (set s.bump (.broken s.stamp))
      else
        let p := s.operand k c i f c.b 128
        some (set s (tileOf src.err fun r n => if field p r 1 < 128 then src.at (field p r 1) n else 0))
    | .mred _ =>
      if t.err then some s
      else if src.ecc then some (set s.bump (.broken s.stamp))
      else
        let (t', fl) := redTile src (f.p.toNat % 8) src.err
        some ((set s t').matEvents (c.raise fl))
    | _ =>
      let (s, c) := s.matBlocks slot g c i f ((List.range (c.blocks i f)).drop c.next) broken
      some (s.matEvents c)

/-! ## Issue -/

/-- The operand ranges a command names at issue, with alignments (R216, R236, R239, R241); address 0 of a sync word is
none. -/
def matRanges (i : Instr) (f : FmtX) (a b c : DWord) : List (DWord × Nat × Nat) :=
  let sync := if c == 0 then [] else [(c, 8, 8)]
  match i with
  | .mmag _ => [(a, matASize i f, 64), (b, 8, 8)]
  | .azero _ | .mtrn _ | .mred _ => []
  | .mprm _ => [(b, 128, 64)]
  | .ald _ => (a, 65536, 64) :: sync
  | .ast _ => (a, match f.p.toNat % 4 with
      | 0 => 65536
      | 1 => 32768
      | _ => 16896, 64) :: sync
  | _ => [(a, matASize i f, 64), (b, matBSize i f, 64)]

/-- The captured C value: a sync word's address for ALD and AST (R241). -/
def matC (i : Instr) (f : FmtX) (t : Thread) : DWord :=
  match i with
  | .ald _ | .ast _ => t.pair f.c.toNat
  | _ => 0

/-- The first cause among those of some ranges, in the order of R153. -/
def State.matCheck (s : State) (slot asid : Nat) (sup : Bool) (acc : Acc) : List (DWord × Nat × Nat) → Option (Nat × DWord)
  | [] => none
  | (a, n, al) :: rs =>
    firstCause ((s.nearCheckAs slot asid sup acc a n al).map fun c => (c, a)) (s.matCheck slot asid sup acc rs)

/-- A command with what it captures at issue. -/
def State.matCmd (s : State) (w : Who) (t : Thread) (word : DWord) (i : Instr) (f : FmtX) : MatCmd :=
  { word := word, a := t.pair f.a.toNat, b := t.pair f.b.toNat, c := matC i f t, issuer := w, attr := some (s.carry w t),
    cycles := 0, poison := false, next := 0, onArr := false, scaleA := [], scaleB := [], table := [], first := s.reqNo }

def Group.enqueue (g : Group) (c : MatCmd) : Group := { g with queue := g.queue ++ [c] }

/-- One lane of a command of majors 0x20 and 0x21 (R214, R216, R233). -/
def matTrip (i : Instr) (f : FmtX) (c : Ctx) (l : Nat) (t : Thread) (s : State) : Trip :=
  let w := c.who l
  let cmd := s.matCmd w t c.u.word i f
  match s.matCheck c.u.slot c.asid c.u.sup .update (matRanges i f cmd.a cmd.b cmd.c) with
  | some (x, a) => .fault x a s
  | none => (s.modGroup c.u.slot fun g => g.enqueue cmd).goOn w id

/-- MMAB4 (R235, R238). -/
def execMmab4 (f : FmtX) (s : State) : Host.Outcome State Fault Refusal := memInstr (.mmab4 f) s (matTrip (.mmab4 f) f)
/-- MMAB6 (R235, R238). -/
def execMmab6 (f : FmtX) (s : State) : Host.Outcome State Fault Refusal := memInstr (.mmab6 f) s (matTrip (.mmab6 f) f)
/-- MMAB8 (R235, R238). -/
def execMmab8 (f : FmtX) (s : State) : Host.Outcome State Fault Refusal := memInstr (.mmab8 f) s (matTrip (.mmab8 f) f)
/-- MMAF8 (R235, R238). -/
def execMmaf8 (f : FmtX) (s : State) : Host.Outcome State Fault Refusal := memInstr (.mmaf8 f) s (matTrip (.mmaf8 f) f)
/-- MMAH (R235, R238). -/
def execMmah (f : FmtX) (s : State) : Host.Outcome State Fault Refusal := memInstr (.mmah f) s (matTrip (.mmah f) f)
/-- MMAI8 (R235, R238). -/
def execMmai8 (f : FmtX) (s : State) : Host.Outcome State Fault Refusal := memInstr (.mmai8 f) s (matTrip (.mmai8 f) f)
/-- MMAG (R239). -/
def execMmag (f : FmtX) (s : State) : Host.Outcome State Fault Refusal := memInstr (.mmag f) s (matTrip (.mmag f) f)
/-- MMAS (R240). -/
def execMmas (f : FmtX) (s : State) : Host.Outcome State Fault Refusal := memInstr (.mmas f) s (matTrip (.mmas f) f)
/-- AZERO (R241). -/
def execAzero (f : FmtX) (s : State) : Host.Outcome State Fault Refusal := memInstr (.azero f) s (matTrip (.azero f) f)
/-- ALD (R241). -/
def execAld (f : FmtX) (s : State) : Host.Outcome State Fault Refusal := memInstr (.ald f) s (matTrip (.ald f) f)
/-- AST (R242). -/
def execAst (f : FmtX) (s : State) : Host.Outcome State Fault Refusal := memInstr (.ast f) s (matTrip (.ast f) f)
/-- MTRN (R243). -/
def execMtrn (f : FmtX) (s : State) : Host.Outcome State Fault Refusal := memInstr (.mtrn f) s (matTrip (.mtrn f) f)
/-- MPRM (R243). -/
def execMprm (f : FmtX) (s : State) : Host.Outcome State Fault Refusal := memInstr (.mprm f) s (matTrip (.mprm f) f)
/-- MRED (R243). -/
def execMred (f : FmtX) (s : State) : Host.Outcome State Fault Refusal := memInstr (.mred f) s (matTrip (.mred f) f)

/-! ## The arrays' events (R233, R234) -/

/-- The instruction of a command's word, with its fields. -/
def MatCmd.instr (c : MatCmd) : Option (Instr × FmtX) :=
  match decode c.word with
  | .ok d => (matFields d.i).map fun f => (d.i, f)
  | .error _ => none

/-- The arrays of a slot can work: the die is not stopped (R383), and no pre-emption is taken, but that the queue is
drained while it holds a discarded follow-on, for which a save frame has no field (R41, R354). -/
def State.arraysRun (s : State) (slot : Nat) (g : Group) : Bool :=
  (!(g.preempt.any (·.taken)) || g.queue.any (·.poison)) && !(s.core (coreOfSlot slot)).stopped

/-- The command at the head of a slot's queue starts, reading its scales and MMAG's table, unless a save holds them already
(R229, R306); none while an access before it holds it up (R57). -/
def State.matStart (s : State) (slot : Nat) (g : Group) (c : MatCmd) : Option MatCmd :=
  match c.instr with
  | some (i, f) =>
    (if c.table.isEmpty && c.scaleB.isEmpty && !c.poison then s.capture slot g c i f else some c).map fun c => { c with onArr := true }
  | none => some { c with onArr := true }

/-- A piece of a command's operands read, or of AST's bytes written, where the pace has engines move some bytes at a time (R45):
the state, or none where nothing is left to do so. -/
def State.matPiece (s : State) (slot : Nat) (g : Group) (c : MatCmd) (cs : List MatCmd) : Option State :=
  let n := s.pace.grain
  match c.instr with
  | none => none
  | some (i, f) =>
    let k := c.doer g.asid
    let put (s : State) (c : MatCmd) : State := s.setGroup slot { g with queue := c :: cs }
    if n == 0 || c.poison then none
    else if c.got.length < c.total i f then
      let bs := takePieces (fun r o m => match s.nearRead k (r.1 + d64 o) m with
        | .ok bs _ => some bs
        | .wait => none
        | .fail _ => some (leBytes m 0)) c.got.length n (c.reads i f)
      some (put s { c with got := c.got ++ bs })
    else match i with
      | .ast _ =>
        let t := g.tile (matTile f)
        let bs := (astBytes f t).1
        if t.err || t.ecc || bs.length ≤ c.part + n then none
        else match s.nearWrite k (c.a + d64 c.part) ((bs.drop c.part).take n) with
          | .ok _ s => some (s.modGroup slot fun g => { g with queue := { c with part := c.part + n } :: cs })
          | .wait => some s
          | .fail _ => none
      | _ => none

/-- The command on the array finishes its current block, if it has another one after it (R244). -/
def State.matNext (s : State) (slot : Nat) (g : Group) (c : MatCmd) (cs : List MatCmd) : State :=
  match c.instr with
  | none => s
  | some (i, f) =>
    if !isMma i || c.poison || c.blocks i f ≤ c.next + 1 then s
    else match s.matReady (c.doer g.asid) (c.reads i f) with
      | .wait => s
      | r =>
        let (s, c) := s.matBlocks slot g c i f [c.next] (r == .fail 7)
        s.modGroup slot fun g => { g with queue := { c with next := c.next + 1 } :: cs }

/-- The command on the array finishes its last block (R238 to R243). -/
def State.matFinish (s : State) (slot : Nat) (g : Group) (c : MatCmd) (cs : List MatCmd) : State :=
  let g := { g with queue := cs }
  match c.instr with
  | none => s.setGroup slot g
  | some (i, f) => ((s.setGroup slot g).matPerform slot g c i f).getD s

/-- MATRIX_COMMAND_START: the command at the head of the queue starts, or goes on to its next K-block. -/
def execMatrixCommandStart (s : State) : Host.Outcome State Fault Refusal :=
  .next (match s.subject with
    | .slot x =>
      let slot := slotIdKey x
      match s.group? slot with
      | none => s
      | some g => match g.queue with
        | [] => s
        | c :: cs =>
          if !s.arraysRun slot g then s
          else if c.onArr then (s.matPiece slot g c cs).getD (s.matNext slot g c cs)
          else match s.matStart slot g c with
            | some c => s.setGroup slot { g with queue := c :: cs }
            | none => s
    | _ => s)

/-- MATRIX_COMMAND_COMPLETE: the command on the array finishes its last block (R238 to R243).
DEDUCED (safe): notes/assumptions/31.md. -/
def execMatrixCommandComplete (s : State) : Host.Outcome State Fault Refusal :=
  .next (match s.subject with
    | .slot x =>
      let slot := slotIdKey x
      match s.group? slot with
      | none => s
      | some g => match g.queue with
        | [] => s
        | c :: cs => if c.onArr && s.arraysRun slot g then (s.matPiece slot g c cs).getD (s.matFinish slot g c cs) else s
    | _ => s)

/-- A command on the array stops at the end of its current block, counting its events so far, each class once (R244, R257,
R262). -/
def State.matStop (s : State) (slot : Nat) : State :=
  match s.group? slot with
  | none => s
  | some g => match g.queue with
    | [] => s
    | c :: cs =>
      if !c.onArr then s
      else match c.instr with
        | none => s
        | some (i, f) =>
          if !isMma i || c.blocks i f ≤ c.next + 1 then s.matFinish slot g c cs
          else
            let s := s.matNext slot g c cs
            let cl := ((s.group? slot).bind fun g => g.queue.head?.map (·.classes)).getD []
            (s.modGroup slot fun g => { g with queue := match g.queue with
              | c :: cs => { c with classes := [], counted := c.counted ++ cl, onArr := false, got := [] } :: cs
              | [] => [] }).countEvents c.issuer cl

/-! ## Follow-ons (R229) -/

/-- A follow-on whose sync word cannot be read any more is discarded. -/
def State.followStep (s : State) (g : Group) (x : Follow) : Option MatCmd :=
  match s.nearRead (x.cmd.doer g.asid) x.sync 8 with
  | .ok bs _ => x.due (leVal bs)
  | .wait => none
  | .fail _ => some { x.cmd with poison := true }

/-- The follow-ons of a slot that are due. -/
def State.settleFollows (s : State) (slot : Nat) : State :=
  match s.group? slot with
  | none => s
  | some g => if g.follows.isEmpty then s else s.setGroup slot (g.follow (s.followStep g))

end Sys2Proof.Machine
end

