-- ==== Sys2Proof/Machine/Control.lean ====
section
/-! DEFINITION. Branches, jumps, calls and returns, majors 0x10 and 0x11 (R123 to R126); meeting registers, GSYNC and
hardware loops, major 0x12 (R127 to R131). -/

namespace Sys2Proof.Machine

/-- PC + 8 × OFF. -/
def relPc (pc : DWord) (off : BitVec 40) : DWord := pc + (off.signExtend 64 <<< 3)

/-- A taken branch or jump with what it writes: cause 0x03 where the target is misaligned, with no link written
(R125). -/
def jumpOut (t : DWord) (link : List (Nat × Word)) : Out :=
  if t &&& 7 != 0 then { fin := .fault 3 0 t } else { regs := link, fin := .jump t }

/-- The target of JR, CALLR and RET: a pair, or an s-register (R124). -/
def jumpTarget (f : FmtA) (c : Ctx) (t : Thread) : DWord := src64 c.g t f.sA f.a

/-- BRA (R125). -/
def execBra (off : BitVec 40) (s : State) : Host.Outcome State Fault Refusal :=
  regInstr (.bra off) s fun c _ _ => jumpOut (relPc c.u.pc off) []

/-- CALL (R125): the link is PC + 8. -/
def execCall (f : FmtB) (s : State) : Host.Outcome State Fault Refusal :=
  regInstr (.call f) s fun c _ _ => jumpOut (relPc c.u.pc f.off) (pairOut f.link.toNat (c.u.pc + 8))

/-- JR (R125). -/
def execJr (f : FmtA) (s : State) : Host.Outcome State Fault Refusal :=
  regInstr (.jr f) s fun c _ t => jumpOut (jumpTarget f c t) []

/-- CALLR (R125): the target is read before the link is written. -/
def execCallr (f : FmtA) (s : State) : Host.Outcome State Fault Refusal :=
  regInstr (.callr f) s fun c _ t => jumpOut (jumpTarget f c t) (pairOut f.d.toNat (c.u.pc + 8))

/-- RET (R125, R126). -/
def execRet (f : FmtA) (s : State) : Host.Outcome State Fault Refusal :=
  regInstr (.ret f) s fun c _ t => jumpOut (jumpTarget f c t) []

/-- JRS (R125, R126): the target is an s-register. -/
def execJrs (f : FmtA) (s : State) : Host.Outcome State Fault Refusal :=
  regInstr (.jrs f) s fun c _ _ => jumpOut (c.g.sreg f.a.toNat) []

/-! ## Meeting registers -/

/-- The meeting value that a source sets: 0 means none (R128). -/
def meetOf (n : DWord) : DWord := if n == 0 then 0xFFFFFFFFFFFFFFFF else n

/-- A thread with a new meeting register goes on at its next PC, held there if they are equal (R128, R17): the value it is
given, all ones for 0, is stored forwarded (R269). -/
def State.meetAt (s : State) (c : Ctx) (t : Thread) (n : DWord) (ws : List (Nat × Word)) : Thread :=
  ({ t.write ws with meet := s.forward c.die c.asid (meetOf n) }).advance c.lat

/-- MEET (R128): the old value goes to D. -/
def execMeet (f : FmtA) (s : State) : Host.Outcome State Fault Refusal :=
  issue (.meet f) s (eachLane fun c l t s =>
    s.setThread (c.who l) (s.meetAt c t (src64 c.g t f.sA f.a) (pairOut f.d.toNat t.meet)))

/-- REJOIN (R128, R269). -/
def execRejoin (f : FmtA) (s : State) : Host.Outcome State Fault Refusal :=
  issue (.rejoin f) s (eachLane fun c l t s =>
    s.setThread (c.who l) (s.meetAt c t (src64 c.g t f.sA f.a) []))

/-- GSYNC (R15, R129): a lane arrives once its drains are performed (R53), and the group goes on when every member
waits in one; on a latency core at once (R11). -/
def execGsync (s : State) : Host.Outcome State Fault Refusal :=
  issue .gsync s fun c s =>
    (tripBody (fun c l _ s => s.drained (c.who l) fun s =>
      .go (s.modThread (c.who l) fun t => { t with run := .waiting .gsync true 0 })) c s).settleGsync c.u.slot none

/-! ## Hardware loops -/

def Thread.lc (t : Thread) (n : Nat) : LoopCtx := if n == 0 then t.lc0 else t.lc1
def Thread.setLc (t : Thread) (n : Nat) (l : LoopCtx) : Thread :=
  if n == 0 then { t with lc0 := l } else { t with lc1 := l }

/-- A thread that goes to an address by a loop instruction: the loop test of R131 is made where that is the next
address (notes/assumptions/7.md). -/
def Thread.loopTo (t : Thread) (lat : Bool) (pc : DWord) : Thread :=
  if pc == t.pc + 8 then t.advance lat else t.arrive lat pc

/-- LOOP (R130): LEN is in B and C; the count is 64-bit with M[0].
DEDUCED (unsafe): notes/assumptions/7.md. -/
def execLoop (f : FmtA) (s : State) : Host.Outcome State Fault Refusal :=
  issue (.loop f) s (eachLane fun c l t s =>
    let n := if f.mode.getLsbD 0 then src64 c.g t f.sA f.a else (src32 c.g t f.sA f.a).setWidth 64
    let len := f.b.toNat + 512 * f.c.toNat
    let stop := t.pc + d64 (8 * len)
    let t' := t.setLc f.d.toNat ⟨n, t.pc + 8, stop⟩
    s.setThread (c.who l) (t'.loopTo c.lat (if n == 0 then stop + 8 else t.pc + 8)))

/-- LPEXIT (R130): an active context is left past its end.
DEDUCED (unsafe): notes/assumptions/7.md. -/
def execLpexit (f : FmtA) (s : State) : Host.Outcome State Fault Refusal :=
  issue (.lpexit f) s (eachLane fun c l t s =>
    let x := t.lc f.d.toNat
    s.setThread (c.who l) (if x.count == 0 then t.advance c.lat
      else (t.setLc f.d.toNat { x with count := 0 }).loopTo c.lat (x.stop + 8)))

end Sys2Proof.Machine
end

