-- ==== Sys2Proof/Machine/Csr.lean ====
section
/-! DEFINITION. Control and status registers (R91 to R96, R298): reading and writing every listed index, and the four
CSR instructions (R148). -/

namespace Sys2Proof.Machine

/-! ## Core and die registers -/

/-- A core-scope or die-scope CSR (R92, R283, R298). -/
def State.csrReadCore (s : State) (core i : Nat) : DWord :=
  if 0x180 ≤ i && i < 0x1C0 then d64 (s.alw core (i - 0x180))
  else if 0x1C0 ≤ i && i < 0x1C8 then d64 (s.alwd core (i - 0x1C0))
  else if i == 0x900 then (s.die (dieOfCore core)).packwin.setWidth 64
  else (s.core core).reg i

/-- The size register of a ring as it is stored: k from 12 to `hi`, or 0 (R298, R338). -/
def ringSize (v hi : Nat) : Nat := let k := v % 32; if k == 0 then 0 else clampTo 12 hi k

/-- The value a core-scope or die-scope CSR stores: ranges and reserved bits (R91, R92, R296, R298). -/
def csrStored (i : Nat) (v : DWord) : DWord :=
  let n := v.toNat
  let w := n % 2 ^ 32
  if i == 0x1C8 then d64 (w % 2)
  else if i == 0x800 then d64 (clampTo 64 65535 w)
  else if i == 0x801 then d64 (clampTo 8192 1048575 w)
  else if i == 0x802 then d64 (clampTo 256 1048575 w)
  else if i == 0x803 then d64 (clampTo 16 65535 w)
  else if i == 0x804 then d64 (clampTo 0 16777215 w)
  else if i == 0x805 then d64 (clampTo 1024 (2 ^ 31) w)
  else if i == 0x806 then d64 (w % 256)
  else if i == 0x900 || i == 0xA08 then d64 (clampTo 0 65535 w)
  else if i == 0xA01 || i == 0xA09 then d64 (n / 4096 * 4096)
  else if i == 0xA02 || i == 0xA0A then d64 (ringSize w 30 + (if bit w 8 then 256 else 0))
  else if i == 0xA10 then d64 (w % 2)
  else if 0xA20 ≤ i && i ≤ 0xA2F then
    let m := n % 2 ^ 63
    let fn := bitsOf m 50 48
    if 6 ≤ fn || (fn == 5 && i < 0xA2C) then d64 (m - fn * 2 ^ 48) else d64 m
  else match csrInfo i with
    | some c => if c.wide then v else d64 w
    | none => v

/-- A write of a core-scope or die-scope CSR: NWIN restarts the window (R263), a reprogrammed or frozen cell loses its
open run (R297). The cycle before a cell's first counts as one in which its events were 0 (R296, FN EDGE).
DEDUCED (unsafe): notes/assumptions/81.md. -/
def State.csrWriteCore (s : State) (core i : Nat) (v : DWord) : State :=
  let x := csrStored i v
  if i == 0x900 then s.modDie (dieOfCore core) fun d => { d with packwin := x.setWidth 32 }
  else s.modCore core fun c =>
    let c := c.setRegRaw i x
    if i == 0x805 then { c with window := 0 }
    else if i == 0xA10 && x == 1 then { c with runs := [], prev := [] }
    else if 0xA20 ≤ i && i ≤ 0xA2F then { c with runs := del (i - 0xA20) c.runs, prev := del (i - 0xA20) c.prev }
    else if 0xA60 ≤ i && i ≤ 0xA67 then { c with runs := del (12 + (i - 0xA60) / 2) c.runs }
    else c

/-! ## All registers of a thread -/

/-- CTXB of an address space (R91, R340): the core's cached copy, else the table's; 0 without a table.
DEDUCED (unsafe): notes/assumptions/28.md. -/
def State.ctxb (s : State) (core asid : Nat) : DWord :=
  match (s.core core).tlb.find? fun e => e.asid == asid with
  | some e => e.ctxb
  | none =>
    let b := s.dreg (dieOfCore core) 0x000
    if b == 0 then 0
    else match s.readPhys (b.toNat + 64 * asid + 8) 8 with
      | .ok bs => d64 (leVal bs)
      | .error _ => 0

/-- A CSR as the thread reads it, zero-extended (R92, R298). -/
def State.csrRead (s : State) (w : Who) (g : Group) (t : Thread) (i : Nat) : DWord :=
  let core := coreOfSlot w.slot
  match i with
  | 0x000 => t.fpcr.setWidth 64
  | 0x001 => t.fpsr.setWidth 64
  | 0x002 => t.srseed.setWidth 64
  | 0x003 => t.pathtok
  | 0x004 => t.utv
  | 0x005 => t.uepc
  | 0x006 => t.udata
  | 0x007 => t.ucause.setWidth 64
  | 0x008 => s.tframe (dieOfCore core) g.asid t
  | 0x009 => t.cohort.setWidth 64
  | 0x00A => t.wid
  | 0x00B => (s.agentOf w).setWidth 64
  | 0x00C => s.ctxb core g.asid
  | 0x100 => g.gcyc
  | 0x101 => g.tmr
  | 0x102 => g.spbase.setWidth 64
  | 0xA00 => t.seq.setWidth 64
  | _ => s.csrReadCore core i

/-- A thread-scope CSR written (R92 to R96). -/
def Thread.csrWrite (t : Thread) (i : Nat) (v : DWord) : Thread :=
  let x : Word := v.setWidth 32
  match i with
  | 0x000 => { t with fpcr := x &&& 7 }
  | 0x001 => { t with fpsr := x &&& 0x7F }
  | 0x002 => { t with srseed := if x == 0 then 1 else x }
  | 0x003 => { t with pathtok := v &&& 0xFFFFFFFFFFFFF }
  | 0x004 => { t with utv := v &&& ~~~7 }
  | 0x005 => { t with uepc := v &&& ~~~7 }
  | 0x006 => { t with udata := v }
  | 0x007 => { t with ucause := x &&& 0x73F }
  | 0x00A => if t.cohort == 0 then { t with wid := v } else t
  | 0xA00 => { t with seq := x }
  | _ => t

/-- The timer of a group has expired (R39). -/
def Group.expired (g : Group) : Bool := g.tmr != 0 && g.tmr.toNat ≤ g.gcyc.toNat
/-- Its expiry: GCYC restarts and a timer trap becomes pending in every unparked member; one that can take it at once abandons
what it waits in. -/
def Group.ring (g : Group) (lat : Bool) : Group :=
  if !g.expired then g
  else
    let ring := fun (m : Nat × Thread) =>
      if m.2.run.isParked then m
      else
        let t := { m.2 with timer := some g.tmr }
        (m.1, if t.inHandler then t else t.abandon lat)
    { g with gcyc := 0, members := g.members.map ring }

/-- A group-scope CSR written. -/
def Group.csrWrite (g : Group) (i : Nat) (v : DWord) : Group :=
  match i with
  | 0x100 => { g with gcyc := v }
  | 0x101 => { g with tmr := v }
  | _ => g

/-- The copies of address space 0's CTXB in the cores that use the address-space table at `base` take a value (R148). -/
def State.renewCtxb (s : State) (base : DWord) (v : DWord) : State :=
  let renew := fun (e : TlbEntry) => if e.asid == 0 then { e with ctxb := v } else e
  { s with cores := s.cores.map fun c =>
      (c.1, if s.dreg (dieOfCore c.1) 0x000 == base then { c.2 with tlb := c.2.tlb.map renew } else c.2) }

/-- A CSR written by a thread: its own copy, its group's, the core's or die's, or the CTXB of address space 0 (R91), whose
copies in every core's TLB follow (R148). Where there is no address-space table, which would hold it, the write has no effect.
DESIGN CHOICE (unsafe): notes/assumptions/81.md. -/
def State.csrWrite (s : State) (w : Who) (i : Nat) (v : DWord) : State :=
  let core := coreOfSlot w.slot
  if i == 0x00C then
    let b := s.dreg (dieOfCore core) 0x000
    if b == 0 then s
    else match s.writePhys (b.toNat + 8) (leBytes 8 v.toNat) with
      | .ok s => s.renewCtxb b v
      | .error _ => s
  else match csrInfo i with
    | none => s
    | some c => match c.scope with
      | .thread => s.modThread w fun t => t.csrWrite i v
      | .group => s.modGroup w.slot fun g => g.csrWrite i v
      | _ => s.csrWriteCore core i v

/-! ## The instructions (R148) -/

/-- The source of a CSR write. -/
def csrSrc (f : FmtC) (g : Group) (t : Thread) : DWord :=
  if f.wide then src64 g t f.sA f.a else (src32 g t f.sA f.a).setWidth 64
/-- The register writes of the old value. -/
def csrDest (f : FmtC) (old : DWord) : List (Nat × Word) := wideOut f.wide f.d.toNat old

/-- A CSR write with `new old x`: a group CSR once for the group by lane f, the others lane by lane (R91, R148). -/
def csrBody (f : FmtC) (new : DWord → DWord → DWord) (c : Ctx) (s : State) : State :=
  let i := f.csr.toNat
  match csrInfo i with
  | some ⟨_, .group, _, _, _⟩ =>
    groupOnce (fun c l t s =>
      let old := s.csrRead (c.who l) c.g t i
      let s := s.csrWrite (c.who l) i (new old (csrSrc f c.g t))
      each (fun l s => s.modThread (c.who l) fun t => (t.write (csrDest f old)).advance c.lat) c.lanes s) c s
  | _ =>
    eachLane (fun c l t s =>
      let old := s.csrRead (c.who l) c.g t i
      let s := s.csrWrite (c.who l) i (new old (csrSrc f c.g t))
      s.modThread (c.who l) fun t => (t.write (csrDest f old)).advance c.lat) c s

/-- CSRR. -/
def execCsrr (f : FmtC) (s : State) : Host.Outcome State Fault Refusal :=
  issue (.csrr f) s (eachLane fun c l t s =>
    s.setThread (c.who l) ((t.write (csrDest f (s.csrRead (c.who l) c.g t f.csr.toNat))).advance c.lat))

/-- CSRW. -/
def execCsrw (f : FmtC) (s : State) : Host.Outcome State Fault Refusal :=
  issue (.csrw f) s (csrBody f fun _ x => x)

/-- CSRSET. -/
def execCsrset (f : FmtC) (s : State) : Host.Outcome State Fault Refusal :=
  issue (.csrset f) s (csrBody f fun old x => old ||| x)

/-- CSRCLR. -/
def execCsrclr (f : FmtC) (s : State) : Host.Outcome State Fault Refusal :=
  issue (.csrclr f) s (csrBody f fun old x => old &&& ~~~x)

end Sys2Proof.Machine
end

