-- ==== Sys2Proof/Machine/System.lean ====
section
/-! DEFINITION. System instructions, major 0x15 (R145 to R147), LIVE (R149), STEP and PTAG (R150), TLBI (R151). -/

namespace Sys2Proof.Machine

/-- NOP (R146). -/
def execNop (s : State) : Host.Outcome State Fault Refusal :=
  regInstr .nop s fun _ _ _ => {}

/-- SYSCALL (R31, R146): on a SIMT core the thread migrates to the latency pool with the call pending and the PC of the
SYSCALL; on a latency core it enters the system-call entry. -/
def execSyscall (s : State) : Host.Outcome State Fault Refusal :=
  memInstr .syscall s fun c l t s =>
    if c.lat then s.release (c.who l) t fun s => .go (s.supervisorEntry c.u.slot 0 0 0 t.pc 0 false)
    else s.departReady (c.who l) t 8 { t with sysPend := true }

/-- TRAP (R147): cause 0x0D with the operand. -/
def execTrap (f : FmtA) (s : State) : Host.Outcome State Fault Refusal :=
  regInstr (.trap f) s fun c _ t => { fin := .trap 0x0D (src64 c.g t f.sA f.a) }

/-- ERET in user mode (R147). -/
def execEret (s : State) : Host.Outcome State Fault Refusal :=
  issue .eret s (eachLane fun c l _ s => s.returnTrap (c.who l))

/-- ERET in supervisor mode (R350). A lane whose guard is false goes on. -/
def execEretSupervisor (s : State) : Host.Outcome State Fault Refusal :=
  issue .eretSupervisor s (eachLane fun c _ _ s => s.returnSupervisor c.u.slot)

/-- BRKPT (R147, R379): a user trap where the die enables user breakpoints, else a fault. -/
def execBrkpt (f : FmtA) (s : State) : Host.Outcome State Fault Refusal :=
  regInstr (.brkpt f) s fun c _ _ =>
    let n := d64 f.a.toNat
    if (s.dreg c.die 0x400).getLsbD 0 then { fin := .trap 0x0C n } else { fin := .fault 0x0C 0 n }

/-- LIVE (R149, R40): q becomes undefined; a pre-emption request is taken after it, with its record. -/
def execLive (off : BitVec 40) (s : State) : Host.Outcome State Fault Refusal :=
  issue (.live off) s fun c s =>
    let st := s.stamp
    let s := s.bump
    let s := eachLane (fun c l t s => s.setThread (c.who l) ((t.dropQ st).advance c.lat)) c s
    s.modGroup c.u.slot fun g => { g with preempt := g.preempt.map fun p =>
      if p.taken then p else { p with taken := true, record := some (relPc c.u.pc off), lanes := c.lanes } }

/-- STEP.begin (R150).
DEDUCED (unsafe): notes/assumptions/72.md. -/
def execStepBegin (f : FmtA) (s : State) : Host.Outcome State Fault Refusal :=
  issue (.stepBegin f) s (eachLane fun c l t s =>
    (s.stepRecord (c.who l) t 2 (src32 c.g t f.sA f.a)).modThread (c.who l) fun t => t.advance c.lat)

/-- STEP.end (R150).
DEDUCED (unsafe): notes/assumptions/72.md. -/
def execStepEnd (f : FmtA) (s : State) : Host.Outcome State Fault Refusal :=
  issue (.stepEnd f) s (eachLane fun c l t s =>
    (s.stepRecord (c.who l) t 3 (src32 c.g t f.sA f.a)).modThread (c.who l) fun t => t.advance c.lat)

/-- PTAG (R150).
DEDUCED (unsafe): notes/assumptions/72.md. -/
def execPtag (f : FmtA) (s : State) : Host.Outcome State Fault Refusal :=
  issue (.ptag f) s (eachLane fun c l t s =>
    (s.stepRecord (c.who l) t 4 (src32 c.g t f.sA f.a)).modThread (c.who l) fun t => t.advance c.lat)

/-! ## Maintenance that blocks a lane (R151, R205, R206) -/

/-- A lane that blocks until its maintenance completes.
DEDUCED (safe): notes/assumptions/26.md. -/
def State.blockIn (s : State) (w : Who) (m : Maint) : State := s.modThread w fun t => { t with run := .maint m }

/-- A core is in a maintenance scope of a core: itself, its die, or its package (R151, R205). -/
def inScope (core sc x : Nat) : Bool := if sc ≤ 2 then x == core else if sc == 3 then dieOfCore x == dieOfCore core else true

/-- TLBI (R151): the lane blocks until every TLB in scope has dropped the matching entries.
DEDUCED (safe): notes/assumptions/26.md. -/
def execTlbi (f : FmtN) (s : State) : Host.Outcome State Fault Refusal :=
  issue (.tlbi f) s (eachLane fun c l t s =>
    s.blockIn (c.who l) (.tlbi f.sz.toNat (baseOf c.g t f.ub f.ba) ((t.reg f.db.toNat).toNat % 65536) f.sc.toNat))

/-- The entry matches a TLBI. -/
def tlbiHits (kind : Nat) (va : DWord) (asid : Nat) (e : TlbEntry) : Bool :=
  let covers := e.va ≤ va.toNat && va.toNat < e.va + e.size
  match kind with
  | 0 => e.asid == asid && covers
  | 1 => e.asid == asid
  | 2 => true
  | _ => covers

/-- The entries in scope dropped. -/
def State.dropTlbs (s : State) (core kind : Nat) (va : DWord) (asid sc : Nat) : State :=
  { s with cores := s.cores.map fun (k, c) =>
      (k, if inScope core sc k then { c with tlb := c.tlb.filter fun e => !tlbiHits kind va asid e } else c) }

/-- The lane of a maintenance goes on (R131). -/
def State.maintDone (s : State) (w : Who) : State :=
  s.modThread w fun t => ({ t with run := .ready }).advance (isLatency w.slot)

/-- TLBI_COMPLETE: every TLB and walk in scope has dropped the entries and the lane continues (R151).
DEDUCED (safe): notes/assumptions/26.md. -/
def execTlbiComplete (s : State) : Host.Outcome State Fault Refusal :=
  .next (match s.subject with
    | .lane l => match (s.thread? (laneWho l)).map Thread.run with
      | some (.maint (.tlbi k va a sc)) => (s.dropTlbs (coreOfSlot (laneKey l)) k va a sc).maintDone (laneWho l)
      | _ => s
    | _ => s)

end Sys2Proof.Machine
end

