-- ==== Sys2Proof/Machine/Copy.lean ====
section
/-! DEFINITION. The copy engine: shapes and descriptors (R220 to R224), copies (R225 to R229), transfer chains (R230 to
R232) and their channels (R215, R227). Majors 0x22 but the sync-word instructions, and 0x23. -/

namespace Sys2Proof.Machine

/-! ## Shapes (R220, R221, R223, R226) -/

/-- Unit and base alignment of a format code (R221). -/
def copyUnit : Nat → Option (Nat × Nat)
  | 0 => some (1, 1)
  | 1 => some (2, 2)
  | 2 => some (4, 4)
  | 3 => some (8, 8)
  | 4 => some (16, 16)
  | 5 => some (32, 32)
  | 6 => some (48, 16)
  | 7 => some (64, 64)
  | 8 => some (512, 512)
  | _ => none

/-- What a well-formed record and box amount to. -/
structure Geo where
  base   : Nat
  fmt    : Nat
  unit   : Nat
  rank   : Nat
  circ   : Nat
  ext    : List Nat
  stride : List Nat
  box    : List Nat
  pitch  : Nat
deriving DecidableEq, Repr

def at5 (xs : List Nat) (k : Nat) : Nat := xs.getD k 0
def Geo.rows (g : Geo) : Nat := at5 g.box 1 * at5 g.box 2 * at5 g.box 3 * at5 g.box 4
/-- Elements of the box, the counted bytes and the size of the near side (R226). -/
def Geo.elems (g : Geo) : Nat := at5 g.box 0 * g.rows
def Geo.counted (g : Geo) : Nat := g.unit * g.elems
def Geo.near (g : Geo) : Nat := g.pitch * g.rows

/-- The checks of R223 in their order, all or none. A box pair with [63:60] nonzero, which R222 excludes and R223 does not list, fails
them too.
DEDUCED (unsafe): notes/assumptions/81.md. -/
def geoOf (rec : List Byte) (box : Nat) : Option Geo :=
  let n := field rec 9 1
  let circ := field rec 10 1
  let base := field rec 0 8
  let ext := (List.range 5).map fun k => field rec (12 + 4 * k) 4
  let stride := (List.range 5).map fun k => if k == 0 then 0 else field rec (32 + 8 * (k - 1)) 8
  let b := (List.range 5).map fun k => box / 2 ^ (12 * k) % 4096
  match copyUnit (field rec 8 1) with
  | none => none
  | some (u, al) =>
    let g : Geo := ⟨base, field rec 8 1, u, n, circ, ext, stride, b, roundUp (u * at5 b 0) 64⟩
    if n == 0 || 5 < n || circ / 2 ^ n != 0 || field rec 11 1 != 0 then none
    else if (List.range 5).any fun k => if k < n then at5 ext k == 0 || 2 ^ 31 ≤ at5 ext k else at5 ext k != 1 then none
    else if base % al != 0 || 2 ^ 48 ≤ base then none
    else if [1, 2, 3, 4].any fun k =>
        let x := at5 stride k
        if k < n then x == 0 || x % 16 != 0 || 2 ^ 48 ≤ x else x != 0 then none
    else if 2 ^ 60 ≤ box || (List.range 5).any fun k =>
        if k < n then at5 b k == 0 || (bit circ k && at5 ext k < at5 b k) else at5 b k != 1 then none
    else if 2 ^ 22 < g.near then none
    else some g

/-- The descriptor that SHAPE writes (R224). -/
def descBytes (rec : List Byte) (box : Nat) (g : Geo) : List Byte :=
  rec.take 64 ++ leBytes 8 box ++ leBytes 4 g.pitch ++ leBytes 4 g.counted ++ leBytes 4 0xD7C05A01 ++ leBytes 44 0

/-- A descriptor as a command reads it (R224): none where it is malformed. -/
def descGeo (d : List Byte) : Option Geo :=
  match geoOf (d.take 64) (field d 64 8) with
  | none => none
  | some g => if field d 80 4 == 0xD7C05A01 && field d 72 4 == g.pitch && field d 76 4 == g.counted then some g else none

/-- The coordinates of element i of the box. -/
def Geo.coord (g : Geo) (i k : Nat) : Nat :=
  i / (List.range k).foldl (fun n j => n * at5 g.box j) 1 % at5 g.box k

/-- Where element i lies from the near address (R226). -/
def Geo.nearOff (g : Geo) (i : Nat) : Nat :=
  g.unit * g.coord i 0 + g.pitch * (g.coord i 1 + at5 g.box 1 * (g.coord i 2 + at5 g.box 2 * (g.coord i 3 + at5 g.box 3 * g.coord i 4)))

/-- Its coordinate in dim k of the far side (R226, R228), none outside the extent. -/
def Geo.farCoord (g : Geo) (start : List Word) (rows : Option (List Word)) (i k : Nat) : Option Nat :=
  let x : Int := match rows with
    | some r => if k == 1 then (r.getD (g.coord i 1) 0).toInt else (start.getD k 0).toInt + (g.coord i k : Nat)
    | none => (start.getD k 0).toInt + (g.coord i k : Nat)
  let e : Int := (at5 g.ext k : Nat)
  if bit g.circ k then some (x % e).toNat else if 0 ≤ x && x < e then some x.toNat else none

/-- The far address of element i, none where it is out of extent (R226). -/
def Geo.far (g : Geo) (start : List Word) (rows : Option (List Word)) (i : Nat) : Option DWord :=
  (List.range g.rank).foldl (fun (a : Option DWord) k => match a, g.farCoord start rows i k with
    | some a, some x => some (a + d64 ((if k == 0 then g.unit else at5 g.stride k) * x))
    | _, _ => none) (some (d64 g.base))

/-- One lane's SHAPE (R222): the checks of R193 and R153, the record, R223, then the descriptor, a store of the lane (R49). -/
def State.shapeTrip (s : State) (c : Ctx) (l : Nat) (t : Thread) (f : FmtX) : Trip :=
  let w := c.who l
  let d := t.pair f.d.toNat
  let va := t.pair f.a.toNat
  let box := (t.pair f.b.toNat).toNat
  let bad := (s.nearCheck c.u.slot c.asid c.u.sup d 128 128).map fun x => (x, d)
  let first (y : Option (Nat × DWord)) (s : State) : Trip := match firstCause y bad with
    | some (x, a) => .fault x a s
    | none => .stay s
  match s.readNow w c.asid va 64 with
  | .fault x a => first (some (x, a)) s
  | .stay s => if bad.isSome then first none s else .stay s
  | .ok rec _ s1 =>
    if bad.isSome then first none s
    else match geoOf rec box with
    | none => .fault 8 va s1
    | some g =>
      if s1.storeWaits w || !(s1.live t.fences).isEmpty then .stay s
      else match s1.nearWrite (c.doer l s1.reqNo) d (descBytes rec box g) with
        | .ok _ s => ({ s with writer := w.slot }.sawNear w (c.doer l 0) d 128).goOn w id
        | .wait => .stay s
        | .fail x => .fault x d s1

/-- SHAPE (R222 to R224). -/
def execShape (f : FmtX) (s : State) : Host.Outcome State Fault Refusal :=
  memInstr (.shape f) s fun c l t s => s.shapeTrip c l t f

/-! ## Channels (R215) -/

def Core.chan (c : Core) (k : Nat) : Chan := get c.chans k { cmds := [], seq := 0, token := 0 }
def State.chan (s : State) (eng k : Nat) : Chan := (s.core eng).chan k
def State.setChan (s : State) (eng k : Nat) (x : Chan) : State :=
  s.modCore eng fun c => { c with chans := put k x c.chans }

def ChanOp.isChain : ChanOp → Bool
  | .chain _ => true
  | _ => false
def Chan.holdsChain (x : Chan) : Bool := x.cmds.any fun c => c.op.isChain

/-- The channel of a copy: the fewest commands among those without a chain, else among all; the lowest on a tie. -/
def State.pickChan (s : State) (eng : Nat) : Nat :=
  let free := (List.range 4).filter fun k => !(s.chan eng k).holdsChain
  let among := if free.isEmpty then List.range 4 else free
  (among.foldl (fun (b : Option Nat) k => match b with
    | none => some k
    | some j => if (s.chan eng k).cmds.length < (s.chan eng j).cmds.length then some k else some j) none).getD 0

/-- A command queued. -/
def State.pushCmd (s : State) (eng k : Nat) (x : ChanCmd) : State :=
  let ch := s.chan eng k
  s.setChan eng k { ch with cmds := ch.cmds ++ [x] }

/-! ## Issue of copies (R225, R227 to R229) -/

/-- An address with its CIC field replaced. -/
def withCic (a : DWord) (i : Nat) : DWord := (a &&& ~~~0xC00000) ||| d64 (i * 2 ^ 22)
/-- The addresses that a multicast makes of one: itself without a mask. -/
def castAddrs (mcast : Nat) (a : DWord) : List DWord :=
  if mcast == 0 then [a] else ((List.range 4).filter fun i => bit mcast i).map (withCic a)

/-- A copy as a lane issues it: the operands of R225. -/
structure CopyIssue where
  near  : DWord
  desc  : DWord
  start : List Word
  list  : Option DWord
  sync  : DWord
  p     : Nat
deriving DecidableEq, Repr

/-- The start coordinates from five registers, or from the gather's (R225, R228). -/
def copyStart (t : Thread) (b : Nat) (gather : Bool) : List Word :=
  if gather then [t.reg (b + 2), 0, t.reg (b + 3), t.reg (b + 4), t.reg (b + 5)]
  else (List.range 5).map fun k => t.reg (b + k)

def copyOf (f : FmtX) (t : Thread) (gather : Bool) : CopyIssue :=
  ⟨t.pair f.d.toNat, t.pair f.a.toNat, copyStart t f.b.toNat gather,
    if gather then some (t.pair f.b.toNat) else none, t.pair f.c.toNat, f.p.toNat⟩

/-- An address and, with a mask, those a multicast makes of it (R227). -/
def castAll (mcast : Nat) (a : DWord) : List DWord := if mcast == 0 then [a] else a :: castAddrs mcast a

/-- The ranges checked at issue (R216, R224, R227, R228), the first cause of R153's order among them: the descriptor, which is
only read, the sync word, and where the descriptor is well formed the near range, on every destination core too, and the list. -/
def State.copyCheck (s : State) (c : Ctx) (x : CopyIssue) (geo : Option Geo) : Option (Nat × DWord) :=
  let m := x.p / 64
  let check := s.matCheck c.u.slot c.asid c.u.sup
  let near := match geo with
    | none => []
    | some g => (castAll m x.near).map fun a => (a, g.near, 64)
  let list := match geo, x.list with
    | some g, some a => [(a, 4 * at5 g.box 1, 4)]
    | _, _ => []
  firstCause (check .read [(x.desc, 128, 128)])
    (firstCause (check .update ((if x.sync == 0 then [] else (castAll m x.sync).map fun a => (a, 8, 8)) ++ near)) (check .read list))

/-- [va, va + n) lies in the line of a write-combining entry. -/
def State.inEntry (s : State) (c : Ctx) (e : WcEntry) (va : DWord) (n : Nat) : Bool :=
  match s.translate c.core c.asid c.u.sup va .read with
  | .ok (t, _) => t.kind == .peer && t.peer == e.peer && t.pa / 64 ≤ e.line && e.line ≤ (t.pa + n - 1) / 64
  | .error _ => false
/-- An element of a copy lies in the line of a write-combining entry, on the far side or a latency core's near side. -/
def State.copyTouches (s : State) (c : Ctx) (x : CopyIssue) (geo : Option Geo) (rows : List Word) (e : WcEntry) : Bool :=
  match geo with
  | none => false
  | some g => (List.range g.elems).any fun i =>
    (c.lat && s.inEntry c e (x.near + d64 (g.nearOff i)) g.unit) ||
    match g.far x.start (if x.list.isSome then some rows else none) i with
    | none => false
    | some va => s.inEntry c e va g.unit

/-- The issuing thread's write-combining entries for lines that the copy touches drain at issue (R57, R67).
DEDUCED (safe): notes/assumptions/34.md. -/
def State.drainCopy (s : State) (c : Ctx) (l : Nat) (x : CopyIssue) (geo : Option Geo) : State :=
  let w := c.who l
  if !s.ownsEntry w then s
  else
    let rows : List Word := match x.list, geo with
      | some a, some g => match s.nearRead { c.doer l 0 with prior := none } a (4 * at5 g.box 1) with
        | .ok bs _ => (List.range (at5 g.box 1)).map fun j => w32 (field bs (4 * j) 4)
        | _ => []
      | _, _ => []
    s.drainIf c.core fun e => e.owner == w && s.copyTouches c x geo rows e

/-- A command as a lane issues it on a channel. -/
def State.copyCommand (s : State) (c : Ctx) (l : Nat) (t : Thread) (regs : List DWord) (sync : DWord) (op : ChanOp) : ChanCmd :=
  { word := c.u.word, issuer := c.who l, asid := c.asid, sup := c.u.sup, regs := regs, sync := sync, op := op,
    running := false, todo := [], rows := [], parts := [], sent := [], bad := none, record := [], chores := [],
    first := s.reqNo, back := t.back.map fun b => { b with floors := [], loads := [] },
    edges := (t.back.map (·.loads)).getD [], pend := s.readsOut (c.who l),
    attr := s.carry (c.who l) t, cycles := 0 }

/-- A lane's copy: the checks, the descriptor behind the lane's acquires (R49), then the queue entry; `bad` and `more` are what
TCPYM adds. A running command holds its queue entry.
DESIGN CHOICE (unsafe): notes/assumptions/81.md. -/
def State.copyTrip (s : State) (c : Ctx) (l : Nat) (t : Thread) (x : CopyIssue) (bad : Option (Nat × DWord)) (more : State → State) :
    Trip :=
  let eng := engineOf c.u.slot
  let k := s.pickChan eng
  match firstCause bad (s.copyCheck c x none) with
  | some (e, a) => .fault e a s
  | none => match if s.acqOut (c.who l) then .wait else s.nearRead (c.doer l s.reqNo) x.desc 128 with
    | .wait => .stay s
    | .fail e => .fault e x.desc s
    | .ok d s =>
      match s.copyCheck c x (descGeo d) with
      | some (e, a) => .fault e a s
      | none =>
        if 16 ≤ (s.chan eng k).cmds.length then .stay s
        else
          let op : Copy :=
            { desc := d, near := x.near, start := x.start, list := x.list, mcast := x.p / 64, acq := bit x.p 0,
              rel := bit x.p 1, store := bit x.p 5 }
          let s := (more s).drainCopy c l x (descGeo d)
          (s.pushCmd eng k (s.copyCommand c l t [x.near, x.desc, x.sync] x.sync (.copy op))).goOn (c.who l) id

/-- TCPY (R225 to R227). -/
def execTcpy (f : FmtX) (s : State) : Host.Outcome State Fault Refusal :=
  memInstr (.tcpy f) s fun c l t s => s.copyTrip c l t (copyOf f t false) none id

/-- TGATH (R228). -/
def execTgath (f : FmtX) (s : State) : Host.Outcome State Fault Refusal :=
  memInstr (.tgath f) s fun c l t s => s.copyTrip c l t (copyOf f t true) none id

/-- The decoding of a follow-on word for a lane (R229): its row and fields, or the cause and detail. A word that decodes but
is not of major 0x20, or has a guard, takes detail undefined.
DEDUCED (unsafe): notes/assumptions/81.md. -/
def followOn (word : DWord) (sup lat : Bool) (footprint : Word) : Except (Nat × Nat) (Decoded × FmtX) :=
  if isFallow word then .error (1, Detail.fallow.code)
  else match decode word with
  | .error d => .error (1, d.code)
  | .ok d => match gate d.i (formOf d) sup lat footprint with
    | some e => .error e
    | none =>
      if !isMma d.i || d.g != ⟨false, 0⟩ then .error (1, 1)
      else match matFields d.i with
        | some f => .ok (d, f)
        | none => .error (1, 1)

/-- TCPYM (R229): a copy with a follow-on multiply, whose A and B pairs it waits for (R34), after the lane's earlier accesses to the
sync word (R57). A zero sync-word address is met before the follow-on word's checks.
DEDUCED (unsafe): notes/assumptions/81.md. -/
def execTcpym (f : FmtX) (s : State) : Host.Outcome State Fault Refusal :=
  memInstr (.tcpym f) s fun c l t s =>
    let x := copyOf f t false
    let word := t.pair (f.c.toNat + 2)
    if x.sync == 0 then .fault 0x101 c.u.word s
    else match followOn word c.u.sup c.lat c.g.footprint with
      | .error (e, d) => .fault (e + 256 * d) word s
      | .ok (d, ff) =>
        if s.outstanding c.u.slot [l] { src := [⟨.v, ff.a.toNat, 2⟩, ⟨.v, ff.b.toNat, 2⟩] } then .stay s
        else
          let cmd := s.matCmd (c.who l) t word d.i ff
          let bad := s.matCheck c.u.slot c.asid c.u.sup .update (matRanges d.i ff cmd.a cmd.b 0)
          match s.nearRead (c.doer l s.reqNo) x.sync 8 with
          | .wait => .stay s
          | r =>
            let gen := match r with
              | .ok bs _ => swGen (leVal bs)
              | _ => 0
            s.copyTrip c l t x bad fun s => s.modGroup c.u.slot fun g => { g with follows := g.follows ++ [⟨x.sync, gen, cmd⟩] }

/-- One lane's CCHN (R230).
DEDUCED (safe): notes/assumptions/34.md. -/
def State.chainTrip (s : State) (c : Ctx) (l : Nat) (t : Thread) (f : FmtX) : Trip :=
  let w := c.who l
  let eng := engineOf c.u.slot
  let k := f.p.toNat % 4
  let va := t.pair f.a.toNat
  let sync := t.pair f.c.toNat
  if va.toNat % 64 != 0 then .fault 3 va s
  else match s.matCheck c.u.slot c.asid c.u.sup .update (if sync == 0 then [] else [(sync, 8, 8)]) with
    | some (e, a) => .fault e a s
    | none =>
      if 16 ≤ (s.chan eng k).cmds.length then .stay s
      else
        let s := s.drainOwner w
        (s.pushCmd eng k (s.copyCommand c l t [0, va, sync] sync (.chain va))).goOn w id

/-- CCHN (R230). What lines a chain touches shows only as it is walked, so every entry of the lane drains at issue. -/
def execCchn (f : FmtX) (s : State) : Host.Outcome State Fault Refusal :=
  memInstr (.cchn f) s fun c l t s => s.chainTrip c l t f

/-! ## Copies in their channel (R227) -/

def ChanCmd.slot (x : ChanCmd) : Nat := x.issuer.slot
/-- The token of a command: its issuer's with the cycles since the issue (R288). -/
def ChanCmd.token (x : ChanCmd) : DWord := growTok x.attr.token (refCycles (isLatency x.slot) x.cycles)
/-- What a count of the command carries: the channel is the producer (R288).
DEDUCED (unsafe): notes/assumptions/32.md. -/
def State.chanCarry (s : State) (k : Nat) (x : ChanCmd) : Attr :=
  ⟨x.token, s.chanAgent (engineOf x.slot) k, (s.chan (engineOf x.slot) k).seq⟩

/-- The engine works: its core is not stopped (R383). -/
def State.engineRuns (s : State) (eng : Nat) : Bool := !(s.core eng).stopped

/-- A halt has run its drain at an engine's die: no command goes on, and a chain begins no record (R383). -/
def State.drainOver (s : State) (eng : Nat) : Bool :=
  s.ctrl.halting.isSome && (s.dreg (dieOfCore eng) 0x408).toNat ≤ (s.die (dieOfCore eng)).haltCycles

/-- The command leaves its channel. -/
def State.dropCmd (s : State) (eng k : Nat) : State :=
  let ch := s.chan eng k
  s.setChan eng k { ch with cmds := ch.cmds.drop 1 }
/-- The head of a channel replaced. -/
def State.setHead (s : State) (eng k : Nat) (x : ChanCmd) : State :=
  let ch := s.chan eng k
  s.setChan eng k { ch with cmds := x :: ch.cmds.drop 1 }

/-- The destinations of a command's counts. -/
def ChanCmd.syncs (x : ChanCmd) : List DWord :=
  match x.op with
  | .copy c => if x.sync == 0 then [] else castAddrs c.mcast x.sync
  | .chain _ => if x.sync == 0 then [] else [x.sync]

/-- Who makes a command's accesses, those of one part of it tagged. -/
def ChanCmd.doer (x : ChanCmd) (k tag : Nat) : Doer :=
  ⟨engineOf x.slot, coreOfSlot x.slot, k, x.asid, x.sup, some (x.issuer, x.first), x.back, false, d64 tag⟩
/-- Lines of the channel are in flight; those of one part. -/
def State.linesOut (s : State) (d : Doer) : Bool := s.reqs.any fun r => r.who == d.who
def State.partOut (s : State) (d : Doer) : Bool := s.reqs.any fun r => r.who == d.who && r.pc == d.tag

/-! ## What is left to do -/

/-- The fields of a transfer record (R231). -/
def recCtl (r : List Byte) : Nat := field r 8 4
def recLen (r : List Byte) : Nat := field r 12 4
def recSync (r : List Byte) : DWord := d64 (field r 48 8)

/-- The STAT code of a cause (R231). -/
def statOf (cause : Nat) : Nat :=
  match cause with
  | 4 => 1
  | 5 => 2
  | 6 => 3
  | _ => 4

/-- What a record that fails leaves to do: STAT, ERR on its sync word where the spec has it so, ERR of the chain (R232). -/
def ChanCmd.failing (x : ChanCmd) (stat : Nat) (own : Bool) : List Chore :=
  .stat stat :: (if own then [.err (recSync x.record)] else []) ++ [.err x.sync, .leave]

/-- One thing left to do, done by the command that is then the head of its channel, or none if it leaves; nothing while it
must wait. A record's control word that cannot be written is left alone. -/
def State.chore (s : State) (k : Nat) (x : ChanCmd) (c : Chore) : Option (State × Option ChanCmd) :=
  let d := { x.doer k 0 with prompt := true }
  let r := x.record
  let rec_ : DWord := match x.op with
    | .chain a => a
    | .copy _ => 0
  let control (v : Nat) : Option (State × Option ChanCmd) := match s.engWriteLine d (rec_ + 8) (leBytes 4 v) none with
    | .wait => none
    | .fail _ => some (s, some x)
    | .ok _ s => some (s, some x)
  match c with
  | .err a => match if x.op.isChain then s.errAt d a else s.errIn d a with
    | .ok _ s => some (s, some x)
    | _ => none
  | .stat v => control (recCtl r - bitsOf (recCtl r) 15 12 * 4096 + v * 4096)
  | .done => control (recCtl r - bitsOf (recCtl r) 15 12 * 4096 - recCtl r % 2)
  | .count => match s.countAt d (recSync r) (recLen r) (some (s.chanCarry k x)) with
    | .wait => none
    | .fail _ => some (s, some { x with chores := x.failing 2 false })
    | .ok _ s => some (s, some x)
  | .flag =>
    if !bit (recCtl r) 1 then some (s, some x)
    else match s.engWriteLine d (d64 (field r 32 8)) (leBytes 8 (field r 40 8)) (some (s.chanCarry k x)) with
      | .wait => none
      | .fail e => some (s, some { x with chores := x.failing (statOf e) true })
      | .ok _ s => some (s, some x)
  | .tally => match s.countAt d x.sync 1 (some (s.chanCarry k x)) with
    | .wait => none
    | .fail _ => some (s, some x)
    | .ok _ s => some (s, some x)
  | .next =>
    let next := d64 (field r 0 8)
    some (s, if next == 0 then none else some { x with op := .chain next, record := [], parts := [] })
  | .leave => some (s, none)

/-- What is left to do of the head of a channel, in order, each after every line of the channel has been performed (R59,
R60). -/
def State.runChores (s : State) (eng k : Nat) : Nat → State
  | 0 => s
  | fuel + 1 => match (s.chan eng k).cmds with
    | [] => s
    | x :: _ => match x.chores with
      | [] => s
      | c :: cs =>
        if s.linesOut (x.doer k 0) then s
        else match s.chore k { x with chores := cs } c with
          | none => s
          | some (s, none) => s.dropCmd eng k
          | some (s, some x) => (s.setHead eng k x).runChores eng k fuel

/-- The head of a channel with things left to do, done as far as they can be. -/
def State.closing (s : State) (eng k : Nat) (x : ChanCmd) (cs : List Chore) : State :=
  (s.setHead eng k { x with chores := cs }).runChores eng k 16
/-! ## Engine entries of a dump (R388) -/

/-- Bytes counted by a copy command so far. -/
def ChanCmd.counted (x : ChanCmd) : Nat :=
  match x.op with
  | .chain _ => 0
  | .copy c => match descGeo c.desc with
    | some g => if x.running then g.unit * (g.elems - x.todo.length) else 0
    | none => 0
/-- Every byte a copy command would count. -/
def ChanCmd.total (x : ChanCmd) : Nat :=
  match x.op with
  | .chain _ => 0
  | .copy c => ((descGeo c.desc).map Geo.counted).getD 0

/-- An engine entry of the dump: its channel's agent id, a state, and the command. -/
def State.engineEntry (s : State) (eng k st counted : Nat) (x : ChanCmd) : List Byte :=
  leBytes 4 (s.chanAgent eng k).toNat ++ leBytes 4 st ++ leBytes 8 x.word.toNat ++
  (List.range 3).flatMap (fun i => leBytes 8 (x.regs.getD i 0).toNat) ++ leBytes 8 counted ++
  leBytes 4 (s.agentOf x.issuer).toNat ++ leBytes 12 0

/-- Two engine entries name one command. -/
def sameEntry (a b : List Byte) : Bool :=
  a.take 4 == b.take 4 && (a.drop 8).take 32 == (b.drop 8).take 32 && (a.drop 48).take 4 == (b.drop 48).take 4

/-- Of the entries of a log that name a command and say that it completed, the n-th is replaced. -/
def swapEntry (e : List Byte) : Nat → List (List Byte) → List (List Byte)
  | _, [] => []
  | n, y :: ys =>
    if sameEntry y e && field y 4 4 == 1 then (if n == 0 then e :: ys else y :: swapEntry e (n - 1) ys) else y :: swapEntry e n ys

/-- A command does not complete in a halt's drain: its entry's state and bytes. A channel's commands complete in order, so the
entry is the last but those of like commands behind it.
DEDUCED (unsafe): notes/assumptions/65.md. -/
def State.noteEnd (s : State) (eng k st : Nat) (x : ChanCmd) : State :=
  if s.ctrl.halting.isNone then s
  else
    let e := s.engineEntry eng k st x.counted x
    let like := fun y => sameEntry (s.engineEntry eng k 1 0 y) e
    let behind := (((s.chan eng k).cmds.dropWhile fun y => y != x).filter like).length
    let open_ := (s.ctrl.haltLog.filter fun y => sameEntry y e && field y 4 4 == 1).length
    s.modCtrl fun c => { c with haltLog := swapEntry e (open_ - max 1 behind) c.haltLog }

/-- A command that ends with ERR on the sync word of every destination core (R60). -/
def State.errCmd (s : State) (eng k : Nat) (x : ChanCmd) : State :=
  (s.noteEnd eng k (if x.running then 2 else 4) x).closing eng k x (x.syncs.map .err ++ [.leave])

/-! ## Bytes from one side to the other -/

/-- A 512-byte unit in the sparse form of R240: what follows the last packed byte is open (notes/assumptions/3.md).
DEDUCED (unsafe): notes/assumptions/33.md. -/
def sparseUnit (u : List Byte) (st : Nat) : List Byte :=
  let map := (List.range 512).foldl (fun n t => n + (if field u t 1 == 0 then 0 else 2 ^ t)) 0
  let packed := u.filter fun b => b != 0
  let tail := (List.range 448).map fun i => Config.freeByte st i
  (leBytes 64 map ++ packed ++ tail).take 512
/-- More than 448 bytes of a unit are nonzero (R229).
DEDUCED (unsafe): notes/assumptions/33.md. -/
def tooDense (u : List Byte) : Bool := 448 < (u.filter fun b => b != 0).length

/-- A side of a copy: global memory from an address, near memory at one address or more, or the zeros of an element out of
extent. -/
inductive Side where
  | far (va : DWord)
  | near (as : List DWord)
  | zeros
deriving DecidableEq, Repr

/-- The bytes from an offset that are read or written at once: of a far side a line, or a whole block (R376). -/
def State.chunk (s : State) (d : Doer) (x : Side) (writes : Bool) (off n : Nat) : Nat :=
  match x with
  | .far va =>
    if writes then s.engChunk d (va + d64 off) n
    else if (va + d64 off).toNat % 512 == 0 && 512 ≤ n then 512 else lineBytes (va + d64 off).toNat n
  | .near as => if d.lat then lineBytes ((as.headD 0) + d64 off).toNat n else n
  | .zeros => n
/-- The die of a side at an offset, or 6 for a peer (R295). -/
def State.sideDie (s : State) (d : Doer) (x : Side) (off : Nat) : Nat :=
  let place (va : DWord) : Nat := match s.translate d.core d.asid d.sup (va + d64 off) .read with
    | .ok (t, _) => if t.kind == .peer then 6 else t.die
    | .error _ => d.die
  match x with
  | .far va => place va
  | .near as => if d.lat then place (as.headD 0) else d.die
  | .zeros => d.die

def State.sideRead (s : State) (d : Doer) (x : Side) (off n : Nat) : Eng (List Byte) :=
  match x with
  | .far va => s.engReadLine d (va + d64 off) n
  | .near as => s.nearRead d ((as.headD 0) + d64 off) n
  | .zeros => .ok (leBytes n 0) s
/-- Bytes written at each near address, all or none.
DEDUCED (unsafe): notes/assumptions/33.md. -/
def State.nearWriteAll (s : State) (d : Doer) (off : Nat) (bs : List Byte) : List DWord → Eng Unit
  | [] => .ok () s
  | a :: as => match s.nearWrite d (a + d64 off) bs with
    | .ok _ s => s.nearWriteAll d off bs as
    | r => r
def State.sideWrite (s : State) (d : Doer) (x : Side) (off : Nat) (bs : List Byte) : Eng Unit :=
  match x with
  | .far va => s.engWriteLine d (va + d64 off) bs none
  | .near as => s.nearWriteAll d off bs as
  | .zeros => .ok () s

/-- Units of 64 bytes moved (R295). -/
def State.movedUnits (s : State) (d : Doer) (x y : Side) (off n : Nat) : State :=
  let p1 := s.sideDie d x off
  let p2 := s.sideDie d y off
  s.modCore d.near fun c => c.raise 0x0A p1 p2 n
/-- Bytes [off, off + n) of `total` moved piece by piece, none of which crosses a line but in whole blocks: how many before it
waits or fails, and the cause. -/
def State.moveSides (s : State) (d : Doer) (x y : Side) (total off n : Nat) : Nat → Nat × Option Nat × State
  | 0 => (0, none, s)
  | fuel + 1 =>
    if n == 0 then (0, none, s)
    else
      let k := min (s.chunk d x false off n) (s.chunk d y true off n)
      match s.sideRead d x off k with
      | .wait => (0, none, s)
      | .fail c => (0, some c, s)
      | .ok bs s1 => match s1.sideWrite d y off bs with
        | .wait => (0, none, s)
        | .fail c => (0, some c, s1)
        | .ok _ s2 =>
          let units := (off + k) / 64 - off / 64 + (if off + k == total && total % 64 != 0 then 1 else 0)
          let r := (s2.movedUnits d x y off units).moveSides d x y total (off + k) (n - k) fuel
          (k + r.1, r.2)

/-- The bytes of n that one step moves (R45). -/
def State.grain (s : State) (n : Nat) : Nat := if s.pace.grain == 0 then n else min s.pace.grain n

/-! ## Elements (R227) -/

/-- The count of one element at each destination core. -/
def State.countAll (s : State) (d : Doer) (n : Nat) (a : Attr) : List DWord → Eng Unit
  | [] => .ok () s
  | x :: xs => match s.countIn d x n (some a) with
    | .ok _ s => s.countAll d n a xs
    | .wait => .wait
    | .fail c => .fail c

/-- An element whose bytes have left: counted once they are performed (R55). What stops it, the command and the state. -/
def State.countElement (s : State) (k : Nat) (x : ChanCmd) (g : Geo) (i : Nat) : Option Nat × ChanCmd × State :=
  let d := x.doer k i
  let y := { x with parts := del i x.parts, sent := x.sent.filter (· != i) ++ [i] }
  if s.partOut d then (none, y, s)
  else match s.countAll d g.unit (s.chanCarry k x) x.syncs with
    | .wait => (none, y, s)
    | .fail c => (some c, y, s)
    | .ok _ s => (none, { y with todo := x.todo.filter (· != i), sent := x.sent.filter (· != i) }, s)

/-- The unit of a sparse-pass element written, as many bytes as one step moves, and counted after the last (R45). -/
def State.sparseOut (s : State) (k : Nat) (x : ChanCmd) (g : Geo) (i : Nat) (far : DWord) (near : List DWord) :
    Option Nat × ChanCmd × State :=
  let d := x.doer k i
  let p := get x.parts i 0
  let out := get x.units i []
  let n := s.grain (g.unit - p)
  match s.nearWriteAll d p ((out.drop p).take n) near with
  | .wait => (none, x, s)
  | .fail e => (some e, x, s)
  | .ok _ s1 =>
    if p + n < g.unit then (none, { x with parts := put i (p + n) x.parts }, s1)
    else (s1.movedUnits d (.far far) (.near near) 0 (g.unit / 64)).countElement k { x with units := del i x.units } g i

/-- A sparse-pass element: its 512 bytes read, then written in the sparse form, or dense with ERR (R229, R240).
DEDUCED (unsafe): notes/assumptions/33.md. -/
def State.sparseElement (s : State) (k : Nat) (x : ChanCmd) (c : Copy) (g : Geo) (i : Nat) (far : DWord) :
    Option Nat × ChanCmd × State :=
  let d := x.doer k i
  let got := get x.units i []
  let n := s.grain (g.unit - got.length)
  let near := (castAddrs c.mcast c.near).map (· + d64 (g.nearOff i))
  if got.length < g.unit then match s.engRead d (far + d64 got.length) n (lines n) with
    | .wait => (none, x, s)
    | .fail e => (some e, x, s)
    | .ok bs s1 =>
      let bs := got ++ bs
      if bs.length < g.unit then (none, { x with units := put i bs x.units }, s1)
      else
        let dense := tooDense bs
        let out := if dense then bs else sparseUnit bs s1.stamp
        s1.bump.sparseOut k { x with units := put i out x.units, chores := x.chores ++ if dense then x.syncs.map .err else [] } g i far near
  else s.sparseOut k x g i far near

/-- One element performed and counted, or as far as it goes now (R227, R229): what stops it, the command and the state.
DEDUCED (unsafe): notes/assumptions/33.md. -/
def State.element (s : State) (k : Nat) (x : ChanCmd) (c : Copy) (g : Geo) (i : Nat) : Option Nat × ChanCmd × State :=
  let far := g.far c.start (if c.list.isSome then some x.rows else none) i
  let near (as : List DWord) : Side := .near (as.map (· + d64 (g.nearOff i)))
  if x.sent.contains i || (far.isNone && c.store) then s.countElement k x g i
  else
    let move (a b : Side) : Option Nat × ChanCmd × State :=
      let p := get x.parts i 0
      let n := s.grain (g.unit - p)
      let (m, cause, s) := s.moveSides (x.doer k i) a b g.unit p n (n + 1)
      if p + m == g.unit then s.countElement k x g i
      else (cause, { x with parts := put i (p + m) x.parts }, s)
    match far with
    | none => move .zeros (near (castAddrs c.mcast c.near))
    | some va =>
      if c.store then move (near [c.near]) (.far va)
      else if g.fmt == 8 then s.sparseElement k x c g i va
      else move (.far va) (near (castAddrs c.mcast c.near))

/-- The running copy of a channel, with its geometry. -/
def State.running (s : State) (eng k : Nat) : Option (ChanCmd × Copy × Geo) :=
  match (s.chan eng k).cmds with
  | [] => none
  | x :: _ => match x.op with
    | .copy c => if x.running && s.engineRuns eng then (descGeo c.desc).map fun g => (x, c, g) else none
    | .chain _ => none

/-- A choice of the running copy's elements goes on; with `fails`, only if it cannot, which ends the command with ERR (R60).
After its last element the command leaves. -/
def State.elementStep (s : State) (eng k i : Nat) (fails : Bool) : State :=
  match s.running eng k with
  | none => s
  | some (x, c, g) =>
    if !x.chores.isEmpty then s.runChores eng k 16
    else if s.drainOver eng then s
    else if x.bad.isSome then (if fails then s.errCmd eng k x else s)
    else match x.todo[i % (max 1 x.todo.length)]? with
    | none => s
    | some e =>
      let (cause, x, s') := s.element k x c g e
      if fails then (if cause.isSome then s'.errCmd eng k x else s)
      else if x.todo.isEmpty then s'.closing eng k x (x.chores ++ [.leave])
      else s'.closing eng k x x.chores

/-- The engine and channel of a subject, and which of the choices is meant. -/
def chanOf : Subject → Option (Nat × Nat × Nat)
  | .chan c => some (coreKey c.die c.unit, c.chan, 0)
  | .chanIdx c i => some (coreKey c.die c.unit, c.chan, i)
  | _ => none

/-- The issuing thread's reads before the command are not all performed (R58). -/
def State.readsBefore (s : State) (x : ChanCmd) : Bool := s.reqs.any fun r => r.of x.issuer && r.reads && r.id < x.first
/-- A command after an acquire at a scope: what preceded its issuer's loads before it, and what those read, precedes its reads
(R58). -/
def State.acquired (s : State) (x : ChanCmd) (eng k sc : Nat) : ChanCmd :=
  let now : Option Back := if x.pend then (s.thread? x.issuer).bind (·.back) else none
  let seen : List (Nat × Nat × Nat × Nat) := (now.map Back.seen).getD []
  let loads : List (Nat × Nat × Nat) := x.edges ++ (now.map Back.loads).getD []
  { x with back := x.back.map fun b =>
      { b with floors := loads ++ b.floors }.edge s.past (b.seen ++ seen) sc (chanSlot eng k) }

/-- COPY_COMMAND_START (R227): the next command starts, with the acquire of R58; a malformed descriptor or a gather of
rank 1 ends it with ERR (R224, R228), and the gather's list is read now. The channel takes the command's token (R286). -/
def State.startCmd (s : State) (eng k : Nat) : State :=
  match (s.chan eng k).cmds with
  | [] => s
  | x :: xs =>
    if !s.engineRuns eng then s
    else if !x.chores.isEmpty then s.runChores eng k 16
    else if x.running || s.drainOver eng then s
    else
      let begin (s : State) (x : ChanCmd) : State :=
        s.setChan eng k { s.chan eng k with cmds := { x with running := true } :: xs, token := x.token }
      match x.op with
      | .chain _ => begin s x
      | .copy c =>
        if x.bad.isSome then s.errCmd eng k x
        else if c.acq && s.readsBefore x then s
        else match descGeo c.desc with
          | none => s.errCmd eng k x
          | some g =>
            let x := if c.acq then s.acquired x eng k (bitsOf x.word.toNat 58 56) else x
            let go (rows : List Word) (s : State) : State := begin s { x with todo := List.range g.elems, rows := rows }
            match c.list with
            | none => go [] s
            | some a =>
              if g.rank == 1 then s.errCmd eng k x
              else match s.nearRead (x.doer k 0) a (4 * at5 g.box 1) with
                | .wait => s
                | .fail _ => s.errCmd eng k x
                | .ok bs s => go ((List.range (at5 g.box 1)).map fun j => w32 (field bs (4 * j) 4)) s

/-- COPY_COMMAND_START (R227). -/
def execCopyCommandStart (s : State) : Host.Outcome State Fault Refusal :=
  .next (match chanOf s.subject with
    | some (eng, k, _) => s.startCmd eng k
    | none => s)

/-- SYNC_WORD_ARRIVAL (R218, R227): one element of the running copy is performed and counted, in any order. -/
def execSyncWordArrival (s : State) : Host.Outcome State Fault Refusal :=
  .next (match chanOf s.subject with
    | some (eng, k, i) => s.elementStep eng k i false
    | none => s)

/-- COPY_ERROR (R60, R227): an element that cannot be performed ends its command with ERR. -/
def execCopyError (s : State) : Host.Outcome State Fault Refusal :=
  .next (match chanOf s.subject with
    | some (eng, k, i) => s.elementStep eng k i true
    | none => s)

/-! ## Chains (R230 to R232) -/

/-- A record is malformed (R232); a length of 2²⁸ or more, which is outside R231's range, counts as malformed.
DEDUCED (unsafe): notes/assumptions/81.md. -/
def recordBad (r : List Byte) (lat : Bool) : Bool :=
  let ctl := recCtl r
  let sync := field r 48 8
  field r 56 8 != 0 || bitsOf ctl 31 16 != 0 || bitsOf ctl 11 7 != 0 || 6 ≤ bitsOf ctl 6 4 || field r 12 4 == 0 ||
  2 ^ 28 ≤ field r 12 4 || (bit ctl 1 && (field r 32 8 % 8 != 0 || 2 ^ 48 ≤ field r 32 8)) ||
  (sync != 0 && (sync % 8 != 0 || (if lat then 2 ^ 48 ≤ sync else 2 ^ 24 ≤ sync || 0x300000 ≤ sync % 2 ^ 22)))

/-- The data of the record a chain has come to, then what follows them (R232). -/
def State.recordData (s : State) (eng k : Nat) (x : ChanCmd) : State :=
  let r := x.record
  let p := get x.parts 0 0
  if bit (recCtl r) 2 && p == 0 && s.readsBefore x then s.setHead eng k x
  else match x.bad with
  | some c => s.closing eng k x (x.failing (statOf c) true)
  | none =>
    let x := if bit (recCtl r) 2 && p == 0 then s.acquired x eng k (bitsOf (recCtl r) 6 4) else x
    let n := s.grain (recLen r - p)
    let (m, cause, s) := s.moveSides (x.doer k 0) (.far (d64 (field r 16 8))) (.far (d64 (field r 24 8))) (recLen r) p n (n / 32 + 3)
    let x := { x with parts := put 0 (p + m) x.parts }
    match cause with
    | some c => s.closing eng k x (x.failing (statOf c) true)
    | none =>
      if p + m == recLen r && !s.linesOut (x.doer k 0) then s.closing eng k x [.count, .flag, .done, .tally, .next]
      else s.setHead eng k x

/-- A chain is inside a record. -/
def ChanCmd.inRecord (x : ChanCmd) : Bool := !x.record.isEmpty || !x.chores.isEmpty
/-- One record of the chain a channel runs (R232): what is left to do of it, its data, or first its reading and checks. A next
record that is not 64-aligned, of which R232 says nothing, ends the chain with ERR and no STAT.
DEDUCED (unsafe): notes/assumptions/81.md. -/
def State.walkRecord (s : State) (eng k : Nat) (x : ChanCmd) (rec : DWord) : State :=
  let stop := [Chore.err x.sync, .leave]
  if !x.chores.isEmpty then s.runChores eng k 16
  else if s.drainOver eng then s
  else if !x.record.isEmpty then s.recordData eng k x
  else if rec.toNat % 64 != 0 then s.closing eng k x stop
  else match s.engReadLine { x.doer k 0 with back := none } rec 64 with
    | .wait => s
    | .fail _ => s.closing eng k x stop
    | .ok r s =>
      let x := { x with record := r, parts := [] }
      if !bit (recCtl r) 0 then s.dropCmd eng k
      else if recordBad r (isLatency x.slot) then s.closing eng k x (.stat 5 :: stop)
      else s.recordData eng k x

/-! ## Commands and a peer's loss (R369) -/

/-- An address of a command's far side leads to a lost peer that no mirror serves for. -/
def State.goneAt (s : State) (d : Doer) (p : Nat) (va : DWord) : Bool :=
  match s.translate d.core d.asid d.sup va .read with
  | .ok (t, _) => t.kind == .peer && t.peer == p && s.peerGone t.peer t.mirror
  | .error _ => false
/-- A command still has bytes to move from or to a lost peer. -/
def State.meetsLoss (s : State) (k p : Nat) (x : ChanCmd) : Bool :=
  let d := x.doer k 0
  match x.op with
  | .copy c => match descGeo c.desc with
    | none => false
    | some g => (x.running || c.list.isNone) && (if x.running then x.todo else List.range g.elems).any fun i =>
        (g.far c.start (if c.list.isSome then some x.rows else none) i).any fun va =>
          s.goneAt d p va || s.goneAt d p (va + d64 (g.unit - 1))
  | .chain _ =>
    let r := x.record
    let at_ (o : Nat) : Bool := (List.range (recLen r / 64 + 2)).any fun i =>
      s.goneAt d p (d64 (field r o 8) + d64 (min (64 * i) (recLen r - 1)))
    !r.isEmpty && get x.parts 0 0 < recLen r && (at_ 16 || at_ 24)
/-- Engine commands whose far side is a lost peer meet ERR (R60, R369), whatever becomes of the peer. -/
def State.loseCmds (s : State) (p : Nat) : State :=
  let hit (k : Nat) : ChanCmd → ChanCmd := fun x => if s.meetsLoss k p x then { x with bad := some (x.bad.getD 6) } else x
  { s with cores := s.cores.map fun c => (c.1, { c.2 with chans := c.2.chans.map fun ch =>
      (ch.1, { ch.2 with cmds := ch.2.cmds.map (hit ch.1) }) }) }

/-- CCHN_RECORD (R232): the record a channel's chain has come to is read, checked and performed. -/
def execCchnRecord (s : State) : Host.Outcome State Fault Refusal :=
  .next (match chanOf s.subject with
    | some (eng, k, _) => match (s.chan eng k).cmds with
      | [] => s
      | x :: _ => match x.op with
        | .chain rec => if x.running && s.engineRuns eng then s.walkRecord eng k x rec else s
        | .copy _ => s
    | none => s)

end Sys2Proof.Machine
end

