-- ==== Sys2Proof/Machine/Place.lean ====
section
/-! DEFINITION. Footprints, placement and packing: what fits a core (R27), slots (R279), the admission unit of an S-die
(R12, R30), cohorts in the admission queue (R20 to R22, R403). -/

namespace Sys2Proof.Machine

/-! ## Resources of a core (R27) -/

/-- A(NV): registers allocated for a lane. -/
def mainOf (fp : Word) : Nat := ceilPow2 (max (fpNV fp) 32)
def sharedOf (fp : Word) : Nat := if fpNS fp == 0 then 0 else ceilPow2 (max (fpNS fp) 64)
/-- How many groups of a footprint an empty core holds. -/
def coreCap (fp : Word) : Nat :=
  min 1024 (min (32768 / mainOf fp) (min (if fpNS fp == 0 then 1024 else 65536 / sharedOf fp)
    (min (if fpSpad fp == 0 then 1024 else 48 / fpSpad fp) (if fpAcc fp == 0 then 1024 else 16 / fpAcc fp))))

def State.groupsOn (s : State) (core : Nat) : List (Nat × Group) := s.groups.filter fun g => coreOfSlot g.1 == core
def sumOf {α : Type} (f : α → Nat) (xs : List α) : Nat := xs.foldl (fun n x => n + f x) 0

/-- A 64 KiB unit of the core's scratchpad is free. -/
def unitFree (gs : List (Nat × Group)) (u : Nat) : Bool :=
  gs.all fun g =>
    let b := g.2.spbase.toNat % 2 ^ 22 / 65536
    !(b ≤ u && u < b + fpSpad g.2.footprint)
/-- The lowest base of `n` contiguous free units.
DEDUCED (unsafe): notes/assumptions/25.md. -/
def spadBase (gs : List (Nat × Group)) (n : Nat) : Option Nat :=
  (List.range (49 - n)).find? fun b => (List.range n).all fun i => unitFree gs (b + i)

/-- A group of a footprint fits a core of its die now, whose CEN bit is set (R27, R357). -/
def State.fitsCore (s : State) (core : Nat) (fp : Word) : Bool :=
  let gs := s.groupsOn core
  bit (s.dreg (dieOfCore core) 0x0A8).toNat (unitOf core) && gs.length < 1024 &&
  sumOf (fun g => mainOf g.2.footprint) gs + mainOf fp ≤ 32768 &&
  sumOf (fun g => sharedOf g.2.footprint) gs + sharedOf fp ≤ 65536 &&
  sumOf (fun g => fpAcc g.2.footprint) gs + fpAcc fp ≤ 16 && (spadBase gs (fpSpad fp)).isSome

/-- The free slot whose quadrant holds the fewest groups, the lowest on a tie (R279). -/
def slotFor (gs : List (Nat × Group)) : Option Nat :=
  let used := gs.map fun g => slotOf g.1
  let inQuad (q : Nat) : Nat := (used.filter fun u => u % 4 == q).length
  let cands := (List.range 4).filterMap fun q => ((List.range 256).map fun i => 4 * i + q).find? fun x => !used.contains x
  cands.foldl (fun (b : Option Nat) x => match b with
    | none => some x
    | some y => if inQuad (x % 4) < inQuad (y % 4) || (inQuad (x % 4) == inQuad (y % 4) && x < y) then some x
      else some y) none

/-- A group as it starts (R13, R22). -/
def Group.start (fp : Word) (asid : Nat) (sregs : Map (Val 64)) (members : Map Thread) : Group :=
  { footprint := fp, asid := asid, members := members, sregs := sregs, sLoaded := [], sHeld := [], gcyc := 0, tmr := 0, spbase := 0,
    wake := 0, tiles := [], queue := [], follows := [], preempt := none, active := false, since := 0, issued := [] }

/-- A group placed on a core: slot, scratchpad region filled with zero, held members (R17, R22, R279).
DEDUCED (unsafe): notes/assumptions/25.md. -/
def State.placeGroup (s : State) (core : Nat) (g : Group) : Option (Nat × State) :=
  let gs := s.groupsOn core
  if !s.fitsCore core g.footprint then none
  else match slotFor gs, spadBase gs (fpSpad g.footprint) with
    | some sl, some b =>
      let lo := 65536 * b
      let hi := lo + 65536 * fpSpad g.footprint
      let g := { g with
        spbase := w32 (core % 4 * 2 ^ 22 + lo),
        members := g.members.map fun m => (m.1, m.2.arrive false m.2.pc) }
      let s := s.setSpad core ((s.spadOf core).filter fun c => !(lo ≤ c.1 && c.1 < hi))
      let s := s.modCore core fun c => { c with marks := c.marks.filter fun m => !(lo ≤ m.1 && m.1 < hi) }
      some (slotKey core sl, s.setGroup (slotKey core sl) g)
    | _, _ => none

/-- The core of a die that can hold a footprint with the fewest groups, the lowest on a tie (R12). -/
def State.coreFor (s : State) (die : Nat) (fp : Word) : Option Nat :=
  let cs := ((List.range 32).map fun u => coreKey die u).filter fun c => s.fitsCore c fp
  cs.foldl (fun (b : Option Nat) c => match b with
    | none => some c
    | some x => if (s.groupsOn c).length < (s.groupsOn x).length then some c else some x) none

/-! ## Where a frame goes (R28, R30) -/

def Die.frames (d : Die) : Nat :=
  sumOf (fun k => k.threads.length) d.keys + sumOf (fun f => f.key.threads.length) d.formed
def State.hasRoom (s : State) (d : Nat) : Bool := (s.die d).frames < 4096

/-- The S-dies of target 0, nearest first. -/
def nearest (die : Nat) : List Nat :=
  if die < 4 then [die, die ^^^ 1, die ^^^ 2, die ^^^ 3] else if die == 4 then [0, 1, 2, 3] else [2, 3, 0, 1]

/-- The die that accepts a frame now, none while there is no room. -/
def State.targetDie (s : State) (src target : Nat) : Option Nat :=
  if target == 0 then (nearest src).find? fun d => s.hasRoom d
  else if target ≤ 4 then if s.hasRoom (target - 1) then some (target - 1) else none
  else if target == 8 then
    let a := (s.die 4).readyQ.length
    let b := (s.die 5).readyQ.length
    if a < b then some 4 else if b < a then some 5 else some (if src == 5 then 5 else 4)
  else some (target - 5)

/-! ## Packing (R12) -/

def OpenKey.same (k : OpenKey) (pc : DWord) (fp : Word) (asid prio : Nat) : Bool :=
  k.pc == pc && k.footprint == fp && k.asid == asid && k.prio == prio

/-- An open key forms its group, which begins to wait (R403). -/
def Die.form (d : Die) (k : OpenKey) (order : Nat) : Die :=
  { d with keys := d.keys.filter (fun x => !x.same k.pc k.footprint k.asid k.prio), formed := d.formed ++ [⟨k, order⟩] }

/-- A frame accepted by an admission unit. -/
def State.accept (s : State) (die : Nat) (th : Thread) (fp : Word) (asid : Nat) : State :=
  let d := s.die die
  let order := s.freeNo
  let s := s.bump.bump
  let isIt := fun (k : OpenKey) => k.same th.pc fp asid th.prio
  let joins := fun (f : Formed) => isIt f.key && f.key.threads.length < 32
  if d.formed.any joins then
    let add := fun (f : Formed) => if joins f then { f with key := { f.key with threads := f.key.threads ++ [th] } } else f
    s.setDie die { d with formed := d.formed.map add }
  else match d.keys.find? isIt with
    | some k =>
      let k' := { k with threads := k.threads ++ [th] }
      if k'.threads.length == 32 then s.setDie die (d.form k' order)
      else
        let swap := fun (x : OpenKey) => if isIt x then k' else x
        s.setDie die { d with keys := d.keys.map swap }
    | none =>
      let k : OpenKey := ⟨th.pc, fp, asid, th.prio, [th], 0⟩
      let d := if 256 ≤ d.keys.length then match d.keys with
          | o :: _ => d.form o order
          | [] => d
        else d
      let d := { d with keys := d.keys ++ [k] }
      s.setDie die (if d.packwin == 0 then d.form k (order + 1) else d)

/-! ## Launch headers (R20, R21) -/

def hdrClv (h : List Byte) : Nat := bitsOf (hdrFlags h) 7 2
def hdrDlv (h : List Byte) : Nat := bitsOf (hdrFlags h) 13 8
/-- The S-dies SDMASK allows. -/
def hdrDies (h : List Byte) : List Nat :=
  let m := bitsOf (hdrFlags h) 17 14
  (List.range 4).filter fun d => m == 0 || bit m d

/-- The greatest unit that a tag mask places whole, in threads; 0 for none. -/
def tagUnit (h : List Byte) (mask : Nat) : Nat :=
  (List.range 6).foldl (fun n k => if bit mask k then max n (hdrUnit h k) else n) 0
/-- Groups never cross the boundaries of the smallest tagged unit. -/
def packUnit (h : List Byte) : Nat :=
  (List.range 6).foldl (fun n k => if bit (hdrClv h ||| hdrDlv h) k then min n (hdrUnit h k) else n) (hdrCount h)
/-- Groups that hold `n` threads, a multiple of the smallest unit. -/
def groupsIn (h : List Byte) (n : Nat) : Nat := n / packUnit h * ((packUnit h + 31) / 32)

/-- Groups placed together on one core, and on one die. -/
def coreGroups (h : List Byte) : Nat := max 1 (groupsIn h (tagUnit h (hdrClv h)))
def dieGroups (h : List Byte) : Nat := max (coreGroups h) (groupsIn h (tagUnit h (hdrDlv h)))

/-- The first failing check of R20, in its order. -/
def hdrError (h : List Byte) : Option Nat :=
  let cap := coreCap (hdrFootprint h)
  let perCore := cap / coreGroups h
  let perDie := 32 * perCore / (dieGroups h / coreGroups h)
  let widths := (List.range 6).foldl (fun n k => n + hdrWidth h k) 0
  if (List.range 6).any (fun k => hdrExtent h k == 0 || 2 ^ hdrWidth h k < hdrExtent h k) || 64 < widths ||
      bitsOf (field h 16 8) 63 36 != 0 then some 1
  else if !fpValid (hdrFootprint h) then some 2
  else if bitsOf (hdrFlags h) 31 18 != 0 || field h 56 8 != 0 || hdrClv h &&& hdrDlv h != 0 then some 3
  else if (hdrEntry h).toNat % 8 != 0 || (hdrCompletion h).toNat % 8 != 0 then some 4
  else if perCore == 0 || perDie == 0 then some 6
  else if perDie * (hdrDies h).length * dieGroups h < groupsIn h (hdrCount h) then some 5
  else none

/-! ## Cohorts -/

/-- A cohort id is free: no live cohort has it, nor one with its table entry (R353). -/
def State.idFree (s : State) (c : Nat) : Bool :=
  c != 0 && !s.cohorts.any (fun x => x.1 == c) && !s.cohorts.any fun x => x.1 % 65536 == c % 65536
/-- A new cohort id: any that is free, as the hardware chooses (R20; notes/assumptions/3.md); where every table entry is
taken, one whose entry is waited for (R353). -/
def State.newId (s : State) : Nat :=
  let f := (Config.freeWord s.freeNo 0).toNat
  if s.idFree f then f else ((List.range 65536).find? fun c => s.idFree c).getD
    (((List.range (s.cohorts.length + 2)).find? fun c => c != 0 && !s.cohorts.any fun x => x.1 == c).getD 1)
/-- A placed cohort holds the table entry of an id (R353). -/
def State.entryTaken (s : State) (c : Nat) : Bool :=
  s.cohorts.any fun x => x.1 != c && x.1 % 65536 == c % 65536 && x.2.waiting.isNone

/-- The threads of group `i` of a cohort: flattened indices (R21). -/
def groupThreads (h : List Byte) (i : Nat) : List Nat :=
  let u := packUnit h
  let per := (u + 31) / 32
  let lo := i / per * u + 32 * (i % per)
  (List.range (min 32 (u - 32 * (i % per)))).map fun j => lo + j

/-- A thread as FANOUT creates it (R8). -/
def newThread (h : List Byte) (c : Word) (tok : DWord) (st fi : Nat) : Thread :=
  let seed := w32 ((fi + 1) * 0x9E3779B9)
  ({ Thread.fresh with
      pc := hdrEntry h, srseed := if seed == 0 then 1 else seed, pathtok := tok, cohort := c,
      wid := d64 (widOfFlat h fi), prio := hdrPrio h }).dropQ st

/-- Group `i` of a cohort as it starts (R22). -/
def newGroup (h : List Byte) (co : Cohort) (c : Word) (st i : Nat) : Group :=
  let sregs := (List.range 8).filterMap fun j =>
    let v := field h (64 + 8 * j) 8
    if v == 0 || fpNS (hdrFootprint h) < j + 1 then none else some (j + 1, Val.known (d64 v))
  Group.start (hdrFootprint h) co.asid sregs
    ((groupThreads h i).zipIdx.map fun x => (x.2, newThread h c co.pathtok st x.1))

/-- A placement plan is one core for each group: allowed dies, core-level and die-level units whole (R21, R22). -/
def planOk (h : List Byte) (cores : List Nat) : Bool :=
  let n := groupsIn h (hdrCount h)
  let cg := coreGroups h
  let dg := dieGroups h
  cores.length == n && cores.all (fun c => (hdrDies h).contains (dieOfCore c)) &&
  cores.zipIdx.all fun x =>
    cores[x.2 / cg * cg]? == some x.1 && (cores[x.2 / dg * dg]?).map dieOfCore == some (dieOfCore x.1)

/-- Every group placed where the plan says, or none where one does not fit. -/
def placeAll (co : Cohort) (c : Word) : List Nat → Nat → State → Option State
  | [], _, s => some s
  | core :: cs, i, s => match s.placeGroup core (newGroup co.header co c s.freeNo i) with
    | none => none
    | some (_, s') => placeAll co c cs (i + 1) s'.bump

/-- The order of R403: priority class, highest first, then the moment of waiting. -/
def earlier (p1 o1 p2 o2 : Nat) : Bool := p2 < p1 || (p1 == p2 && o1 < o2)

/-- A candidate earlier than (prio, order) waits for a die. -/
def State.heldBack (s : State) (die prio order : Nat) : Bool :=
  (s.cohorts.any fun x => match x.2.waiting with
    | some o => (hdrDies x.2.header).contains die && earlier (hdrPrio x.2.header) o prio order
    | none => false) ||
  (s.die die).formed.any fun f => earlier f.key.prio f.order prio order
/-- A cohort earlier than (prio, order) waits (R22). -/
def State.cohortAhead (s : State) (prio order : Nat) : Bool :=
  s.cohorts.any fun x => match x.2.waiting with
    | some o => earlier (hdrPrio x.2.header) o prio order
    | none => false

/-- The cohort table's entry is free, or there is no table (R353). -/
def State.entryPa (s : State) (c : Nat) : Option Nat :=
  let b := s.dreg 0 0x008
  if b == 0 then none else some (b.toNat + 16 * (c % 65536))

/-- A waiting cohort placed by a plan, if it may be (R22, R403); its table entry becomes live with CFB 0 (R353). -/
def State.placeCohort (s : State) (cores : List Nat) (c : Nat) (co : Cohort) (order : Nat) : Option State :=
  let h := co.header
  if !planOk h cores || s.entryTaken c || s.cohortAhead (hdrPrio h) order ||
      cores.any (fun x => s.heldBack (dieOfCore x) (hdrPrio h) order) then none
  else match placeAll co (w32 c) cores 0 s with
    | none => none
    | some s =>
      let s := { s with cohorts := put c { co with waiting := none } s.cohorts }
      match s.entryPa c with
      | none => some s
      | some pa => match s.writePhys pa (leBytes 8 0 ++ leBytes 4 (co.asid + 65536) ++ leBytes 4 0) with
        | .ok s => some s
        | .error _ => some s

/-- The packed group that is first among those waiting on a die, placed if it may be (R12, R403). -/
def State.placeFormed (s : State) (die : Nat) : Option State :=
  let best := (s.die die).formed.foldl (fun (b : Option Formed) f => match b with
    | none => some f
    | some x => if earlier f.key.prio f.order x.key.prio x.order then some f else some x) none
  match best with
  | none => none
  | some f =>
    if s.heldBack die f.key.prio f.order then none
    else match s.coreFor die f.key.footprint with
      | none => none
      | some core =>
        let g := Group.start f.key.footprint f.key.asid [] (f.key.threads.zipIdx.map fun x => (x.2, x.1))
        (s.placeGroup core g).map fun x =>
          (x.2.modDie die fun d => { d with formed := d.formed.filter fun y => y.order != f.order }).modCore core
            fun c => { c with icache := [] }

end Sys2Proof.Machine
end

