-- ==== Sys2Proof/Machine/Sched.lean ====
section
/-! DEFINITION. What surrounds an instruction in a step: whether a group may issue (R33), fetching its word (R75,
R272), which subsets wait for a register (R34), the placement of a program for `State.withFetchWord`. -/

namespace Sys2Proof.Machine

/-- The group of a slot can issue now: the package runs and is not halting (R332, R383), the group is not being pre-empted,
and is active (R33), or in the mode its hardware thread is in. -/
def State.mayIssue (s : State) (slot : Nat) (g : Group) : Bool :=
  s.ctrl.pkstate == 3 && s.ctrl.halting.isNone && !(g.preempt.any (·.taken)) &&
  if isLatency slot then (s.hwThread slot).released && (s.hwThread slot).sup == isSup slot else g.active

/-- The PA of an instruction word, or the cause its fetch takes (R272): cause 5 where the page is a device or a scratchpad
window. A peer's page is read at the peer that serves it; while none is up the fetch waits (cause 0, R362), and where the peer is
lost it takes cause 6.
DESIGN CHOICE (unsafe): notes/assumptions/45.md.
DEDUCED (unsafe): notes/assumptions/50.md. -/
def State.fetchPa (s : State) (slot asid : Nat) (sup : Bool) (pc : DWord) : Except Nat (Target × State) :=
  match s.translate (coreOfSlot slot) asid sup pc .fetch with
  | .error c => .error c
  | .ok (t, s) =>
    let t := (s.redirect t).1
    match t.kind with
    | .local_ => match s.memFault t 8 true with
      | some c => .error c
      | none => .ok (t, s)
    | .peer => match s.servingPeer t.peer t.mirror with
      | some q => .ok ({ t with peer := q }, s)
      | none => .error (if s.peerState t.peer == 2 then 6 else 0)
    | _ => .error 5

/-- The datum of a failed fetch (R152): the PC, or the number of the peer of cause 6. -/
def State.fetchDatum (s : State) (slot asid : Nat) (sup : Bool) (pc : DWord) (cause : Nat) : DWord :=
  match cause, s.translate (coreOfSlot slot) asid sup pc .fetch with
  | 6, .ok (t, _) => d64 t.peer
  | _, _ => pc

/-- The word at the PC: from the core's instruction cache where it holds the line, else from memory (R75, R97). -/
def State.fetch (s : State) (slot asid : Nat) (sup : Bool) (pc : DWord) : Except Nat (DWord × State) :=
  match s.fetchPa slot asid sup pc with
  | .error c => .error c
  | .ok (t, s) =>
    if t.kind == .peer then .ok (d64 (leVal (memRead (s.peerMem t.peer) t.pa 8)), s)
    else match lookup t.pa (s.core (coreOfSlot slot)).icache with
      | some w => .ok (w, s)
      | none => .ok (d64 (leVal (memRead s.mem t.pa 8)), s)

/-- The subset of a lane reads or writes a register whose producer is outstanding (R34). -/
def State.stalled (s : State) (slot : Nat) (g : Group) (lane : Nat) (t : Thread) : Bool :=
  s.reqs.any (fun r => r.who.slot == slot && !r.writes.isEmpty && (r.who.lane == lane || r.writes.any (512 ≤ ·))) &&
  match s.fetch slot g.asid false t.pc with
  | .error _ => false
  | .ok (w, _) => match decode w with
    | .error _ => false
    | .ok d => s.outstanding slot (g.activeAt t.pc) (formOf d)

/-- A group has a subset that can issue. -/
def State.groupReady (s : State) (slot : Nat) (g : Group) : Bool :=
  !(g.preempt.any fun p => p.taken) && g.members.any fun m => m.2.canIssue && !s.stalled slot g m.1 m.2

/-- The context of a supervisor hardware thread: every register of R84 is its own (R350; notes/assumptions/2.md).
DESIGN CHOICE (unsafe): notes/assumptions/2.md. -/
def Group.supervisor (pc : DWord) : Group :=
  { footprint := w32 (479 + 511 * 512), asid := 0, members := [(0, { Thread.fresh with pc := pc })], sregs := [],
    sLoaded := [], sHeld := [], gcyc := 0, tmr := 0, spbase := 0, wake := 0, tiles := [], queue := [],
    follows := [], preempt := none, active := true, since := 0, issued := [] }

/-- A latency hardware thread released in supervisor mode at an entry PA (R332, R357).
DESIGN CHOICE (safe): notes/assumptions/6.md. -/
def State.releaseHw (s : State) (slot : Nat) (entry : DWord) : State :=
  (s.modHw slot fun _ => { released := true, sup := true, masked := true, loaded := false }).setGroup (supSlot slot)
    (.supervisor entry)

/-- A boot of a program placed from outside (R331, R332): PKSTATE RUNNING, latency core 0 of die 4 released at the
placed word.
DESIGN CHOICE (safe): notes/assumptions/6.md. -/
def State.place (s : State) (bytes : List Byte) : State :=
  let s := { s with mem := memWrite s.mem Config.placedPc bytes, agenda := [] }
  (s.modCtrl fun c => { c with pkstate := 3 }).releaseHw (slotKey (coreKey 4 0) 0) (d64 Config.placedPc)

end Sys2Proof.Machine
end

