-- ==== Sys2Proof/Machine/Threads.lean ====
section
/-! DEFINITION. Thread instructions, major 0x13 (R132 to R137) but SLEEP and WAKE. -/

namespace Sys2Proof.Machine

/-- MIGRATE (R28, R133): the target check, then the drains and reads, then the frame with the next PC. -/
def execMigrate (f : FmtA) (s : State) : Host.Outcome State Fault Refusal :=
  memInstr (.migrate f) s fun c l t s =>
    let target := (src32 c.g t f.sA f.a).toNat
    if !targetOk target then .fault 0x101 c.u.word s
    else
      let (t1, pc) := t.loopNext
      s.departReady (c.who l) t target { t1 with pc := pc }

/-- The header of a FANOUT read, or how its trip ends. -/
def State.fanoutHeader (s : State) (c : Ctx) (va : DWord) (next : List Byte → State → Trip) : Trip :=
  match s.readVa c.core c.asid c.u.sup va 128 (lines 128) with
  | .error 0 => .stay s
  | .error x => .fault x (s.badDatum c.core c.asid x c.u.sup .read va 128) s
  | .ok (h, s) => next h s

/-- One lane's FANOUT (R18, R20, R134): the release, the header read with acquire at package scope, its checks, then the cohort
in the queue; a cause of the header's translation comes before a cause owed (R153). -/
def State.fanout (s : State) (c : Ctx) (l : Nat) (t : Thread) (d : Nat) (va : DWord) : Trip :=
  if va.toNat % 128 != 0 then .fault 3 va s
  else match s.fanoutHeader c va fun _ s => .go s with
  | .fault x a s' => if x ≤ 5 then .fault x a s' else s.release (c.who l) t fun s => s.fanoutHeader c va fun _ s => .stay s
  | _ => s.release (c.who l) t fun s => s.fanoutHeader c va fun h s =>
      let s := s.orderedNow (c.who l) 4
      match hdrError h with
      | some code => s.goOn (c.who l) fun t => t.write (pairOut d (d64 (0xFFFFFFFF * 2 ^ 32 + code)))
      | none =>
        let id := s.newId
        let co : Cohort := { header := h, asid := c.asid, pathtok := t.pathtok, waiting := some s.freeNo, ended := [] }
        ({ s.freshLives id with cohorts := put id co s.cohorts }).bump.goOn (c.who l) fun t => t.write (pairOut d (d64 id))

/-- FANOUT (R134): one cohort for each lane, in increasing lane order. -/
def execFanout (f : FmtA) (s : State) : Host.Outcome State Fault Refusal :=
  memInstr (.fanout f) s fun c l t s => s.fanout c l t f.d.toNat (src64 c.g t f.sA f.a)

/-- EXIT (R135).
DESIGN CHOICE (unsafe): notes/assumptions/24.md. -/
def execExit (s : State) : Host.Outcome State Fault Refusal :=
  memInstr .exit s fun c l t s =>
    s.release (c.who l) t fun s =>
      if s.completeWaits (c.who l) t c.asid then .stay s
      else .go (s.endThread (c.who l) t c.asid (some (s.carry (c.who l) t)))

/-- Another ready group is pending in the quadrant of a slot (R33, R136). -/
def State.otherPending (s : State) (slot : Nat) : Bool :=
  s.groups.any fun g => g.1 != slot && coreOfSlot g.1 == coreOfSlot slot && slotOf g.1 % 4 == slotOf slot % 4 &&
    !g.2.active && s.groupReady g.1 g.2

/-- YIELD (R136): on a SIMT core the group goes to the pending set if another is ready there. -/
def execYield (s : State) : Host.Outcome State Fault Refusal :=
  issue .yield s fun c s =>
    let s := eachLane (fun c l t s => s.setThread (c.who l) (t.advance c.lat)) c s
    if c.lat || c.pLanes.isEmpty || !s.otherPending c.u.slot then s
    else (s.modGroup c.u.slot fun g => { g with active := false, since := 0, issued := [] }).raise c.core 0x04 7 7 1

end Sys2Proof.Machine
end

