-- ==== Sys2Proof/Machine/Save.lean ====
section
/-! DEFINITION. Pre-emption: the group save frame written and reloaded (R40 to R42, R106, R107, R213, R258, R306, R354,
R355). -/

namespace Sys2Proof.Machine

/-! ## What a save takes (R40, R107) -/

/-- What a save names: main registers of the lanes at the LIVE, shared registers, scratchpad ranges, tiles. -/
structure Saved where
  lanes  : List Nat
  main   : Nat
  shared : Nat
  ranges : List (Nat × Nat)
  tiles  : Nat
  atLive : Bool
  whole  : Bool
deriving DecidableEq, Repr

/-- Everything of a group. -/
def Saved.all (fp : Word) (atLive whole : Bool) : Saved :=
  { lanes := [], main := 0, shared := 2 ^ 512 - 1,
    ranges := if fpSpad fp == 0 then [] else [(0, 65536 * fpSpad fp)], tiles := 65535, atLive := atLive, whole := whole }

/-- A range of a record cut to the region. -/
def clipRange (size : Nat) (r : Nat × Nat) : Option (Nat × Nat) :=
  if size ≤ r.1 || r.2 == 0 then none else some (r.1, min r.2 (size - r.1))

/-- The liveness record at a VA (R106): none where it cannot be read or is malformed. -/
def State.liveRecord (s : State) (slot : Nat) (g : Group) (p : Preempt) (va : DWord) : Option Saved :=
  match s.readVa (coreOfSlot slot) g.asid false va 136 (lines 136) with
  | .error _ => none
  | .ok (h, s) =>
    let n := field h 2 1
    match s.readVa (coreOfSlot slot) g.asid false va (136 + 8 * n) (lines (136 + 8 * n)) with
    | .error _ => none
    | .ok (r, _) =>
      let rs := (List.range n).map fun k => (field r (136 + 8 * k) 4, field r (140 + 8 * k) 4)
      let main := field r 8 64
      let shared := field r 72 64
      if va.toNat % 8 != 0 || field r 0 2 != 136 + 8 * n || field r 3 1 != 1 || field r 6 2 != 0 ||
          bit main 0 || main / 2 ^ 480 != 0 || bit shared 0 || rs.any fun x => x.1 % 64 != 0 || x.2 % 64 != 0 then none
      else some
        { lanes := p.lanes, main := main, shared := shared,
          ranges := rs.filterMap (clipRange (65536 * fpSpad g.footprint)), tiles := field r 4 2, atLive := true,
          whole := false }

def State.savedOf (s : State) (slot : Nat) (g : Group) (p : Preempt) : Saved :=
  match p.record with
  | none => .all g.footprint false false
  | some va => (s.liveRecord slot g p va).getD (.all g.footprint true true)

/-! ## Bytes of the frame (R354) -/

def pad64 (bs : List Byte) : List Byte := bs ++ leBytes (roundUp bs.length 64 - bs.length) 0

/-- The state bits of a thread section: 0 issuing, 1 waiting, 2 held, 3 parked. -/
def Run.saveCode : Run → Nat
  | .waiting _ _ _ => 1
  | .held _ => 2
  | .parked _ _ _ => 3
  | _ => 0

/-- A main register of a lane is saved. -/
def Saved.keeps (v : Saved) (lane i : Nat) : Bool := !v.lanes.contains lane || bit v.main i

/-- One lane's section.
PRESUMED (unsafe): notes/assumptions/36.md. -/
def threadSection (g : Group) (v : Saved) (lane : Nat) : List Byte :=
  match lookup lane g.members with
  | none => leBytes (roundUp (frameSize g.footprint) 64) 0
  | some t =>
    let t' := { t with regs := t.regs.filter fun r => 0x1E0 ≤ r.1 || v.keeps lane r.1 }
    let r : EntryRec := match t.run with
      | .parked c d _ => ⟨c.toNat, 0, d, 0, 0⟩
      | _ => .none
    pad64 (frameBytes t' g.footprint g.asid t.pc t.run.saveCode r)

/-- An element as it is spilled (R258): RNE to 24 significant bits, the exponent range kept; one that would round past the
largest finite value takes the largest of 24 bits, within the bound of R41.
DEDUCED (unsafe): notes/assumptions/36.md. -/
def spillElem (x : BitVec 42) : Nat :=
  match fAcc.decode x.toNat with
  | .fin n m e =>
    if m == 0 then x.toNat
    else
      let q := max (topOf m e - 23) fAcc.emin
      let r := (fAcc.round .rne false n (roundMag .rne n m e false q).1 q false).1
      match fAcc.decode r with
      | .inf _ => (fAcc.round .rtz false n (roundMag .rtz n m e false q).1 q false).1
      | _ => r
  | _ => x.toNat

def tileSection (g : Group) (k : Nat) : List Byte :=
  let t := g.tile k
  leBytes 8 (k + (if t.err || t.ecc then 256 else 0)) ++ (List.range 16384).flatMap fun i => leBytes 8 (spillElem (get t.elems i 0))

/-- 4,096 bytes of scale halfwords. -/
def scaleBytes (m : Map (BitVec 16)) : List Byte := (List.range 2048).flatMap fun i => leBytes 2 (get m i 0).toNat

def matEntry (c : MatCmd) : List Byte :=
  let scales := if c.scaleB.isEmpty then [] else scaleBytes c.scaleA ++ c.scaleB.flatMap scaleBytes
  leBytes 8 c.word.toNat ++ leBytes 8 c.a.toNat ++ leBytes 8 c.b.toNat ++ leBytes 8 c.c.toNat ++ leBytes 8 c.next ++
  leBytes 4 (640 + scales.length) ++ leBytes 4 c.scaleB.length ++ leBytes 16 0 ++
  (c.table ++ leBytes (576 - c.table.length) 0) ++ scales

/-- Bytes of an s-register section. -/
def sharedSection (g : Group) (v : Saved) : List Byte :=
  (List.range (fpNS g.footprint)).flatMap fun j => leBytes 8 (if bit v.shared (j + 1) then (g.sreg (j + 1)).toNat else 0)

/-- The chains of a slot, with their channel numbers. -/
def State.chainsOf (s : State) (slot : Nat) : List (Nat × ChanCmd) :=
  (List.range 4).flatMap fun k => ((s.chan (engineOf slot) k).cmds.filter fun x => x.slot == slot).map fun x => (k, x)

def chainEntry (base : Nat) (x : Nat × ChanCmd) : List Byte :=
  let rec_ := match x.2.op with
    | .chain r => r.toNat
    | .copy _ => 0
  leBytes 8 x.1 ++ leBytes 8 rec_ ++
  leBytes 8 (if x.2.sync == 0 then 2 ^ 64 - 1 else x.2.sync.toNat + 2 ^ 64 - base) ++ leBytes 8 0

/-- The subscriptions whose slots lie in the group's region, with the core that holds them. -/
def State.subsOf (s : State) (slot : Nat) : List (Nat × Sub) :=
  (List.range 4).flatMap fun i =>
    let c := 4 * clusterOf (coreOfSlot slot) + i
    ((s.core c).subs.filter fun u => u.owner == slot).map fun u => (c, u)

/-- The home of a subscription: its die, or a peer's. -/
def Sub.homeDie (u : Sub) : Nat :=
  match u.dest with
  | .unit k => unitDie k
  | .spad c => dieOfCore c
  | .peer p _ => peerHome p

/-- A subscriber entry of a home changed. -/
def State.modSubscriber (s : State) (home pa : Nat) (is : Subscriber → Bool) (f : Subscriber → Subscriber) : State :=
  let change := fun (u : Subscriber) => if is u then f u else u
  let loc := fun (l : HomeLoc) => if l.pa == pa then { l with subs := l.subs.map change } else l
  s.modDie home fun d => { d with home := d.home.map loc }

/-- The entry of a subscription at its home. -/
def State.subscriber (s : State) (core : Nat) (u : Sub) : Option Subscriber :=
  ((s.die u.homeDie).home.find? fun l => l.pa == u.pa).bind fun l =>
    l.subs.find? fun x => x.core == core && x.slot == u.slot && x.owner == u.owner && x.no == u.no

def State.subEntry (s : State) (base : Nat) (x : Nat × Sub) : List Byte :=
  let owed := ((s.subscriber x.1 x.2).map fun u => u.owed).getD false
  leBytes 8 x.2.va.toNat ++ leBytes 4 ((x.2.slot.toNat + 2 ^ 32 - base) % 2 ^ 32) ++ leBytes 4 (b2n owed 1)

/-- Some bytes that a save takes of the scratchpad or of a tile are uncorrectable. -/
def State.saveBad (s : State) (slot : Nat) (g : Group) (v : Saved) : Bool :=
  v.ranges.any (fun r => s.spadBad (coreOfSlot slot) (g.spbase.toNat % 2 ^ 22 + r.1) r.2) ||
  ((List.range (fpAcc g.footprint)).filter (bit v.tiles)).any fun k => (g.tile k).ecc

/-- The whole frame: header and sections; where the scratchpad or a tile cannot be read, with the error bit.
DEDUCED (safe): notes/assumptions/31.md.
PRESUMED (unsafe): notes/assumptions/36.md. -/
def State.saveFrame (s : State) (slot : Nat) (g : Group) (v : Saved) : List Byte :=
  let base := g.spbase.toNat
  let off := base % 2 ^ 22
  let sp := s.spadOf (coreOfSlot slot)
  let threads := (List.range 32).flatMap (threadSection g v)
  let shared := pad64 (sharedSection g v)
  let spad := pad64 (v.ranges.flatMap fun r => leBytes 4 r.1 ++ leBytes 4 r.2 ++ memRead sp (off + r.1) r.2)
  let tiles := ((List.range (fpAcc g.footprint)).filter (bit v.tiles)).flatMap (tileSection g)
  let queue := g.queue ++ g.follows.map fun x => x.cmd
  let mats := pad64 (queue.flatMap matEntry)
  let subs := s.subsOf slot
  let chains := s.chainsOf slot
  let sub := pad64 (subs.flatMap (s.subEntry base))
  let chain := pad64 (chains.flatMap (chainEntry base))
  let o1 := 512
  let o2 := o1 + threads.length
  let o3 := o2 + shared.length
  let o4 := o3 + spad.length
  let o5 := o4 + (pad64 tiles).length
  let o6 := o5 + mats.length
  let o7 := o6 + sub.length
  let mask (f : Thread → Bool) : Nat := (laneMask ((g.members.filter fun m => f m.2).map fun m => m.1)).toNat
  leBytes 4 0x47564153 ++ leBytes 4 1 ++ leBytes 4 g.footprint.toNat ++ leBytes 4 g.asid ++
  leBytes 4 (mask fun _ => true) ++ leBytes 4 (mask fun t => t.run.isParked) ++
  leBytes 4 (b2n v.atLive 1 + b2n v.whole 2 + 4 + b2n (s.saveBad slot g v) 8) ++ leBytes 4 g.wake.toNat ++ leBytes 8 base ++
  leBytes 8 g.gcyc.toNat ++ leBytes 8 g.tmr.toNat ++ leBytes 8 (o7 + chain.length) ++
  [o1, o2, o3, o4, o5, o6, o7].flatMap (leBytes 8) ++
  [queue.length, subs.length, chains.length, v.ranges.length].flatMap (leBytes 4) ++ leBytes 376 0 ++
  threads ++ shared ++ spad ++ pad64 tiles ++ mats ++ sub ++ chain

/-- The mark by which a home knows a suspended subscriber: the save area (R213). -/
def savedOwner (area : Nat) : Nat := 2 ^ 40 + area

/-- The registers a save did not name.
DESIGN CHOICE (safe): notes/assumptions/37.md. -/
def unsavedOf (g : Group) (v : Saved) : List (Nat × Nat) :=
  (v.lanes.filter fun l => (lookup l g.members).isSome).flatMap (fun l =>
    ((List.range (fpNV g.footprint)).filter fun i => !bit v.main (i + 1)).map fun i => (l, i + 1)) ++
  ((List.range (fpNS g.footprint)).filter fun j => !bit v.shared (j + 1)).map fun j => (32, j + 1)

/-- The die's asynchronous command is done (R338, R347).
DEDUCED (unsafe): notes/assumptions/41.md. -/
def State.commandDone (s : State) (die : Nat) : State := s.modDie die fun d => { d with pend := d.pend ||| 4 }

/-- A matrix entry with what it reads at the save, if it has not started (R306). -/
def State.captured (s : State) (slot : Nat) (g : Group) (c : MatCmd) : MatCmd :=
  match c.instr with
  | some (i, f) => if c.table.isEmpty && c.scaleB.isEmpty then (s.capture slot g c i f).getD c else c
  | none => c
/-- What the frame does not hold. -/
def State.asideOf (s : State) (slot : Nat) (g : Group) : Aside :=
  let kept (f : Option (DWord × Nat)) (c : MatCmd) : Kept := ⟨c.issuer.lane, c.attr, c.cycles, c.poison, f, c.counted⟩
  { mats := g.queue.map (kept none) ++ g.follows.map fun x => kept (some (x.sync, x.gen)) x.cmd,
    chains := (s.chainsOf slot).map fun x => ⟨x.2.issuer.lane, some x.2.attr, x.2.cycles, false, none, []⟩,
    sLoaded := g.sLoaded, sHeld := each (fun (r : Nat × Val 64) (h : List DWord) => heldWith g.sregs r.1 h) g.sregs g.sHeld }

/-- The group leaves its slot for its save area: the command on its array has stopped (R244), the cycles of waits and holds
cut short count (R290), what no frame holds is kept, and a numeric trap still pending goes to the host (R264). Where memory
refuses the frame nothing changes, and the save waits.
PRESUMED (unsafe): notes/assumptions/36.md.
DEDUCED (unsafe): notes/assumptions/38.md. -/
def State.saveGroup (s : State) (slot : Nat) (g : Group) (p : Preempt) : State :=
  let die := dieOfSlot slot
  let cut (t : Thread) : Thread := { t with pathtok := (t.abandon false).pathtok }
  let g := { g with queue := g.queue.map (s.captured slot g), follows := g.follows.map fun x => { x with cmd := s.captured slot g x.cmd },
                    members := g.members.map fun m => (m.1, cut m.2) }
  let v := s.savedOf slot g p
  match s.writePhys p.area (s.saveFrame slot g v) with
  | .error _ => s
  | .ok s =>
  let s := { s with asides := put p.area (s.asideOf slot g) s.asides }
  let s := each (fun x s => s.modSubscriber x.2.homeDie x.2.pa
    (fun u => u.core == x.1 && u.slot == x.2.slot && u.owner == slot && u.no == x.2.no)
    (fun u => { u with susp := true, owner := savedOwner p.area })) (s.subsOf slot) s
  let s := each (fun x s => s.modCore x.1 fun c =>
    { c with subs := c.subs.filter (fun u => u.owner != slot), pushq := c.pushq.filter fun q => q.owner != slot })
    (s.subsOf slot) s
  let s := each (fun k s =>
    let ch := s.chan (engineOf slot) k
    s.setChan (engineOf slot) k { ch with cmds := ch.cmds.filter fun x => x.slot != slot }) (List.range 4) s
  let s := each (fun m s => s.dropTraps ⟨slot, m.1⟩ m.2) g.members s
  let s := each (fun m s => s.keepLife g.asid m.2) g.members s
  ({ s with groups := del slot s.groups, unsaved := put p.area (unsavedOf g v) s.unsaved }).commandDone die

/-- Pending deferred faults of a group are taken first: its threads are saved as parked (R401). -/
def State.takeDeferred (s : State) (w : Who) : State :=
  match s.thread? w with
  | none => s
  | some t => match t.deferred with
    | none => s
    | some d => (s.setThread w { t with deferred := none }).takeFault w (w32 d.cause) d.datum d.pc true

/-- PREEMPT_COMPLETE (R41, R244, R347): the members' entries drain, their accesses and the group's copies complete, its
chains come to a record boundary and the command on its array to a block boundary, then the
frame is written and the group has left its slot. -/
def execPreemptComplete (s : State) : Host.Outcome State Fault Refusal :=
  .next (match s.subject with
    | .slot x =>
      let slot := slotIdKey x
      match s.group? slot with
      | none => s
      | some g => match g.preempt with
        | none => s
        | some p =>
          let core := coreOfSlot slot
          if !p.taken then s
          else if (s.core core).wc.any (fun e => e.owner.slot == slot) then s.drainIf core fun e => e.owner.slot == slot
          else if s.reqs.any (fun r => r.who.slot == slot) || g.queue.any (·.poison) ||
              (s.chainsOf slot).any (fun c => !c.2.op.isChain || c.2.inRecord) then s
          else
            let s := s.matStop slot
            let s := each (fun l s => s.takeDeferred ⟨slot, l⟩) g.lanes s
            s.saveGroup slot ((s.group? slot).getD g) p
    | _ => s)

/-! ## Restoring (R355, R42, R306) -/

/-- A saved scratchpad address moved with its region (R306). -/
def movedAddr (old new size a : Nat) : Nat := if old ≤ a && a < old + size then a - old + new else a

/-- The table of an MMAG with its B addresses moved. -/
def movedTable (old new size : Nat) (tab : List Byte) : List Byte :=
  if tab.isEmpty then []
  else
    let n := min (field tab 0 4) 32
    tab.take 8 ++ (List.range n).flatMap (fun g =>
      leBytes 4 (movedAddr old new size (field tab (8 + 16 * g) 4)) ++ ((tab.drop (12 + 16 * g)).take 12)) ++
      tab.drop (8 + 16 * n)

def scalesOf (bs : List Byte) (o : Nat) : Map (BitVec 16) :=
  (List.range 2048).map fun i => (i, BitVec.ofNat 16 (field bs (o + 2 * i) 2))

/-- A matrix entry of a frame at an offset, with its addresses moved, and what the frame does not hold of it; and its size. -/
def matOf (bs : List Byte) (o old new size slot : Nat) (k : Kept) : MatCmd × Nat :=
  let n := field bs (o + 44) 4
  let mv (k : Nat) : DWord := d64 (movedAddr old new size (field bs (o + k) 8))
  let word := d64 (field bs o 8)
  let isMmag := word.toNat % 64 == 0x20 && bitsOf word.toNat 53 46 == 6
  let rows := min (field bs (o + 64) 4) 32
  ({ word := word, a := mv 8, b := mv 16, c := if field bs (o + 24) 8 == 0 then 0 else mv 24, issuer := ⟨slot, k.lane⟩,
     attr := k.attr, cycles := k.cycles, poison := k.poison, counted := k.counted, first := 0, next := field bs (o + 32) 8, onArr := false,
     scaleA := if n == 0 then [] else scalesOf bs (o + 640),
     scaleB := (List.range n).map fun k => scalesOf bs (o + 4736 + 4096 * k),
     table := if isMmag then movedTable old new size ((bs.drop (o + 64)).take (8 + 16 * rows)) else [] },
   field bs (o + 40) 4)

def Kept.none_ : Kept := ⟨0, none, 0, false, none, []⟩
/-- The matrix entries of a frame, each with its sync word and g0val where it is a follow-on not triggered yet. -/
def matsOf (bs : List Byte) (old new size slot : Nat) : Nat → Nat → List Kept → List (MatCmd × Option (DWord × Nat))
  | 0, _, _ => []
  | n + 1, o, ks =>
    let k := ks.headD .none_
    let (c, m) := matOf bs o old new size slot k
    (c, k.follow.map fun x => (d64 (movedAddr old new size x.1.toNat), x.2)) :: matsOf bs old new size slot n (o + m) ks.tail

/-- The scratchpad ranges of a frame: start, length and the offset of the bytes. -/
def rangesOf (bs : List Byte) : Nat → Nat → List (Nat × Nat × Nat)
  | 0, _ => []
  | n + 1, o => (field bs o 4, field bs (o + 4) 4, o + 8) :: rangesOf bs n (o + 8 + field bs (o + 4) 4)

/-- A tile of a frame. -/
def savedTile (bs : List Byte) (o : Nat) : Nat × Tile :=
  let h := field bs o 8
  (h % 16, tileOf (bit h 8) fun r c => BitVec.ofNat 42 (field bs (o + 8 + 8 * (128 * r + c)) 8))

/-- A member as a section gives it (R42); registers the save did not name and the frame still holds as zero are
undefined (R40). One that is not parked arrives at its PC (R17). -/
def State.savedThread (s : State) (asid : Nat) (bs : List Byte) (o fp lane st : Nat) (lost : List (Nat × Nat)) : Thread :=
  let sec := (bs.drop o).take (384 + 4 * fp)
  let t := s.withLife asid (threadOf sec st)
  let gone := lost.filter fun r => r.1 == lane && (lookup r.2 t.regs).isNone
  let t := { t with regs := each (fun (r : Nat × Nat) m => put r.2 (Val.undef st) m) gone t.regs }
  match bitsOf (field sec 92 4) 7 5 with
  | 2 => { t with run := .held 0 }
  | 3 => { t with run := .parked (w32 (field sec 144 4)) (d64 (field sec 152 8)) false }
  | _ => t.arrive false t.pc

/-- The group of a frame, without what its place decides. -/
def State.savedGroup (s : State) (bs : List Byte) (st : Nat) (lost : List (Nat × Nat)) (a : Aside) : Group :=
  let fp := w32 (field bs 8 4)
  let step := roundUp (frameSize fp) 64
  let lanes := (List.range 32).filter (bit (field bs 16 4))
  let sregs := (List.range (fpNS fp)).filterMap fun j =>
    let x := field bs (field bs 72 8 + 8 * j) 8
    if x != 0 then some (j + 1, Val.known (d64 x))
    else if lost.contains (32, j + 1) then some (j + 1, Val.undef st) else none
  { Group.start fp (field bs 12 4 % 65536) sregs
      (lanes.map fun l => (l, s.savedThread (field bs 12 4 % 65536) bs (field bs 64 8 + step * l) (fpNV fp) l st lost)) with
    sLoaded := a.sLoaded, sHeld := a.sHeld, gcyc := d64 (field bs 40 8), tmr := d64 (field bs 48 8), wake := w32 (field bs 28 4) }

/-- Tiles of a frame; one the save did not name is undefined (R40).
DESIGN CHOICE (safe): notes/assumptions/37.md. -/
def savedTiles (bs : List Byte) (fp : Word) (st : Nat) : Map Tile :=
  let o := field bs 88 8
  let n := (field bs 96 8 - o) / 131080
  let named := (List.range n).map fun k => savedTile bs (o + 131080 * k)
  let undef : Tile := { elems := (List.range 16384).map fun i => (i, Config.freeElem st i), err := false }
  (List.range (fpAcc fp)).map fun k => (k, ((named.find? fun x => x.1 == k).map fun x => x.2).getD undef)

/-- The region of a restored group: the saved ranges, the rest undefined (R40).
DESIGN CHOICE (safe): notes/assumptions/37.md. -/
def State.loadSpad (s : State) (core lo size st : Nat) (rs : List (Nat × Nat × Nat)) (bs : List Byte) : State :=
  let whole := rs.any fun r => r.1 == 0 && r.2.1 == size
  let m := if whole || size == 0 then s.spadOf core
    else memWrite (s.spadOf core) lo ((List.range size).map fun i => Config.freeByte st i)
  s.setSpad core (each (fun r m => memWrite m (lo + r.1) ((bs.drop r.2.2).take r.2.1)) rs m)

/-- The entry that homes keep for a saved subscription, with the home and the location's PA (R213): wherever the location's page
has moved to. -/
def State.suspended (s : State) (area slot : Nat) : Option (Nat × Nat × Subscriber) :=
  let mine := fun (u : Subscriber) => u.susp && u.owner == savedOwner area && u.slot.toNat == slot
  (s.dies.flatMap fun d => d.2.home.flatMap fun l => (l.subs.filter mine).map fun u => (d.1, l.pa, u)).head?
/-- Where a location at a home lies. -/
def State.homeDest (s : State) (home pa : Nat) : Dest :=
  if 64 ≤ home then .peer (home - 64) none else match s.localAt pa false false with
    | some t => t.dest
    | none => .unit 0
/-- A subscription re-pointed by its home to the new core and slot, with its current value queued for delivery, or the slot owed
where the queue is full (R211, R213); one whose home was lost in the meantime is lost at this core, which gives the slot ERR
(R65, R317). -/
def State.rePoint (s : State) (slot asid area old new : Nat) (va : DWord) (off : Nat) : State :=
  let core := coreOfSlot slot
  let addr := d64 (new + off)
  let no := s.freeNo + 1
  let sub : Sub := { slot := addr, owner := slot, asid := asid, pa := 0, dest := .unit 0, va := va, no := no }
  match s.suspended area (old + off) with
  | none => s.bump.modCore core fun c => { c with subs := c.subs ++ [{ sub with lost := true }] }
  | some (home, pa, u) =>
    let mem := if 64 ≤ home then s.peerMem (home - 64) else s.mem
    let v : Subscriber := { u with core := core, slot := addr, owner := slot, susp := false, no := no }
    let (c, ok) := (s.core core).enqueue (v.push (d64 (leVal (memRead mem pa 8))) u.owed)
    let s := s.modSubscriber home pa (fun x => x == u) fun _ => { v with owed := !ok, owedAt := s.freeNo }
    s.bump.setCore core { c with subs := c.subs ++ [{ sub with pa := pa, dest := s.homeDest home pa }] }

/-- A chain restarted on a channel of the new core's engine (R355). -/
def State.restartChain (s : State) (slot asid k : Nat) (rec sync : DWord) (x : Kept) : State :=
  let eng := engineOf slot
  s.pushCmd eng k
    { word := 0, issuer := ⟨slot, x.lane⟩, asid := asid, sup := false, regs := [0, rec, sync], sync := sync, op := .chain rec,
      running := false, todo := [], rows := [], parts := [], sent := [], bad := none, record := [], chores := [], first := 0,
      back := none, cycles := x.cycles,
      attr := x.attr.getD ⟨0, s.agentOf ⟨slot, x.lane⟩, 0⟩ }

/-- The records of parked members, queued again (R355). -/
def State.requeue (s : State) (slot asid : Nat) (m : Nat × Thread) : State :=
  match m.2.run with
  | .parked c d _ => s.queueFault (dieOfSlot slot) (s.recordOf ⟨slot, m.1⟩ m.2 asid c m.2.pc d 2)
  | _ => s

/-- A frame's sections loaded into the slot a group was placed in.
DESIGN CHOICE (safe): notes/assumptions/37.md. -/
def State.loadSaved (s : State) (slot area : Nat) (g : Group) (bs : List Byte) (st : Nat) (a : Aside) : State :=
  let core := coreOfSlot slot
  let new := ((s.group? slot).map fun x => x.spbase.toNat).getD 0
  let old := field bs 32 8
  let size := 65536 * fpSpad g.footprint
  let s := s.loadSpad core (new % 2 ^ 22) size st (rangesOf bs (field bs 132 4) (field bs 80 8)) bs
  let mats := matsOf bs old new size slot (field bs 120 4) (field bs 96 8) a.mats
  let s := s.modGroup slot fun x => { x with
    members := g.members, tiles := savedTiles bs g.footprint st,
    queue := mats.filterMap (fun c => if c.2.isNone then some c.1 else none),
    follows := mats.filterMap fun c => c.2.map fun f => ⟨f.1, f.2, c.1⟩ }
  let s := each (fun k s =>
    let o := field bs 104 8 + 16 * k
    s.rePoint slot g.asid area old new (d64 (field bs o 8)) (field bs (o + 8) 4)) (List.range (field bs 124 4)) s
  let s := each (fun k s =>
    let o := field bs 112 8 + 32 * k
    let x := field bs (o + 16) 8
    s.restartChain slot g.asid (field bs o 8 % 4) (d64 (field bs (o + 8) 8)) (if x == 2 ^ 64 - 1 then 0 else d64 (x + new))
      (a.chains.getD k .none_))
    (List.range (field bs 128 4)) s
  let s := each (fun m s => s.requeue slot g.asid m) g.members s
  (s.modCore core fun c => { c with icache := [] }).bump

/-- RESTORE (R348, R355): the status and the state; `unit` is a core of the die, or 63 for any.
PRESUMED (unsafe): notes/assumptions/36.md. -/
def State.restore (s : State) (die unit area : Nat) : Nat × State :=
  match s.readPhys area 512 with
  | .error _ => (3, s)
  | .ok h =>
    if field h 0 4 != 0x47564153 || field h 4 4 != 1 || !bit (field h 24 4) 2 || bit (field h 24 4) 3 then (3, s)
    else match s.readPhys area (field h 56 8) with
      | .error _ => (3, s)
      | .ok bs =>
        let st := s.stamp
        let a := get s.asides area ⟨[], [], [], []⟩
        let g := s.savedGroup bs st (get s.unsaved area []) a
        let core := if unit == 63 then s.coreFor die g.footprint
          else if s.fitsCore (coreKey die unit) g.footprint then some (coreKey die unit) else none
        match core with
        | none => (4, s)
        | some c => match s.placeGroup c g with
          | none => (4, s)
          | some (slot, s) => (0, (s.bump).loadSaved slot area g bs st a)

end Sys2Proof.Machine
end

