-- ==== Sys2Proof/Machine/Commands.lean ====
section
/-! DEFINITION. The commands of a die control block (R37, R346 to R348): on parked threads, on groups, on pages. -/

namespace Sys2Proof.Machine

/-- What an agent id names (R3). -/
def agentPkg (a : Nat) : Nat := bitsOf a 31 26
def agentDie (a : Nat) : Nat := bitsOf a 25 23
def agentUnit (a : Nat) : Nat := bitsOf a 22 17
def agentSlot (a : Nat) : Nat := bitsOf a 16 7
def agentLane (a : Nat) : Nat := bitsOf a 6 2
def agentKind (a : Nat) : Nat := a % 4
def agentWho (a : Nat) : Who := ⟨slotKey (coreKey (agentDie a) (agentUnit a)) (agentSlot a), agentLane a⟩

/-- A command's operation, argument and operands. -/
structure Command where
  op  : Nat
  arg : Nat
  a   : Nat
  b   : Nat
deriving DecidableEq, Repr

/-- Bytes of a page of MOVEPAGE's argument. -/
def pageSize (arg : Nat) : Nat :=
  match arg with
  | 0 => 2 ^ 12
  | 1 => 2 ^ 16
  | 2 => 2 ^ 21
  | _ => 2 ^ 30

/-- A field of CMD, CMDA or CMDB is malformed (R347, R348). -/
def Command.malformed (c : Command) : Bool :=
  let agent := 2 ^ 32 ≤ c.a || agentKind c.a != 0
  match c.op with
  | 0 => agent || c.arg != 0 || (c.b != 1 && c.b % 8 != 0)
  | 1 => agent || c.arg != 0 || c.b != 0
  | 2 => agent || !targetOk c.arg || c.b != 0
  | 3 | 4 => agent || c.arg != 0 || c.b % 64 != 0
  | 5 => agent || c.arg != 0 || c.b % 4096 != 0
  | 6 => 2 ^ 32 ≤ c.a || c.arg != 0 || c.b % 4096 != 0
  | 7 => 4 ≤ c.arg || c.a % pageSize c.arg != 0 || c.b % pageSize c.arg != 0
  | 8 => c.arg != 0 || c.a % 4096 != 0 || c.b != 0
  | _ => true

/-- The parked thread an agent id names on a die, its group not being pre-empted. -/
def State.parkedAt (s : State) (die a : Nat) : Option (Who × Group × Thread) :=
  let w := agentWho a
  if agentPkg a != s.pkg || agentDie a != die then none
  else match s.group? w.slot with
    | none => none
    | some g => match lookup w.lane g.members with
      | none => none
      | some t => if t.run.isParked && g.preempt.isNone then some (w, g, t) else none

/-- A departure waits for its frame's page, which is in move (R74). -/
def Trip.waits : Trip → Bool
  | .stay _ => true
  | _ => false
/-- A command waits for the accesses of the thread it names (R23, R37, R56, R116): KILL and MIGRATE for all of them, drains
included, KILL for the completion word and MIGRATE for the frame to be in reach, EXTRACT and LOADRESUME for what is still to reach
its registers. -/
def State.commandWaits (s : State) (die : Nat) (c : Command) : Option Who :=
  if c.malformed || c.op < 1 || 4 < c.op then none
  else match s.parkedAt die c.a with
    | none => none
    | some (w, g, t) =>
      if s.reqs.any (fun r => r.of w && (c.op ≤ 2 || r.reads)) || (c.op ≤ 2 && s.ownsEntry w) ||
        (c.op == 1 && s.completeWaits w t g.asid) || (c.op == 2 && (s.depart w g t c.arg).waits) then some w else none

/-- A parked thread resumes at a PC, with a local instruction fence; what precedes its fault precedes what follows (R37, R56,
R75, R88).
DEDUCED (unsafe): notes/assumptions/39.md. -/
def State.resumeAt (s : State) (w : Who) (t : Thread) (pc : DWord) : State :=
  ((s.setThread w (((t.dropQ s.stamp).settled s.turnNo).arrive (isLatency w.slot) pc)).modCore (coreOfSlot w.slot)
    fun c => { c with icache := [] }).bump

/-- RESUME.
DEDUCED (unsafe): notes/assumptions/39.md. -/
def State.cmdResume (s : State) (die : Nat) (c : Command) : Nat × State :=
  match s.parkedAt die c.a with
  | none => (1, s)
  | some (w, g, t) => (0, s.resumeAt w t (if c.b == 1 then t.pc else s.forward die g.asid (d64 c.b)))

/-- KILL: a pending signal is discarded with the thread. -/
def State.cmdKill (s : State) (die : Nat) (c : Command) : Nat × State :=
  match s.parkedAt die c.a with
  | none => (1, s)
  | some (w, g, t) => (0, s.endThread w t g.asid none)

/-- MIGRATE: the frame at TFRAME, then the thread departs. -/
def State.cmdMigrate (s : State) (die : Nat) (c : Command) : Nat × State :=
  match s.parkedAt die c.a with
  | none => (1, s)
  | some (w, g, t) => match s.depart w g t c.arg with
    | .go s => (0, s)
    | _ => (3, s)

/-- EXTRACT: the frame to a PA. -/
def State.cmdExtract (s : State) (die : Nat) (c : Command) : Nat × State :=
  match s.parkedAt die c.a with
  | none => (1, s)
  | some (_, g, t) => match s.writePhys c.b (frameBytes t g.footprint g.asid t.pc 0 .none) with
    | .error _ => (3, s)
    | .ok s => (0, s)

/-- A thread with the items LOADRESUME takes from a frame. -/
def loadedThread (t : Thread) (bs : List Byte) (fp : Word) (st : Nat) : Thread :=
  { threadOf bs st with
    regs := ({ t with regs := regsOf bs (fpNV fp) } : Thread).dropQ st |>.regs,
    cohort := t.cohort, wid := t.wid, prio := t.prio, pathtok := t.pathtok, seq := t.seq, pathRem := t.pathRem,
    run := t.run, numTraps := t.numTraps, timer := t.timer, owed := t.owed, loaded := t.loaded, back := t.back,
    fences := t.fences, held := each (fun r h => heldWith t.regs r.1 h) t.regs t.held }

/-- LOADRESUME. -/
def State.cmdLoadResume (s : State) (die : Nat) (c : Command) : Nat × State :=
  match s.parkedAt die c.a with
  | none => (1, s)
  | some (w, g, t) => match s.readPhys c.b (frameSize g.footprint) with
    | .error _ => (3, s)
    | .ok bs =>
      let t' := loadedThread t bs g.footprint s.stamp
      let sig := if t'.signal.isSome then (if t.signal.isSome then t.signal else t'.signal) else none
      (0, s.resumeAt w { t' with signal := sig } (s.forward die g.asid t'.pc))

/-- The bytes of a group's save frame at the most (R354). -/
def State.saveSize (s : State) (slot : Nat) (g : Group) : Nat :=
  let fp := g.footprint
  let entry (c : MatCmd) : Nat := match c.instr with
    | some (i, _) => if (matFmts i).2.isBx then 4736 + 4096 * 32 else 640
    | none => 640
  512 + 32 * roundUp (frameSize fp) 64 + roundUp (8 * fpNS fp) 64 + roundUp (8 + 65536 * fpSpad fp) 64 +
  roundUp (131080 * fpAcc fp) 64 + roundUp (((g.queue ++ g.follows.map fun x => x.cmd).map entry).foldl (· + ·) 0) 64 +
  roundUp (16 * (s.subsOf slot).length) 64 + roundUp (32 * (s.chainsOf slot).length) 64
/-- PREEMPT: accepted if memory can take the frame; the group is saved later (R40).
DEDUCED (unsafe): notes/assumptions/38.md. -/
def State.cmdPreempt (s : State) (die : Nat) (c : Command) : Nat × State :=
  let slot := (agentWho c.a).slot
  if agentPkg c.a != s.pkg || agentDie c.a != die then (1, s)
  else match s.group? slot with
    | none => (1, s)
    | some g =>
      if isSup slot || g.members.isEmpty then (1, s)
      else if g.preempt.isSome then (5, s)
      else match s.physPages false c.b (s.saveSize slot g) (pages (s.saveSize slot g)) with
        | .error _ => (3, s)
        | .ok _ =>
          (0, s.setGroup slot { g with preempt := some ⟨c.b, 0, false, none, []⟩ })

/-- RESTORE.
DEDUCED (unsafe): notes/assumptions/38.md. -/
def State.cmdRestore (s : State) (die : Nat) (c : Command) : Nat × State :=
  if 4 ≤ die || (agentUnit c.a != 63 && 32 ≤ agentUnit c.a) then
    match s.restore 0 62 c.b with
    | (3, s) => (3, s)
    | _ => (4, s)
  else s.restore die (agentUnit c.a) c.b

/-- A page that memory holds whole: each of its frames on a memory that is ready. -/
def State.pageHere (s : State) (pa n : Nat) : Bool :=
  !s.homeReserved pa n && (List.range (n / 4096)).all fun i => match s.localAt (pa + 4096 * i) false false with
    | some t => s.ready t.unit
    | none => false

/-- MOVEPAGE: accepted; accesses to the page wait from now on (R74).
DEDUCED (unsafe): notes/assumptions/27.md. -/
def State.cmdMovePage (s : State) (die : Nat) (c : Command) : Nat × State :=
  let n := pageSize c.arg
  if (List.range 6).any fun d => (s.die d).moves.any fun m => m.src < c.a + n && c.a < m.src + m.size then (5, s)
  else if !s.pageHere c.a n || !s.pageHere c.b n then (3, s)
  else (0, s.modDie die fun d => { d with moves := d.moves ++ [⟨c.a, c.b, n, false⟩] })

/-- FINISHMOVE: the old home forwards no more (R346).
DEDUCED (unsafe): notes/assumptions/27.md. -/
def State.cmdFinishMove (s : State) (c : Command) : Nat × State :=
  if (List.range 6).any fun d => (s.die d).moves.any fun m => m.src == c.a && !m.done then (5, s)
  else
    let keep := fun (m : PageMove) => m.src != c.a
    (0, each (fun d s => s.modDie d fun x => { x with moves := x.moves.filter keep }) (List.range 6) s)

/-- A command's status and state (R347, R348). -/
def State.perform (s : State) (die : Nat) (c : Command) : Nat × State :=
  if c.malformed then (2, s)
  else match c.op with
    | 0 => s.cmdResume die c
    | 1 => s.cmdKill die c
    | 2 => s.cmdMigrate die c
    | 3 => s.cmdExtract die c
    | 4 => s.cmdLoadResume die c
    | 5 => s.cmdPreempt die c
    | 6 => s.cmdRestore die c
    | 7 => s.cmdMovePage die c
    | _ => s.cmdFinishMove c

def State.commandOf (s : State) (die t op arg : Nat) : Command :=
  ⟨op, arg, (s.dreg die (hwReg t 0x030)).toNat, (s.dreg die (hwReg t 0x038)).toNat⟩
/-- A command of hardware thread t at a die, with its operands in the thread's CMDA and CMDB; CMDST takes the status. -/
def State.command (s : State) (die t op arg : Nat) : State :=
  let (st, s) := s.perform die (s.commandOf die t op arg)
  s.setDreg die (hwReg t 0x048) (d64 st)

/-- A write of CMD (R347): bits above [7:0] are malformed. -/
def State.writeCmd (s : State) (die t : Nat) (v : DWord) : State :=
  if v.toNat / 256 != 0 then s.setDreg die (hwReg t 0x048) 2 else s.command die t (v.toNat % 16) (v.toNat / 16 % 16)

/-- The event row of a command: the subject names the die, the hardware thread and the argument; it comes about once nothing
holds it up. -/
def State.commandRow (s : State) (op : Nat) : State :=
  match s.subject with
  | .command d t x => match s.commandWaits d (s.commandOf d t op x) with
    | some w => s.drainOwner w
    | none => s.command d t op x
  | _ => s

/-- RESUME (R37, R347). -/
def execResume (s : State) : Host.Outcome State Fault Refusal := .next (s.commandRow 0)
/-- KILL (R37, R347). -/
def execKill (s : State) : Host.Outcome State Fault Refusal := .next (s.commandRow 1)
/-- MIGRATE as a command (R37, R347). -/
def execMigrateCommand (s : State) : Host.Outcome State Fault Refusal := .next (s.commandRow 2)
/-- EXTRACT (R347). -/
def execExtract (s : State) : Host.Outcome State Fault Refusal := .next (s.commandRow 3)
/-- LOADRESUME (R347). -/
def execLoadresume (s : State) : Host.Outcome State Fault Refusal := .next (s.commandRow 4)
/-- PREEMPT (R40, R347). -/
def execPreempt (s : State) : Host.Outcome State Fault Refusal := .next (s.commandRow 5)
/-- RESTORE (R355). -/
def execRestore (s : State) : Host.Outcome State Fault Refusal := .next (s.commandRow 6)
/-- MOVEPAGE (R346). -/
def execMovepage (s : State) : Host.Outcome State Fault Refusal := .next (s.commandRow 7)
/-- FINISHMOVE (R346). -/
def execFinishmove (s : State) : Host.Outcome State Fault Refusal := .next (s.commandRow 8)

end Sys2Proof.Machine
end

