-- ==== Sys2Proof/Machine/Admission.lean ====
section
/-! DEFINITION. Admission: frames accepted by S-dies and L-dies (R12, R13, R30, R402), groups formed (R12), cohorts and
packed groups placed (R22, R403). -/

namespace Sys2Proof.Machine

/-- A migrating member: its group, thread, target and the VA of its frame. -/
def State.migrant (s : State) (w : Who) : Option (Group × Thread × Nat × DWord) :=
  match s.group? w.slot with
  | none => none
  | some g => match lookup w.lane g.members with
    | none => none
    | some t => match t.run with
      | .migrating target va _ => some (g, t, target, va)
      | _ => none

/-- The bytes of a migrant's frame, as the destination reads them. A frame that cannot be read is not accepted.
DEDUCED (safe): notes/assumptions/57.md. -/
def State.frameAt (s : State) (w : Who) (g : Group) (va : DWord) : Option (List Byte) :=
  match s.readVa (coreOfSlot w.slot) g.asid false va (frameSize g.footprint) (lines (frameSize g.footprint)) with
  | .ok (bs, _) => some bs
  | .error _ => none

/-- The migrant leaves its source, with the token it carries (R30, R290). -/
def State.departed (s : State) (w : Who) (t : Thread) : State := s.leave w (some (s.carry w t))

/-- FRAME_ACCEPT (R12, R13, R30): the S-die that a migrant's target names, or the first with room, takes its frame; the
token is the one it has now (R287).
DEDUCED (safe): notes/assumptions/57.md. -/
def execFrameAccept (s : State) : Host.Outcome State Fault Refusal :=
  .next (match s.subject with
    | .lane l =>
      let w := laneWho l
      match s.migrant w with
      | none => s
      | some (g, t, target, va) => match s.targetDie (dieOfSlot w.slot) target, s.frameAt w g va with
        | some d, some bs =>
          if 4 ≤ d || !fpValid (w32 (field bs 88 4)) then s
          else
            let th := { s.withLife (field bs 132 4 % 65536) (threadOf bs s.stamp) with pathtok := t.pathtok, pathRem := t.pathRem }
            (s.bump.departed w t).accept d th (w32 (field bs 88 4)) (field bs 132 4 % 65536)
        | _, _ => s
    | _ => s)

/-- A frame appended to an L-die's ready queue (R402): its link is 0, and the last frame's names it; a thread that arrives
has nothing kept beside its frame.
DEDUCED (safe): notes/assumptions/57.md. -/
def State.enqueueReady (s : State) (d pa : Nat) : State :=
  let put8 (s : State) (a : Nat) (v : Nat) : State := match s.writePhys a (leBytes 8 v) with
    | .ok s => s
    | .error _ => s
  let s := put8 s (pa + 248) 0
  let s := match (s.die d).readyQ.getLast? with
    | some p => put8 s (p + 248) pa
    | none => s
  (s.forgetKept pa).modDie d fun x => { x with readyQ := x.readyQ ++ [pa] }

/-- READY_QUEUE_ACCEPT (R30, R402): an L-die takes the frame at the PA its VA has, with the token the migrant has now
(R287).
DEDUCED (safe): notes/assumptions/57.md. -/
def execReadyQueueAccept (s : State) : Host.Outcome State Fault Refusal :=
  .next (match s.subject with
    | .lane l =>
      let w := laneWho l
      match s.migrant w with
      | none => s
      | some (g, t, target, va) => match s.targetDie (dieOfSlot w.slot) target,
            s.translate (coreOfSlot w.slot) g.asid false va .read with
        | some d, .ok (p, _) =>
          if d < 4 || p.kind != .local_ then s
          else match s.writePhys (p.pa + 80) (leBytes 8 t.pathtok.toNat) with
            | .ok s => (s.departed w t).enqueueReady d p.pa
            | .error _ => s
        | _, _ => s
    | _ => s)

/-- PACKWIN_EXPIRY (R12): PACKWIN cycles after its oldest frame, an open key forms its group. -/
def execPackwinExpiry (s : State) : Host.Outcome State Fault Refusal :=
  .next (match s.subject with
    | .dieIdx d i => match (s.die d).keys[i]? with
      | some k =>
        if k.cycles < (s.die d).packwin.toNat then s else (s.modDie d fun x => x.form k s.freeNo).bump
      | none => s
    | _ => s)

/-- The cohort that is first in the order of R403. -/
def State.firstCohort (s : State) : Option (Nat × Cohort × Nat) :=
  s.cohorts.foldl (fun (b : Option (Nat × Cohort × Nat)) x => match x.2.waiting with
    | none => b
    | some o => match b with
      | none => some (x.1, x.2, o)
      | some y => if earlier (hdrPrio x.2.header) o (hdrPrio y.2.1.header) y.2.2 then some (x.1, x.2, o) else some y) none

/-- ADMISSION_PLACEMENT (R403): the first waiting cohort by a plan of cores, which the hardware chooses (R22), or the
first packed group of a die. -/
def execAdmissionPlacement (s : State) : Host.Outcome State Fault Refusal :=
  .next (match s.subject with
    | .plan cs => match s.firstCohort with
      | some (c, co, o) => (s.placeCohort (cs.map coreIdKey) c co o).getD s
      | none => s
    | .die d => if sDie d then (s.placeFormed d).getD s else s
    | _ => s)

end Sys2Proof.Machine
end

