-- ==== Sys2Proof/Machine/Device.lean ====
section
/-! DEFINITION. The register blocks: die control blocks with their debug registers (R337 to R339, R357, R358, R379,
R402), fabric blocks (R360, R361) and memory blocks (R373). What a load reads, what a store keeps and does. Base
registers ignore the bits below their alignment (notes/assumptions/10.md). -/

namespace Sys2Proof.Machine

/-- A register block (R337, R359). -/
inductive Block where
  | die (d : Nat)
  | fabric (d : Nat)
  | memory (u : Nat)
deriving DecidableEq, Repr

/-- The block at a PA and the offset in it. -/
def blockAt (pa : Nat) : Option (Block × Nat) :=
  let at_ (base n : Nat) : Option (Nat × Nat) :=
    if base ≤ pa && pa < base + 65536 * n then some ((pa - base) / 65536, (pa - base) % 65536) else none
  match at_ Config.dieBlock 6, at_ Config.fabricBlock 4, at_ Config.stackBlock 16, at_ Config.lpBlock 2 with
  | some (d, o), _, _, _ => some (.die d, o)
  | _, some (d, o), _, _ => some (.fabric d, o)
  | _, _, some (u, o), _ => some (.memory u, o)
  | _, _, _, some (u, o) => some (.memory (16 + u), o)
  | _, _, _, _ => none

/-! ## Die control blocks -/

/-- `x` rounded down to a multiple of `n`.
DEDUCED (unsafe): notes/assumptions/10.md. -/
def roundDown (x n : Nat) : Nat := x / n * n
/-- FQSIZE and HPQSIZE (R338). -/
def queueSize (v : Nat) : Nat := if v % 32 == 0 then 0 else clampTo 12 24 (v % 32)

/-- The value that a write leaves in a readable and writable register of the die block; none where the offset has no
such register. The registers kept for each hardware thread and CCDATA stand apart.
DEDUCED (unsafe): notes/assumptions/10.md. -/
def dieStored (lat : Bool) (o : Nat) (v : DWord) : Option DWord :=
  let n := v.toNat
  let onL (x : DWord) : Option DWord := if lat then some x else none
  if o == 0x000 || o == 0x008 || o == 0x010 || o == 0x050 || o == 0x0D0 then some (d64 (roundDown n 4096))
  else if o == 0x018 || o == 0x058 then some (d64 (queueSize n))
  else if o == 0x028 || o == 0x068 || o == 0x070 || o == 0x088 || o == 0x0E0 || o == 0x0E8 then some v
  else if o == 0x078 then some (d64 (roundDown n (2 ^ 23)))
  else if o == 0x080 || o == 0x098 then some (d64 (roundDown n 1024))
  else if o == 0x090 then some (d64 (n % 2))
  else if o == 0x0A0 || o == 0x0C0 || o == 0x0F0 then some (d64 (n % 2 ^ 32))
  else if o == 0x0A8 then some (d64 (n % 2 ^ (if lat then 48 else 32)))
  else if o == 0x0B0 || o == 0x0B8 then onL v
  else if o == 0x0D8 then some (d64 (ringSize n 30 + (if bit n 8 then 256 else 0)))
  else if o == 0x0F8 then some (d64 (clampTo 0 16777215 n))
  else if 0x100 ≤ o && o < 0x400 then onL v
  else if o == 0x400 then some (d64 (n % 4))
  else if o == 0x408 then some (d64 (clampTo 0 1048575 n))
  else if 0x440 ≤ o && o < 0x540 then
    let r := (o - 0x440) % 32
    if r == 8 then some (v &&& ~~~0x700E) else if r == 24 then none else some v
  else none

/-- INTPEND (R338).
DEDUCED (unsafe): notes/assumptions/41.md. -/
def State.intPend (s : State) (d : Nat) : Nat :=
  let b2 (b : Bool) (n : Nat) : Nat := if b then n else 0
  let pend := (s.die d).pend
  b2 (s.dreg d 0x020 != s.dreg d 0x028) 1 + b2 (s.dreg d 0x060 != s.dreg d 0x068) 2 + b2 (pend.getLsbD 2) 4 +
  b2 (pend.getLsbD 3) 8 + b2 (4 ≤ d && !(s.die d).readyQ.isEmpty) 16

/-! ## The core CSR window (R339) -/

/-- The core and index that CCSEL selects, if the window serves them. -/
def ccTarget (d : Nat) (sel : DWord) (write : Bool) : Option (Nat × Nat) :=
  let i := bitsOf sel.toNat 43 32
  let c := sel.toNat % 64
  let core := if c < (if d < 4 then 32 else 48) then some (coreKey d c, i) else none
  match csrInfo i with
  | some x =>
    if write && !x.sW then none
    else match x.scope with
      | .core => core
      | .die => some (coreKey d 0, i)
      | _ => none
  | none => none

/-- CCSEL with BAD set or clear. -/
def ccBad (sel : DWord) (bad : Bool) : DWord := (sel &&& 0x7FFFFFFFFFFFFFFF) ||| (if bad then 1#64 <<< 63 else 0)

/-- A load of CCDATA by hardware thread t. -/
def State.ccRead (s : State) (d t : Nat) : DWord × State :=
  let sel := s.dreg d (hwReg t 0x600)
  match ccTarget d sel false with
  | none => (0, s.setDreg d (hwReg t 0x600) (ccBad sel true))
  | some (core, i) => (s.csrReadCore core i, s.setDreg d (hwReg t 0x600) (ccBad sel false))

/-- A store to CCDATA by hardware thread t. -/
def State.ccWrite (s : State) (d t : Nat) (v : DWord) : State :=
  let sel := s.dreg d (hwReg t 0x600)
  match ccTarget d sel true with
  | none => s.setDreg d (hwReg t 0x600) (ccBad sel true)
  | some (core, i) => (s.csrWriteCore core i v).setDreg d (hwReg t 0x600) (ccBad sel false)

/-- RQPOP (R402): the oldest frame of an L-die's ready queue is removed; 0 where there is none. -/
def State.popReady (s : State) (d : Nat) : DWord × State :=
  match (s.die d).readyQ with
  | [] => (0, s)
  | p :: ps => (d64 p, s.modDie d fun x => { x with readyQ := ps })

/-- A load of a die block's register by hardware thread t. A read of CMD, which is write-only, gives a free value. -/
def State.dieRead (s : State) (d t o : Nat) : DWord × State :=
  if o == 0x030 || o == 0x038 || o == 0x048 || o == 0x600 then (s.dreg d (hwReg t o), s)
  else if o == 0x040 then (Config.freeDWord s.stamp o, s.bump)
  else if o == 0x0C8 then (d64 (s.intPend d), s)
  else if o == 0x608 then s.ccRead d t
  else if o == 0x610 && 4 ≤ d then s.popReady d
  else if o == 0x618 && 4 ≤ d then (d64 (s.die d).readyQ.length, s)
  else if o == 0x020 || o == 0x060 || (dieStored (4 ≤ d) o 0).isSome then (s.dreg d o, s)
  else (0, s)

/-- CEN (R357): setting the bit of a latency core releases its hardware threads that are still in reset at LCENTRY.
DEDUCED (unsafe): notes/assumptions/42.md. -/
def State.setCen (s : State) (d : Nat) (v : DWord) : State :=
  let old := (s.dreg d 0x0A8).toNat
  let new := ((dieStored (4 ≤ d) 0x0A8 v).getD 0)
  let s := s.setDreg d 0x0A8 new
  if d < 4 then s
  else
    let entry := s.dreg d 0x0B0
    each (fun k s =>
      if bit new.toNat k && !bit old k then
        each (fun h s =>
          let slot := slotKey (coreKey d k) h
          if (s.hwThread slot).released then s else s.releaseHw slot entry) [0, 1] s
      else s) (List.range 48) s

/-- HTEN (R338, R358): once 1, writes are ignored. -/
def State.setHten (s : State) (d : Nat) (v : DWord) : State :=
  if (s.dreg d 0x090).getLsbD 0 then s else s.setDreg d 0x090 (v &&& 1)

/-- A store to a die block's register by hardware thread t. -/
def State.dieWrite (s : State) (d t o : Nat) (v : DWord) : State :=
  if o == 0x030 || o == 0x038 then s.setDreg d (hwReg t o) v
  else if o == 0x040 then s.writeCmd d t v
  else if o == 0x600 then
    s.setDreg d (hwReg t o) ((v &&& 0xFFF0000003F) ||| (s.dreg d (hwReg t o) &&& (1#64 <<< 63)))
  else if o == 0x608 then s.ccWrite d t v
  else if o == 0x0A8 then s.setCen d v
  else if o == 0x090 then s.setHten d v
  else match dieStored (4 ≤ d) o v with
    | some x => s.setDreg d o x
    | none => s

/-! ## Fabric blocks (R360, R361) -/

/-- STARMAP(c) (R361): EN and PEER are written, STATE stays. -/
def starStored (old v : Nat) : Nat := bitsOf old 9 8 * 256 + bitsOf v 12 12 * 4096 + v % 64

/-- YCTL: while EN is 1 a write changes only EN; DSIZE 3 is ignored. -/
def yctlStored (old v : Nat) : Nat :=
  if bit old 8 then old % 256 + bitsOf v 8 8 * 256
  else (if v % 4 == 3 then old % 4 else v % 4) + bitsOf v 7 2 * 4 + bitsOf v 8 8 * 256

def State.fabRead (s : State) (d o : Nat) : DWord × State :=
  if o == 0x030 then (Config.freeDWord s.stamp o, s.bump)
  else if o == 0x000 || o == 0x008 || o == 0x010 || o == 0x018 || o == 0x020 || o == 0x028 ||
      (0x200 ≤ o && o < 0x400) || (0x1000 ≤ o && o < 0x2000) then (s.freg d o, s)
  else (0, s)

/-- The lost peers that software has admitted again (R371), as a mask kept once for the package.
DEDUCED (unsafe): notes/assumptions/43.md. -/
def State.admitted (s : State) (q : Nat) : Bool := bit (s.freg 0 0x030).toNat q
/-- PEERADMIT (R371): a peer that is not lost is left alone. -/
def State.readmit (s : State) (q : Nat) : State :=
  if s.peerState q == 2 then s.setFreg 0 0x030 (s.freg 0 0x030 ||| (1#64 <<< q)) else s

/-- A store to a fabric block's register (R360, R361). What changes the channels in service is counted in PEERSTAT. -/
def State.fabWrite (s : State) (d o : Nat) (v : DWord) : State :=
  let n := v.toNat
  if o == 0x000 then
    each (fun q s => s.recount d q) ((List.range 64).filter fun q => s.freg d (statReg q) != 0)
      (s.setFreg d o (d64 (yctlStored (s.freg d o).toNat n)))
  else if o == 0x010 then s.setFreg d o (d64 (n % 2 ^ 32 + clampTo 1 16 (bitsOf n 39 32) * 2 ^ 32 + bitsOf n 63 40 * 2 ^ 40))
  else if o == 0x018 then s.setFreg d o (d64 (clampTo 256 16384 n))
  else if o == 0x020 || o == 0x028 then s.setFreg d o v
  else if o == 0x030 then if n < 64 then s.readmit n else s
  else if 0x1000 ≤ o && o < 0x1800 then
    let was := (s.freg d o).toNat
    let s := s.setFreg d o (d64 (starStored was n))
    if bitsOf was 9 8 == 1 then (s.recount d (was % 64)).recount d (n % 64) else s
  else s

/-! ## Memory blocks (R373) -/

/-- STKCTL; an LPDDR 6 block ignores MSCEN and MSCWT. -/
def stkStored (u v : Nat) : Nat :=
  v % 4 + (if u < 16 then bitsOf v 3 2 * 4 else 0) + clampTo 8 16 (bitsOf v 12 8) * 256 +
  clampTo 256 65535 (bitsOf v 31 16) * 65536

def State.memRegRead (s : State) (u o : Nat) : DWord × State :=
  if o == 0x028 then (Config.freeDWord s.stamp o, s.bump)
  else if o == 0x000 || o == 0x008 || o == 0x010 || o == 0x018 || o == 0x020 then (s.breg u o, s)
  else (0, s)

/-- POISONPA: a 512-byte block of the unit's memory is poisoned. -/
def State.poisonPa (s : State) (u pa : Nat) : State :=
  if pa % 512 != 0 || (s.localAt pa false false).isNone then s
  else s.modBlock u fun b => { b with poison := b.poison.filter (· != pa) ++ [pa] }

/-- A write of a memory block's register; ZERO set anew starts the zeroing (R373, R374). -/
def State.memRegWrite (s : State) (u o : Nat) (v : DWord) : State :=
  let n := v.toNat
  if o == 0x000 then
    let begins := bit n 1 && !bit (s.breg u 0).toNat 1
    let s := if begins then s.setBreg u 8 (s.breg u 8 &&& ~~~8) else s
    s.setBreg u o (d64 (stkStored u n))
  else if o == 0x010 then s.setBreg u o (d64 (clampTo 1 255 (n % 256) + clampTo 1 16 (bitsOf n 15 8) * 256))
  else if o == 0x028 then s.poisonPa u n
  else s

/-! ## Accesses (R337, R194) -/

/-- A load of n bytes at a device page, performed at once. A device that the spec does not describe answers a free
value. -/
def State.deviceRead (s : State) (slot pa n : Nat) : Except Nat (List Byte × State) :=
  if !isBlockPa pa then .ok ((List.range n).map fun i => Config.freeByte s.stamp i, s.bump)
  else if !isSup slot || n != 8 then .error 5
  else
    let t := hwNumber slot
    let give (x : DWord × State) : Except Nat (List Byte × State) := .ok (leBytes 8 x.1.toNat, x.2)
    match blockAt pa with
    | some (.die d, o) => give (s.dieRead d t o)
    | some (.fabric d, o) => give (s.fabRead d o)
    | some (.memory u, o) => give (s.memRegRead u o)
    | none => .error 5

/-- The thread that a store of a command waits for (R56, R347): its synchronous part is complete when the store is performed. -/
def State.storeHeld (s : State) (slot pa : Nat) (bs : List Byte) : Option Who :=
  match blockAt pa with
  | some (.die d, 0x040) =>
    let v := leVal bs
    if v / 256 != 0 then none else s.commandWaits d (s.commandOf d (hwNumber slot) (v % 16) (v / 16 % 16))
  | _ => none
/-- A store at a device page, performed at once. -/
def State.deviceWrite (s : State) (slot pa : Nat) (bs : List Byte) : Except Nat State :=
  if !isBlockPa pa then .ok s
  else if !isSup slot || bs.length != 8 then .error 5
  else
    let t := hwNumber slot
    let v := d64 (leVal bs)
    match blockAt pa with
    | some (.die d, o) => .ok (s.dieWrite d t o v)
    | some (.fabric d, o) => .ok (s.fabWrite d o v)
    | some (.memory u, o) => .ok (s.memRegWrite u o v)
    | none => .error 5

/-! ## The rows of register accesses -/

/-- The hardware thread of a subject in supervisor mode, as its slot. -/
def State.supHw (s : State) (h : SlotId) : Option Nat :=
  let slot := slotIdKey h
  if (s.hwThread slot).released && (s.hwThread slot).sup then some (supSlot slot) else none

/-- A load of the register at an offset of a die's block: the register pair takes the value. -/
def State.regLoad (s : State) (o : Nat) : State :=
  match s.subject with
  | .regLoad d h t => match s.supHw h with
    | none => s
    | some slot =>
      let (v, s) := s.dieRead d (hwNumber slot) o
      s.modThread ⟨slot, 0⟩ fun x => x.write (pairOut t.toNat v)
  | _ => s

/-- A store by a hardware thread in supervisor mode to the registers that `ok` accepts. -/
def State.regStore (s : State) (ok : Block → Nat → Bool) : State :=
  match s.subject with
  | .regStore pa h v => match s.supHw h, blockAt pa with
    | some slot, some (b, o) =>
      if o % 8 == 0 && ok b o then match s.storeHeld slot pa (leBytes 8 v.toNat) with
        | some w => s.drainOwner w
        | none => match s.deviceWrite slot pa (leBytes 8 v.toNat) with
          | .ok s => s
          | .error _ => s
      else s
    | _, _ => s
  | _ => s

def isDieReg (b : Block) : Bool :=
  match b with
  | .die _ => true
  | _ => false

/-- RQPOP (R402): a load of the register removes the oldest ready-queue frame and returns its PA. -/
def execRqpop (s : State) : Host.Outcome State Fault Refusal := .next (s.regLoad 0x610)
/-- CCDATA_READ (R339). -/
def execCcdataRead (s : State) : Host.Outcome State Fault Refusal := .next (s.regLoad 0x608)
/-- CCDATA_WRITE (R339). -/
def execCcdataWrite (s : State) : Host.Outcome State Fault Refusal :=
  .next (s.regStore fun b o => isDieReg b && o == 0x608)
/-- CEN_WRITE (R357).
DEDUCED (unsafe): notes/assumptions/42.md. -/
def execCenWrite (s : State) : Host.Outcome State Fault Refusal :=
  .next (s.regStore fun b o => isDieReg b && o == 0x0A8)
/-- HTEN_WRITE (R358). -/
def execHtenWrite (s : State) : Host.Outcome State Fault Refusal :=
  .next (s.regStore fun b o => isDieReg b && o == 0x090)
/-- REGISTER_WRITE (R338, R360, R373, R379): a write to a register with no behaviour of its own. -/
def execRegisterWrite (s : State) : Host.Outcome State Fault Refusal :=
  .next (s.regStore fun b o => match b with
    | .die _ => o != 0x608 && o != 0x0A8 && o != 0x090 && o != 0x040
    | .fabric _ => o != 0x000 && o != 0x030
    | .memory _ => o != 0x000 && o != 0x028)

end Sys2Proof.Machine
end

