-- ==== Sys2Proof/Machine/Mem.lean ====
section
/-! DEFINITION. Loads and stores: LD, ST, LDS, STS (R192 to R199), SLD (R174), the fences and the cache maintenance of
major 0x1B (R203 to R207), and the replies and acknowledgements of what is in flight (R34, R67, R283). -/

namespace Sys2Proof.Machine

/-! ## What every access of a lane shares -/

/-- A request of a lane, of a scope, as it is sent in a turn. -/
def Ctx.request (c : Ctx) (turn l : Nat) (va : DWord) (t : Target) (op : ReqOp) (reg : Nat) (acq : Bool) (sc : Nat)
    (attr : Option Attr) : Req :=
  { Req.plain (c.who l) t.pa t.dest op with
    pc := c.u.pc, va := va, pin := t.pin, reg := reg, acq := acq, sc := sc, batch := turn, attr := attr, asid := c.asid, sparse := t.sparse }

/-- The trip goes on where the access is done. -/
def Trip.andThen (r : Trip) (f : State → State) : Trip :=
  match r with
  | .go s => .go (f s)
  | r => r

/-- The lane goes on after its access (R131). -/
def Ctx.next (c : Ctx) (l : Nat) (s : State) : State := s.modThread (c.who l) fun t => t.advance c.lat

/-- The causes known before an access of n bytes leaves the core (R153): the windows, the ranges the home reserves, the
register blocks, and a lost peer without a live mirror (R73, R227, R337, R358, R369). Atomics reach no device, and on a
mirrored page the primary alone. The datum of cause 0x06 is the peer's number (R152).
DEDUCED (unsafe): notes/assumptions/46.md. -/
def State.earlyFault (s : State) (sup lat : Bool) (acc : Acc) (t : Target) (va : DWord) (n : Nat) : Option (Nat × DWord) :=
  match t.kind with
  | .window => some (5, va)
  | .local_ => if s.homeReserved t.pa n then some (5, va) else none
  | .device =>
    if acc == .update || (isBlockPa t.pa && (!sup || !lat || n != 8 || (blockAt t.pa).isNone)) then some (5, va) else none
  | .peer =>
    let dead := if acc == .update then s.peerState t.peer == 2
      else s.peerState t.peer == 2 && (s.servingPeer t.peer t.mirror).isNone
    if dead then some (6, d64 t.peer) else none

/-- The page of an address is a register block's (R337). -/
def State.blockPage (s : State) (c : Ctx) (acc : Acc) (va : DWord) : Bool :=
  match s.translate c.core c.asid c.u.sup va acc with
  | .ok (t, _) => t.kind == .device && isBlockPa t.pa
  | .error _ => false

/-- The translation and the early checks of an access, in the order of R153: its target, the old page's PA while that is
in move, and the state. A misaligned access to a register block has cause 0x05 (R337).
DEDUCED (unsafe): notes/assumptions/40.md.
DESIGN CHOICE (unsafe): notes/assumptions/45.md. -/
def State.aim (s : State) (c : Ctx) (acc : Acc) (va : DWord) (n : Nat) :
    Except (Nat × DWord) (Target × Option Nat × State) :=
  if va.toNat % n != 0 then .error (if s.blockPage c acc va then 5 else 3, va)
  else match s.translate c.core c.asid c.u.sup va acc with
    | .error x => .error (x, va)
    | .ok (t0, s1) =>
      let (t, moving) := s1.redirect t0
      match s1.earlyFault c.u.sup c.lat acc t va n with
      | some x => .error x
      | none => .ok (t, moving, s1)

/-- A request counted for sampling, and sent (R294). -/
def State.sendSampled (s : State) (core : Nat) (r : Req) : State :=
  let (s, tag) := s.sample core
  s.send { r with tagged := tag }
/-- A request counted for sampling, and performed at once.
DEDUCED (unsafe): notes/assumptions/23.md. -/
def State.doSampled (s : State) (core : Nat) (r : Req) : State :=
  let (s, tag) := s.sample core
  s.performReq { r with id := s.reqNo, tagged := tag }

/-- A request that ends in a fault before it leaves is counted too (R294). -/
def State.counted (s : State) (core : Nat) : State := (s.sample core).1
/-- A device access, counted, with its sample (R294). -/
def State.deviceSample (s : State) (core : Nat) (r : Req) : State :=
  let (s, tag) := s.sample core
  if tag then s.writeSample r.who r.pc r.va r.sampleKind .device 0 0 0 else s

/-! ## Loads -/

/-- A load of local memory: at once, or in flight where the pace has it so or its page is in move (R74). -/
def State.loadLocal (s : State) (c : Ctx) (t : Target) (moving : Option Nat) (r : Req) : Trip :=
  let s := s.lineEvent c.core t.die
  if moving.isSome || s.pace.late then .go (s.sendSampled c.core { r with atMove := moving }) else .go (s.doSampled c.core r)

/-- A load of peer memory (R66, R68, R73): from the thread's own entry, or at the home; a peer that is not up yet is
waited for (R362).
DEDUCED (unsafe): notes/assumptions/50.md. -/
def State.loadPeer (s : State) (c : Ctx) (l : Nat) (t : Target) (n : Nat) (sext : Bool) (lanes : List Nat) (r : Req) :
    Trip :=
  let w := c.who l
  let (own, part) := s.ownBytes w t.peer t.pa n
  match own with
  | some bs =>
    let (s, tag) := s.sample c.core
    .go ((s.deliver r n sext lanes bs).sampleReq { r with tagged := tag })
  | none =>
    if part then .stay (s.drainIf c.core fun e => e.owner == w && e.peer == t.peer && e.line == t.pa / 64)
    else if (s.servingPeer t.peer t.mirror).isNone then .block s
    else .go ((s.lineEvent c.core 6).sendSampled c.core r)

/-- A load by lane l to a register; for SLD `lanes` are those of Active(G) (R49, R196). A register block answers no SLD
(R337).
DEDUCED (unsafe): notes/assumptions/40.md.
DESIGN CHOICE (unsafe): notes/assumptions/45.md. -/
def State.loadTrip (s : State) (c : Ctx) (l : Nat) (t : Thread) (va : DWord) (n : Nat) (sext : Bool) (reg : Nat)
    (acq : Bool) (sc : Nat) (lanes : List Nat) : Trip :=
  match s.aim c .read va n with
  | .error (x, d) => .fault x d (s.counted c.core)
  | .ok (tg, moving, s1) =>
    if !lanes.isEmpty && tg.kind == .device && isBlockPa tg.pa then .fault 5 va (s.counted c.core)
    else match s1.bpFor (c.who l) t c.asid 1 va.toNat n with
    | some i => .brk i s1
    | none =>
      let behind := (if lanes.isEmpty then [l] else c.g.lanes).any fun k =>
        s1.loadWaits (c.who k) tg.dest.space tg.pa n || s1.guarded (c.who k) tg.dest.space tg.pa n
      let r := c.request s.turnNo l va tg (.load n sext lanes) reg acq sc none
      if behind then .stay s1
      else match tg.kind with
        | .local_ => s1.loadLocal c tg moving r
        | .peer => s1.loadPeer c l tg n sext lanes r
        | _ => match s1.deviceRead c.u.slot tg.pa n with
          | .ok (bs, s2) => .go ((s2.deliver r n sext lanes bs).deviceSample c.core r)
          | .error x => .fault x va (s.counted c.core)

/-- LD (R195, R196). -/
def execLd (f : FmtM) (s : State) : Host.Outcome State Fault Refusal :=
  memInstr (.ld f) s fun c l t s =>
    (s.loadTrip c l t (baseOf c.g t f.ub f.ba + f.off.signExtend 64) (2 ^ f.sz.toNat) f.sx f.t.toNat (f.ord == 1) f.sc.toNat
      []).andThen (c.next l)

/-! ## Stores -/

/-- A store of local memory: at once on the own die, unless the pace keeps it in flight; to another die it takes a unit of
UCIe credit and is performed when that die acknowledges it (R194, R283).
DEDUCED (unsafe): notes/assumptions/23.md. -/
def State.storeLocal (s : State) (c : Ctx) (l : Nat) (t : Target) (moving : Option Nat) (r : Req) : Trip :=
  let w := c.who l
  let ks := s.toll c.core t.dest
  if !s.canPay c.core ks then .block s
  else if ks.isEmpty && moving.isNone && !s.pace.late then
    if s.overlapOut w t.dest.space t.pa r.size || s.guarded w t.dest.space t.pa r.size then .stay s
    else .go ((s.lineEvent c.core t.die).doSampled c.core r)
  else .go (((s.raise c.core 0x07 c.die t.die 1).pay c.core ks).sendSampled c.core { r with atMove := moving, paid := ks })

/-- The drain of a line that an earlier lane of the same instruction filled is followed at once by the next lane's (R198). -/
def State.glueLine (s : State) (t : Target) : State :=
  let glue := fun (r : Req) =>
    if r.isDrain && r.dest.space == t.peer && r.pa / 64 == t.pa / 64 && r.batch == s.turnNo then { r with glue := true } else r
  { s with reqs := s.reqs.map glue }

/-- A new write-combining entry (R67): it needs a free entry and allowance, checked in one step.
DEDUCED (unsafe): notes/assumptions/51.md. -/
def State.allocate (s0 : State) (c : Ctx) (l : Nat) (t : Target) (cells : Memory) : Trip :=
  let s := s0.glueLine t
  let p := (s.servingPeer t.peer t.mirror).getD t.peer
  if s.alw c.core p == 0 || ((s.core c.core).entry t.peer (t.pa / 64)).isSome then .block s
  else
    let e : WcEntry := { peer := t.peer, mirror := t.mirror, line := t.pa / 64, bytes := [], owner := c.who l, age := 0,
                         turn := s.turnNo, leaving := false }
    .go ((s.modCore c.core fun x => { x with wc := x.wc ++ [e] }).merge c.core e cells)

/-- A relaxed store to peer memory (R67): an entry of a lower lane of the same instruction drains with its own line's next
(R198).
DEDUCED (unsafe): notes/assumptions/51.md. -/
def State.combine (s : State) (c : Ctx) (l : Nat) (t : Target) (cells : Memory) : Trip :=
  match (s.core c.core).entry t.peer (t.pa / 64) with
  | none => s.allocate c l t cells
  | some e =>
    if e.owner == c.who l then .go (s.merge c.core e cells)
    else (s.drainAs c.core e (e.turn == s.turnNo)).allocate c l t cells

/-- A release store to peer memory: one uncombined write, after the line's entry of another thread has drained (R67,
R197); it needs allowance (R36, R194, R283).
DEDUCED (unsafe): notes/assumptions/50.md. -/
def State.storePeer (s : State) (c : Ctx) (t : Target) (r : Req) : Trip :=
  let s := s.drainIf c.core fun e => e.peer == t.peer && e.line == t.pa / 64
  let p := (s.servingPeer t.peer t.mirror).getD t.peer
  let ks := s.toll c.core t.dest
  if s.alw c.core p == 0 || !s.canPay c.core ks || ((s.core c.core).entry t.peer (t.pa / 64)).isSome then .block s
  else .go ((s.pay c.core ks).sendSampled c.core { r with paid := ks })

/-- A store by lane l, a release in a scope or relaxed (R49, R196, R197). A relaxed store to a peer's page is one that would
combine, and so no eligible request (R294).
DESIGN CHOICE (unsafe): notes/assumptions/45.md. -/
def State.storeTrip (s : State) (c : Ctx) (l : Nat) (t : Thread) (va : DWord) (bs : List Byte) (rel : Bool) (sc : Nat) :
    Trip :=
  match s.aim c .write va bs.length with
  | .error (x, d) => .fault x d (if rel || x != 6 then s.counted c.core else s)
  | .ok (tg, moving, s1) =>
    let w := c.who l
    let cells := cellsAt tg.pa bs
    let go (s : State) : Trip :=
      match s.bpFor w t c.asid 2 va.toNat bs.length with
      | some i => .brk i s
      | none =>
        let r := { c.request s.turnNo l va tg (.write cells false) 0 false sc (if rel then some (s.carry w t) else none) with
          preds := if rel then s.before w t sc else s.live t.fences }
        match tg.kind with
        | .local_ => s.storeLocal c l tg moving r
        | .peer =>
          if rel then s.storePeer c tg r else if !r.preds.isEmpty then .stay s else s.combine c l tg cells
        | _ =>
          if !r.preds.isEmpty then .stay s
          else match if isBlockPa tg.pa then s.storeHeld c.u.slot tg.pa bs else none with
          | some w => .stay (s.drainOwner w)
          | none => match s.deviceWrite c.u.slot tg.pa bs with
            | .ok s => .go (s.deviceSample c.core r)
            | .error x => .fault x va (s.counted c.core)
    if rel then s1.releaseEarly w t go else if s1.storeWaits w then .stay s1 else go s1

/-- ST (R195, R196). -/
def execSt (f : FmtM) (s : State) : Host.Outcome State Fault Refusal :=
  memInstr (.st f) s fun c l t s =>
    (s.storeTrip c l t (baseOf c.g t f.ub f.ba + f.off.signExtend 64) (regBytes t f.t.toNat (2 ^ f.sz.toNat))
      (f.ord == 2) f.sc.toNat).andThen (c.next l)

/-! ## Scratchpad (R192, R199) -/

/-- The checks of a scratchpad access of n bytes (R192, R193). -/
def State.spadAim (s : State) (c : Ctx) (a : DWord) (n : Nat) : Except Nat (Nat × Nat) :=
  if a.toNat % n != 0 then .error 3 else s.spadCheck c.u.slot c.asid a n

/-- A request of a lane to a scratchpad. -/
def Ctx.spadReq (c : Ctx) (turn l : Nat) (a : DWord) (core off : Nat) (op : ReqOp) (reg : Nat) (acq : Bool) (sc : Nat) : Req :=
  { Req.plain (c.who l) off (.spad core) op with
    pc := c.u.pc, va := a, reg := reg, acq := acq, sc := sc, batch := turn, asid := c.asid }
/-- A scratchpad access: at once, or in flight where the pace has it so (R280, R401). -/
def State.spadGo (s : State) (r : Req) : Trip :=
  if s.pace.late then .go (s.send r) else .go (s.performWhole { r with id := s.reqNo })
/-- An access of a lane to [off, off + n) of a scratchpad waits: behind its own accesses to the bytes, a STAND's update of the
slot there (R210), or a release's earlier writes. -/
def State.spadWaits (s : State) (w : Who) (a : DWord) (core off n : Nat) : Bool :=
  s.slotAwaited w a n || (!s.pace.late && s.overlapOut w (128 + core) off n) || s.guarded w (128 + core) off n

/-- LDS (R199): of scratchpad, or on a latency core of the VA it names. -/
def execLds (f : FmtN) (s : State) : Host.Outcome State Fault Refusal :=
  memInstr (.lds f) s fun c l t s =>
    let a := baseOf c.g t f.ub f.ba
    let n := 2 ^ f.sz.toNat
    let w := c.who l
    (if c.lat then
        if s.slotAwaited w a n then .stay s else s.loadTrip c l t a n f.sx f.t.toNat (f.ord == 1) f.sc.toNat []
      else match s.spadAim c a n with
        | .error x => .fault x a s
        | .ok (core, off) =>
          if s.acqOut w || s.spadWaits w a core off n || s.loadWaits w (128 + core) off n then .stay s
          else s.spadGo (c.spadReq s.turnNo l a core off (.load n f.sx []) f.t.toNat (f.ord == 1) f.sc.toNat)).andThen
      (c.next l)

/-- STS (R199). -/
def execSts (f : FmtN) (s : State) : Host.Outcome State Fault Refusal :=
  memInstr (.sts f) s fun c l t s =>
    let a := baseOf c.g t f.ub f.ba
    let n := 2 ^ f.sz.toNat
    let bs := regBytes t f.t.toNat n
    let w := c.who l
    (if c.lat then s.storeTrip c l t a bs (f.ord == 2) f.sc.toNat
      else match s.spadAim c a n with
        | .error x => .fault x a s
        | .ok (core, off) =>
          let go (s : State) : Trip :=
            if s.spadWaits w a core off n then .stay s
            else s.spadGo { c.spadReq s.turnNo l a core off (.write (cellsAt off bs) false) 0 false f.sc.toNat with
              preds := if f.ord == 2 then s.before w t f.sc.toNat else s.live t.fences }
          if f.ord == 2 then s.releaseEarly w t go else if s.storeWaits w then .stay s else go s).andThen
      (c.next l)

/-! ## SLD (R174) -/

/-- The one load of a group, made by lane l: a fault in it is taken by every lane of Active(G), with the address as datum
(R174), a breakpoint by lane l alone (R381); the others stay at the SLD.
DEDUCED (unsafe): notes/assumptions/11.md. -/
def sldOnce (addr : Ctx → Thread → DWord) (d : Nat) (acq : Bool) (sc : Nat) : Ctx → State → State :=
  groupOnce fun c l t s =>
    match s.loadTrip c l t (addr c t) 8 false d acq sc c.lanes with
    | .go s => advanceAll c s
    | .stay s => s
    | .block s => each (fun k s => s.blockLane (c.who k)) c.lanes s
    | .fault x _ s => s.faultLanes c.u.slot c.lanes x 0 (addr c t) c.u.pc
    | .brk i s => s.takeBreak (c.who l) i c.u.pc

/-- SLD, register form.
DEDUCED (unsafe): notes/assumptions/11.md. -/
def execSld (f : FmtA) (s : State) : Host.Outcome State Fault Refusal :=
  issue (.sld f) s (sldOnce (fun c t =>
    src64 c.g t f.sA f.a + (if f.sB then c.g.sreg f.b.toNat else (t.reg f.b.toNat).signExtend 64))
    f.d.toNat (bitsOf f.c.toNat 4 3 == 1) (f.c.toNat % 8))

/-- SLD, immediate form.
DEDUCED (unsafe): notes/assumptions/11.md. -/
def execSldImm (f : FmtI) (s : State) : Host.Outcome State Fault Refusal :=
  issue (.sldImm f) s (sldOnce (fun c _ => c.g.sreg f.a.toNat + f.imm.signExtend 64) f.d.toNat false 0)

/-! ## Fences and cache maintenance (R203 to R207) -/

/-- FENCE (R204): every fence takes a cause owed (R70) and starts the drains; a releasing one waits for them, an
acquiring one for the lane's loads. In its scope what the lane's loads read before an acquiring one precedes its later accesses,
and what precedes a releasing one its later writes (R49). -/
def execFence (f : FmtN) (s : State) : Host.Outcome State Fault Refusal :=
  memInstr (.fence f) s fun c l t s =>
    let w := c.who l
    let sc := f.sc.toNat
    let after (s : State) (t : Thread) : Thread := if f.ord.getLsbD 0 then t.fenced s.past sc w.slot else t
    if f.ord == 3 then s.release w t fun s => s.goOn w (after s)
    else if f.ord == 2 then s.releaseEarly w t fun s => s.goOn w fun t => { t with fences := s.before w t sc }
    else match t.owed with
      | some p => .fault 6 (d64 p) (s.modThread w fun t => { t with owed := none })
      | none =>
        let s1 := s.drainOwner w
        if f.ord == 1 && s1.readsOut w then .stay s1 else s1.goOn w (after s1)

/-- PREF (R207): no architectural effect. -/
def execPref (f : FmtN) (s : State) : Host.Outcome State Fault Refusal :=
  regInstr (.pref f) s fun _ _ _ => {}

/-- The targets of the pages of [va, va + n) that translate for an access, where they have moved to (R74), each with its
length. -/
def State.rangeTargets (s : State) (core asid : Nat) (sup : Bool) (acc : Acc) (va n : Nat) : Nat → List (Target × Nat)
  | 0 => []
  | fuel + 1 =>
    if n == 0 then []
    else
      let k := min n (4096 - va % 4096)
      let rest := s.rangeTargets core asid sup acc (va + k) (n - k) fuel
      match s.translate core asid sup (d64 va) acc with
      | .ok (t, _) => ((s.redirect t).1, k) :: rest
      | .error _ => rest

/-- An entry for a peer line that overlaps a range of targets. -/
def WcEntry.inRange (e : WcEntry) (ts : List (Target × Nat)) : Bool :=
  ts.any fun x => x.1.kind == .peer && x.1.peer == e.peer && 64 * e.line < x.1.pa + x.2 && x.1.pa < 64 * e.line + 64

/-- CLEAN (R206): the lane's entries for peer lines of the range drain, and the lane blocks until the writes have reached
DRAM.
DEDUCED (safe): notes/assumptions/26.md. -/
def execClean (f : FmtN) (s : State) : Host.Outcome State Fault Refusal :=
  issue (.clean f) s (eachLane fun c l t s =>
    let w := c.who l
    let va := baseOf c.g t f.ub f.ba
    let n := (t.reg f.db.toNat).toNat
    let s := if !s.ownsEntry w then s
      else
        let ts := s.rangeTargets c.core c.asid c.u.sup .read va.toNat n (n / 4096 + 2)
        s.drainIf c.core fun e => e.owner == w && e.inRange ts
    s.blockIn w (.clean va n))

/-- IINV (R205): the lane blocks until the caches in scope have dropped the lines; a length of 0 has no effect.
DEDUCED (safe): notes/assumptions/26.md. -/
def execIinv (f : FmtN) (s : State) : Host.Outcome State Fault Refusal :=
  issue (.iinv f) s (eachLane fun c l t s =>
    let n := (t.reg f.db.toNat).toNat
    if n == 0 then c.next l s
    else s.blockIn (c.who l) (.iinv (baseOf c.g t f.ub f.ba) n f.sc.toNat))

/-- The instruction words of a range's lines dropped in the caches in scope. -/
def State.dropCode (s : State) (core sc : Nat) (ts : List (Target × Nat)) : State :=
  let hit (pa : Nat) : Bool := ts.any fun x =>
    x.1.kind == .local_ && pa / 64 * 64 < x.1.pa + x.2 && x.1.pa < pa / 64 * 64 + 64
  { s with cores := s.cores.map fun (k, c) =>
      (k, if inScope core sc k then { c with icache := c.icache.filter fun e => !hit e.1 } else c) }

/-- IINV_COMPLETE (R205, R75): the lane's stores are performed and every cache in scope has dropped the lines; the lane fences
locally and goes on. -/
def execIinvComplete (s : State) : Host.Outcome State Fault Refusal :=
  .next (match s.subject with
    | .lane l =>
      let w := laneWho l
      match s.group? w.slot, (s.thread? w).map Thread.run with
      | some g, some (.maint (.iinv va n sc)) =>
        if s.writesOut w then s
        else
        let core := coreOfSlot w.slot
        let idle := s.cores.all fun x => x.2.icache.isEmpty
        let ts := if idle then [] else
          s.rangeTargets core g.asid (isSup w.slot) .fetch va.toNat n (n / 4096 + 2)
        ((s.dropCode core sc ts).modCore core fun x => { x with icache := [] }).maintDone w
      | _, _ => s
    | _ => s)

/-- CLEAN_COMPLETE (R206): every write has reached DRAM; memory of the model is always current. -/
def execCleanComplete (s : State) : Host.Outcome State Fault Refusal :=
  .next (match s.subject with
    | .lane l =>
      let w := laneWho l
      match (s.thread? w).map Thread.run with
      | some (.maint (.clean _ _)) =>
        if s.writesOut w || (s.core (coreOfSlot w.slot)).wc.any (fun e => e.owner == w && e.leaving) then s else s.maintDone w
      | _ => s
    | _ => s)

/-! ## Replies and acknowledgements -/

/-- The requests that can be performed where they are going, with those that go together with them (R46, R67, R74, R198). -/
def State.arriving (s : State) (ok : Req → Bool) : List Req := s.reqs.filter fun r => ok r && (s.together r).isSome

/-- A load or atomic. -/
def Req.isFetch (r : Req) : Bool :=
  match r.op with
  | .load _ _ _ | .atomic _ _ _ _ _ _ => true
  | _ => false
/-- A STAND, an UNSTAND. -/
def Req.isStand (r : Req) : Bool :=
  match r.op with
  | .stand _ _ => true
  | _ => false
def Req.isUnstand (r : Req) : Bool :=
  match r.op with
  | .unstand _ => true
  | _ => false

/-- One of some requests, by a choice. -/
def pick {α : Type} (xs : List α) (i : Nat) : Option α := xs[i % (max 1 xs.length)]?

/-- The threads of a core blocked on allowance try again when credit returns or a destination is lost (R34, R36); a halt leaves
the blocks as they stand (R383).
DEDUCED (safe): notes/assumptions/49.md. -/
def State.retryAllowance (s : State) : State :=
  let wake := fun (m : Nat × Thread) => (m.1, if m.2.run == .allowance then { m.2 with run := Run.ready } else m.2)
  if s.frozen then s else { s with groups := s.groups.map fun x => (x.1, { x.2 with members := x.2.members.map wake }) }

/-- LOAD_REPLY (R34, R196, R201): a load or atomic is performed where it arrived and its data reach their register. -/
def execLoadReply (s : State) : Host.Outcome State Fault Refusal :=
  .next (match s.subject with
    | .idx i => match pick (s.arriving Req.isFetch) i with
      | some r => (s.performAll r).retryAllowance
      | none => s
    | _ => s)

/-- ACKNOWLEDGE (R67, R283): a drain or a far store is performed at its home, and its credit returns. -/
def execAcknowledge (s : State) : Host.Outcome State Fault Refusal :=
  .next (match s.subject with
    | .idx i => match pick (s.arriving Req.isWrite) i with
      | some r => (s.performAll r).retryAllowance
      | none => s
    | _ => s)

/-- WCAGE_EXPIRY (R67): an entry that is WCAGE cycles old drains.
DEDUCED (safe): notes/assumptions/75.md. -/
def execWcageExpiry (s : State) : Host.Outcome State Fault Refusal :=
  .next (match s.subject with
    | .coreIdx c i =>
      let k := coreIdKey c
      let lim := ((s.core k).reg 0x803).toNat
      match pick ((s.core k).wc.filter fun e => lim ≤ e.age && !e.leaving) i with
      | some e => s.drain k e
      | none => s
    | _ => s)

end Sys2Proof.Machine
end

