-- ==== Sys2Proof/Machine/Atomics.lean ====
section
/-! DEFINITION. Atomics: major 0x1A on global memory and major 0x1D on scratchpad (R200 to R202, R51, R71 to R73). -/

namespace Sys2Proof.Machine

/-- The operand of an atomic of n bytes: the first 8 bytes and, for 16, the others. -/
def atOperand (t : Thread) (i n : Nat) : DWord × DWord :=
  let bs := regBytes t i n
  (d64 (leVal (bs.take 8)), d64 (leVal (bs.drop 8)))

/-- An atomic at a home of this package (R194): on the own die at once, unless the pace or a page in move keeps it in flight; on
another die under a unit of UCIe credit (R283). -/
def State.atomicLocal (s : State) (c : Ctx) (l : Nat) (tg : Target) (moving : Option Nat) (r : Req) : Trip :=
  let w := c.who l
  let ks := s.toll c.core tg.dest
  if !s.canPay c.core ks then .block s
  else if ks.isEmpty && moving.isNone && !s.pace.late then
    if s.overlapOut w tg.dest.space tg.pa r.size || s.guarded w tg.dest.space tg.pa r.size then .stay s
    else .go ((s.lineEvent c.core tg.die).doSampled c.core r)
  else .go (((s.raise c.core 0x07 c.die tg.die 1).pay c.core ks).sendSampled c.core { r with atMove := moving, paid := ks })

/-- An atomic at a peer, the primary alone (R72): after the lane's entry for the line has drained (R201), with allowance toward
the peer (R36, R283).
DEDUCED (unsafe): notes/assumptions/50.md. -/
def State.atomicPeer (s : State) (c : Ctx) (l : Nat) (tg : Target) (r : Req) : Trip :=
  let s := s.drainIf c.core fun e => e.owner == c.who l && e.peer == tg.peer && e.line == tg.pa / 64
  let ks := s.toll c.core (.peer tg.peer none)
  if ((s.core c.core).entry tg.peer (tg.pa / 64)).any (fun e => e.owner == c.who l) then .stay s
  else if s.alw c.core tg.peer == 0 || !s.canPay c.core ks then .block s
  else .go ((s.pay c.core ks).sendSampled c.core { r with paid := ks })

/-- What an atomic's write waits for, as a store of its order does (R49): a release for the writes before it, in its scope. -/
def State.atomicOrder (s : State) (w : Who) (t : Thread) (rel : Bool) (go : State → Trip) : Trip :=
  if rel then s.release w t go
  else if s.storeWaits w || !(s.live t.fences).isEmpty then .stay s
  else go s

/-- A global atomic by lane l (R201); no atomic reaches a device (R194). -/
def State.atomicTrip (s : State) (c : Ctx) (l : Nat) (t : Thread) (aop : Nat) (f : FmtN) : Trip :=
  let n := 2 ^ f.sz.toNat
  let w := c.who l
  let va := baseOf c.g t f.ub f.ba
  match s.aim c .update va n with
  | .error (x, d) => .fault x d (s.counted c.core)
  | .ok (tg, moving, s1) =>
    let (b, b2) := atOperand t f.db.toNat n
    let (k, k2) := atOperand t f.dc.toNat n
    let rel := f.ord.getLsbD 1
    s1.atomicOrder w t rel fun s =>
      match s.bpFor w t c.asid 3 va.toNat n with
      | some i => .brk i s
      | none =>
        let r := c.request s.turnNo l va tg (.atomic aop n b k b2 k2) f.t.toNat (f.ord.getLsbD 0) f.sc.toNat
          (if rel then some (s.carry w t) else none)
        match tg.kind with
        | .peer => s.atomicPeer c l tg r
        | _ => s.atomicLocal c l tg moving r

/-- A scratchpad atomic by lane l (R192, R201), or the global one on a latency core. -/
def State.spadTrip (s : State) (c : Ctx) (l : Nat) (t : Thread) (aop : Nat) (f : FmtN) : Trip :=
  if c.lat then s.atomicTrip c l t aop f
  else
    let n := 2 ^ f.sz.toNat
    let w := c.who l
    let a := baseOf c.g t f.ub f.ba
    match s.spadAim c a n with
    | .error x => .fault x a s
    | .ok (core, off) =>
      let (b, b2) := atOperand t f.db.toNat n
      let (k, k2) := atOperand t f.dc.toNat n
      let r := c.spadReq s.turnNo l a core off (.atomic aop n b k b2 k2) f.t.toNat (f.ord.getLsbD 0) f.sc.toNat
      s.atomicOrder w t (f.ord.getLsbD 1) fun s => if s.spadWaits w a core off n then .stay s else s.spadGo r

/-- AADD (R200): old + b. -/
def execAadd (f : FmtN) (s : State) : Host.Outcome State Fault Refusal :=
  memInstr (.aadd f) s fun c l t s => (s.atomicTrip c l t 0 f).andThen (c.next l)
/-- AAND (R200): old & b. -/
def execAand (f : FmtN) (s : State) : Host.Outcome State Fault Refusal :=
  memInstr (.aand f) s fun c l t s => (s.atomicTrip c l t 1 f).andThen (c.next l)
/-- AOR (R200): old | b. -/
def execAor (f : FmtN) (s : State) : Host.Outcome State Fault Refusal :=
  memInstr (.aor f) s fun c l t s => (s.atomicTrip c l t 2 f).andThen (c.next l)
/-- AXOR (R200): old ^ b. -/
def execAxor (f : FmtN) (s : State) : Host.Outcome State Fault Refusal :=
  memInstr (.axor f) s fun c l t s => (s.atomicTrip c l t 3 f).andThen (c.next l)
/-- AMIN (R200): the lesser, signed. -/
def execAmin (f : FmtN) (s : State) : Host.Outcome State Fault Refusal :=
  memInstr (.amin f) s fun c l t s => (s.atomicTrip c l t 4 f).andThen (c.next l)
/-- AMAX (R200): the greater, signed. -/
def execAmax (f : FmtN) (s : State) : Host.Outcome State Fault Refusal :=
  memInstr (.amax f) s fun c l t s => (s.atomicTrip c l t 5 f).andThen (c.next l)
/-- AMINN (R200): the lesser, natural. -/
def execAminn (f : FmtN) (s : State) : Host.Outcome State Fault Refusal :=
  memInstr (.aminn f) s fun c l t s => (s.atomicTrip c l t 6 f).andThen (c.next l)
/-- AMAXN (R200): the greater, natural. -/
def execAmaxn (f : FmtN) (s : State) : Host.Outcome State Fault Refusal :=
  memInstr (.amaxn f) s fun c l t s => (s.atomicTrip c l t 7 f).andThen (c.next l)
/-- ASWAP (R200): b. -/
def execAswap (f : FmtN) (s : State) : Host.Outcome State Fault Refusal :=
  memInstr (.aswap f) s fun c l t s => (s.atomicTrip c l t 8 f).andThen (c.next l)
/-- ACAS (R200): b where old is c. -/
def execAcas (f : FmtN) (s : State) : Host.Outcome State Fault Refusal :=
  memInstr (.acas f) s fun c l t s => (s.atomicTrip c l t 9 f).andThen (c.next l)
/-- AFADD (R200): the sum of R202. -/
def execAfadd (f : FmtN) (s : State) : Host.Outcome State Fault Refusal :=
  memInstr (.afadd f) s fun c l t s => (s.atomicTrip c l t 10 f).andThen (c.next l)

/-- AADD.spad (R200): old + b. -/
def execAaddSpad (f : FmtN) (s : State) : Host.Outcome State Fault Refusal :=
  memInstr (.aaddSpad f) s fun c l t s => (s.spadTrip c l t 0 f).andThen (c.next l)
/-- AAND.spad (R200): old & b. -/
def execAandSpad (f : FmtN) (s : State) : Host.Outcome State Fault Refusal :=
  memInstr (.aandSpad f) s fun c l t s => (s.spadTrip c l t 1 f).andThen (c.next l)
/-- AOR.spad (R200): old | b. -/
def execAorSpad (f : FmtN) (s : State) : Host.Outcome State Fault Refusal :=
  memInstr (.aorSpad f) s fun c l t s => (s.spadTrip c l t 2 f).andThen (c.next l)
/-- AXOR.spad (R200): old ^ b. -/
def execAxorSpad (f : FmtN) (s : State) : Host.Outcome State Fault Refusal :=
  memInstr (.axorSpad f) s fun c l t s => (s.spadTrip c l t 3 f).andThen (c.next l)
/-- AMIN.spad (R200): the lesser, signed. -/
def execAminSpad (f : FmtN) (s : State) : Host.Outcome State Fault Refusal :=
  memInstr (.aminSpad f) s fun c l t s => (s.spadTrip c l t 4 f).andThen (c.next l)
/-- AMAX.spad (R200): the greater, signed. -/
def execAmaxSpad (f : FmtN) (s : State) : Host.Outcome State Fault Refusal :=
  memInstr (.amaxSpad f) s fun c l t s => (s.spadTrip c l t 5 f).andThen (c.next l)
/-- AMINN.spad (R200): the lesser, natural. -/
def execAminnSpad (f : FmtN) (s : State) : Host.Outcome State Fault Refusal :=
  memInstr (.aminnSpad f) s fun c l t s => (s.spadTrip c l t 6 f).andThen (c.next l)
/-- AMAXN.spad (R200): the greater, natural. -/
def execAmaxnSpad (f : FmtN) (s : State) : Host.Outcome State Fault Refusal :=
  memInstr (.amaxnSpad f) s fun c l t s => (s.spadTrip c l t 7 f).andThen (c.next l)
/-- ASWAP.spad (R200): b. -/
def execAswapSpad (f : FmtN) (s : State) : Host.Outcome State Fault Refusal :=
  memInstr (.aswapSpad f) s fun c l t s => (s.spadTrip c l t 8 f).andThen (c.next l)
/-- ACAS.spad (R200): b where old is c. -/
def execAcasSpad (f : FmtN) (s : State) : Host.Outcome State Fault Refusal :=
  memInstr (.acasSpad f) s fun c l t s => (s.spadTrip c l t 9 f).andThen (c.next l)
/-- AFADD.spad (R200): the sum of R202. -/
def execAfaddSpad (f : FmtN) (s : State) : Host.Outcome State Fault Refusal :=
  memInstr (.afaddSpad f) s fun c l t s => (s.spadTrip c l t 10 f).andThen (c.next l)

end Sys2Proof.Machine
end

