-- ==== Sys2Proof/Machine/Events.lean ====
section
/-! DEFINITION. Events of the scheduler, of traps and faults: R154's boundary, R17, R32, R35, R39, R40, R137, R141,
R349, R350, R401; and the two rows of words that name no instruction (R115, R116). -/

namespace Sys2Proof.Machine

/-! ## Words that name no instruction -/

/-- Every issuing lane takes cause 0x01 with a detail, the word its datum (R97, R152). -/
def wordFault (d : Detail) (s : State) : Host.Outcome State Fault Refusal :=
  match s.issuer with
  | none => .fault .noIssuer
  | some u => match s.group? u.slot with
    | none => .fault .noIssuer
    | some g => .next (s.faultLanes u.slot (g.activeAt u.pc) 1 d.code u.word u.pc)

/-- A word of a fallow major (R116). -/
def execFallowInstruction (s : State) : Host.Outcome State Fault Refusal := wordFault .fallow s
/-- A word of a permanently illegal or reserved major (R115). -/
def execIllegalMajor (s : State) : Host.Outcome State Fault Refusal := wordFault .undefined s

/-! ## Abandoned waits -/

/-- A wait, hold, block or migration wait of a thread abandoned (R32, R39). -/
def State.abandonWait (s : State) (w : Who) : State := s.modThread w fun t => t.abandon (isLatency w.slot)

/-! ## Signals (R32, R352) -/

/-- A thread with a signal pending, at its boundary: on a SIMT core it departs to the latency pool with the PC of its next
instruction; on a latency core it enters supervisor mode. The entry's cause word is 0x12, the cause R152 names for a signal's
record.
DEDUCED (unsafe): notes/assumptions/81.md. -/
def State.takeSignal (s : State) (w : Who) (t : Thread) (n : Nat) : Trip :=
  if isLatency w.slot then
    .go ((s.modThread w fun t => { t with signal := none }).supervisorEntry w.slot 2 (causeWord 0x12 0) (d64 n) t.pc 0 false)
  else s.departReady w t 8 t

/-- SIGNAL: what the thread waits in is abandoned; a parked thread's stays pending, with a record (R349).
DEDUCED (unsafe): notes/assumptions/56.md. -/
def execSignal (s : State) : Host.Outcome State Fault Refusal :=
  .next (match s.subject with
    | .signal l n =>
      let w := laneWho l
      match s.group? w.slot with
      | none => s
      | some g => match lookup w.lane g.members with
        | none => s
        | some t =>
          let s := s.modThread w fun t => { t with signal := some (t.signal.getD n) }
          if t.run.isParked then
            s.queueFault (dieOfSlot w.slot) (s.recordOf w t g.asid (causeWord 0x12 0) t.pc (d64 n) 0)
          else s.abandonWait w
    | _ => s)

/-! ## The timer (R39) -/

/-- TIMER_EXPIRY (R39). No cycle and no instruction passes an expiry by: `Group.cycle` and `State.settleSlot` let it ring too. -/
def execTimerExpiry (s : State) : Host.Outcome State Fault Refusal :=
  .next (match s.subject with
    | .slot x =>
      let slot := slotIdKey x
      s.modGroup slot fun g => g.ring (isLatency slot)
    | _ => s)

/-! ## The boundary of R154 -/

/-- The event that a lane of a subset takes in place of its instruction: a deferred fault, a signal, an execute
breakpoint, a numeric-threshold trap or a timer trap, the last two not in a handler.
DEDUCED (unsafe): notes/assumptions/55.md. -/
def State.boundaryOf (s : State) (w : Who) (g : Group) (t : Thread) : Option Trip :=
  if t.deferred.isSome then some (.go (s.takeDeferred w))
  else match t.signal with
    | some n => some (s.takeSignal w t n)
    | none => match s.bpFor w t g.asid 0 t.pc.toNat 1 with
      | some i => some (.brk i s)
      | none =>
        if t.inHandler then none
        else match t.numTraps with
          | k :: ks => some (.go ((s.modThread w fun t => { t with numTraps := ks }).takeTrap w 0x0F (d64 k) t.pc))
          | [] => t.timer.map fun v => .go ((s.modThread w fun t => { t with timer := none }).takeTrap w 0x0E v t.pc)

/-- The boundary events of some lanes, and whether any lane took one. -/
def State.boundary (s : State) (slot : Nat) (g : Group) (lanes : List Nat) : Bool × State :=
  lanes.foldl (fun b l =>
    match (b.2.thread? ⟨slot, l⟩).bind fun t => (b.2.boundaryOf ⟨slot, l⟩ g t).map fun r => (t, r) with
    | none => b
    | some (t, .stay s) => (true, if t.run == .ready then s else b.2)
    | some (t, r) => (true, State.endTrip ⟨slot, l⟩ t.pc r)) (false, s)

/-- A thread between two instructions.
DEDUCED (unsafe): notes/assumptions/55.md. -/
def Run.atBoundary : Run → Bool
  | .ready | .held _ | .allowance => true
  | _ => false

/-- DEFERRED_FAULT (R401): the fault parks the thread at its boundary, or traps on a latency core. -/
def execDeferredFault (s : State) : Host.Outcome State Fault Refusal :=
  .next (match s.subject with
    | .lane l => if (s.thread? (laneWho l)).any fun t => t.run.atBoundary then s.takeDeferred (laneWho l) else s
    | _ => s)

/-- QUEUE_FAULT_RECORD (R349): the first held record of a die is appended when its ring has room. -/
def execQueueFaultRecord (s : State) : Host.Outcome State Fault Refusal :=
  .next (match s.subject with
    | .die d => match (s.die d).held with
      | r :: rs => if s.faultRoom d then ((s.modDie d fun x => { x with held := rs }).faultAppend d r).getD s else s
      | [] => s
    | _ => s)

/-! ## Expiries -/

/-- HOLDLIM_EXPIRY (R17): the members held at a meeting value go on once the earliest has been held for HOLDLIM cycles;
they wake with no predecessor (R290).
DEDUCED (safe): notes/assumptions/75.md. -/
def execHoldlimExpiry (s : State) : Host.Outcome State Fault Refusal :=
  .next (match s.subject with
    | .meet x m =>
      let slot := slotIdKey x
      let lim := ((s.core (coreOfSlot slot)).reg 0x800).toNat
      if (s.group? slot).any fun g => (g.heldAt m).any fun h => lim ≤ h.2.run.cycles then s.releaseHold slot m none none
      else s
    | _ => s)

/-- PRELIM_EXPIRY (R40): a request not taken at a LIVE is taken, and the group will be saved whole.
DEDUCED (safe): notes/assumptions/75.md. -/
def execPrelimExpiry (s : State) : Host.Outcome State Fault Refusal :=
  .next (match s.subject with
    | .slot x =>
      let slot := slotIdKey x
      let lim := ((s.core (coreOfSlot slot)).reg 0x802).toNat
      s.modGroup slot fun g => { g with preempt := g.preempt.map fun p =>
        if p.taken || p.cycles < lim then p else { p with taken := true, record := none, lanes := [] } }
    | _ => s)

/-- SLEEP_TIMEOUT (R137): the SLEEP writes 0.
DEDUCED (safe): notes/assumptions/75.md. -/
def execSleepTimeout (s : State) : Host.Outcome State Fault Refusal :=
  .next (match s.subject with
    | .lane l => match (s.thread? (laneWho l)).bind fun t => t.run.asleep with
      | some (limit, d, n) =>
        if limit != 0 && limit ≤ n then s.finishWait (laneWho l) [(d, 0)] none true n 5 none else s
      | none => s
    | _ => s)

/-- WAITV_REREAD (R141): the word of a waiting WAITV is read again. -/
def execWaitvReread (s : State) : Host.Outcome State Fault Refusal :=
  .next (match s.subject with
    | .lane l => match (s.thread? (laneWho l)).map Thread.run with
      | some (.waiting (.waitv _ _ _ _ _ _ _) _ _) => s.rePoll (laneWho l)
      | _ => s
    | _ => s)

/-! ## The active set (R33 to R35) -/

/-- A group has a cause of R34 to leave the active set: it has nothing to issue, and a subset waits for a register, or every
member waits, is held, is blocked on allowance or is parked. One that is being saved, or whose lanes wait for a maintenance
instruction, has none. -/
def State.idle (s : State) (slot : Nat) (g : Group) : Bool :=
  !s.groupReady slot g && !(g.preempt.any (·.taken)) &&
  (g.members.any (fun m => m.2.canIssue) || g.members.all fun m => match m.2.run with
    | .maint _ => false
    | _ => true)
/-- A group is swapped out when R34 has a cause for it; in reporting mode a group blocked on allowance stays, its instruction
being at issue (R36). -/
def State.swapOut (s : State) (slot : Nat) : State :=
  match s.group? slot with
  | none => s
  | some g =>
    if !g.active || !s.idle slot g then s
    else (s.setGroup slot { g with active := false, since := 0, issued := [] }).raise (coreOfSlot slot) 0x04 7 7 1

/-- The priority class of a group: the highest among its members (R35). -/
def Group.priority (g : Group) : Nat := g.members.foldl (fun n m => max n m.2.prio) 0

/-- The groups of a quadrant of a core. -/
def State.quadrant (s : State) (core q : Nat) : List (Nat × Group) :=
  s.groups.filter fun g => coreOfSlot g.1 == core && slotOf g.1 % 4 == q

/-- The one of some groups that `before` puts first; of two that it does not tell apart, the one in the lower slot.
DESIGN CHOICE (unsafe): notes/assumptions/81.md. -/
def firstBy (before : Group → Group → Bool) (gs : List (Nat × Group)) : Option (Nat × Group) :=
  gs.foldl (fun (b : Option (Nat × Group)) g => match b with
    | none => some g
    | some x => if before g.2 x.2 then some g else some x) none

/-- A group has been pending for a quarter of AGEMAX (R35). -/
def State.aged (s : State) (core : Nat) (g : Group) : Bool := ((s.core core).reg 0x801).toNat / 4 ≤ g.since

/-- The pending group that a free slot of a quadrant takes: an aged one, the oldest first, else the highest class, the
oldest first (R35), where R35 gives no rule for two of one age the one in the lower slot.
DESIGN CHOICE (unsafe): notes/assumptions/81.md. -/
def State.nextPending (s : State) (core q : Nat) : Option (Nat × Group) :=
  let ready := (s.quadrant core q).filter fun g => !g.2.active && s.groupReady g.1 g.2
  match firstBy (fun a b => b.since < a.since) (ready.filter fun g => s.aged core g.2) with
  | some g => some g
  | none => firstBy (fun a b => b.priority < a.priority || (a.priority == b.priority && b.since < a.since)) ready

/-- A group enters the active set. -/
def State.activate (s : State) (slot : Nat) : State :=
  s.modGroup slot fun g => { g with active := true, since := 0, issued := [] }

/-- Ready pending groups promoted while a quadrant has fewer than eight active ones. -/
def State.promote (s : State) (core q : Nat) : Nat → State
  | 0 => s
  | fuel + 1 =>
    if 8 ≤ ((s.quadrant core q).filter fun g => g.2.active).length then s
    else match s.nextPending core q with
      | none => s
      | some g => (s.activate g.1).promote core q fuel

/-- The active sets of a SIMT core brought up to date (R34, R35). -/
def State.schedule (s : State) (core : Nat) : State :=
  if 4 ≤ dieOfCore core then s
  else
    let s := each (fun (g : Nat × Group) s => s.swapOut g.1) (s.groupsOn core) s
    each (fun q s => s.promote core q 8) (List.range 4) s

/-- Every ready subset of a group has issued since its promotion. -/
def State.allIssued (s : State) (slot : Nat) (g : Group) : Bool :=
  g.members.all fun m => !m.2.canIssue || s.stalled slot g m.1 m.2 ||
    (g.issued.any fun l => (g.activeAt m.2.pc).contains l)

/-- AGEING (R35): an aged group of the subject's quadrant takes a free slot, or that of the group active longest among
those that have issued each ready subset since their promotion.
DEDUCED (safe): notes/assumptions/75.md. -/
def execAgeing (s : State) : Host.Outcome State Fault Refusal :=
  .next (match s.subject with
    | .slot x =>
      let slot := slotIdKey x
      let core := coreOfSlot slot
      let gs := s.quadrant core (slotOf slot % 4)
      let aged := gs.filter fun g => !g.2.active && s.groupReady g.1 g.2 && s.aged core g.2
      let act := gs.filter fun g => g.2.active
      if isLatency slot then s
      else match firstBy (fun a b => b.since < a.since) aged with
        | none => s
        | some g =>
          if act.length < 8 then s.activate g.1
          else match firstBy (fun a b => b.since < a.since) (act.filter fun x => s.allIssued x.1 x.2) with
            | none => s
            | some out =>
              ((s.modGroup out.1 fun y => { y with active := false, since := 0, issued := [] }).raise core 0x04 7 7 1).activate
                g.1
    | _ => s)

/-! ## Supervisor entries (R350, R352) -/

/-- The thread a hardware thread runs in user mode can be entered upon: nothing of it is in flight.
DEDUCED (unsafe): notes/assumptions/21.md.
DEDUCED (safe): notes/assumptions/47.md. -/
def State.enterable (s : State) (slot : Nat) : Bool :=
  (s.hwThread slot).released && !(s.hwThread slot).sup && !(s.core (coreOfSlot slot)).stopped &&
  !s.readsOut ⟨userSlot slot, 0⟩

/-- An interrupt is raised for a hardware thread: by a die whose INTPEND is not zero and whose INTTGT names it (R338), or by a
root port (R336).
DEDUCED (unsafe): notes/assumptions/41.md. -/
def State.raised (s : State) (slot : Nat) : Bool :=
  s.ctrl.msi.contains (userSlot slot) ||
  (List.range 6).any fun d => s.intPend d != 0 && (s.dreg d 0x0C0).setWidth 32 == s.agentOf ⟨userSlot slot, 0⟩

/-- An interrupt delivered to a hardware thread that does not mask it: an entry of kind 3, whose frame holds the next
instruction, or the one that waited.
DEDUCED (unsafe): notes/assumptions/21.md. -/
def State.interrupt (s : State) (slot : Nat) : State :=
  if !s.enterable slot || (s.hwThread slot).masked || !s.raised slot then s
  else
    let w : Who := ⟨userSlot slot, 0⟩
    let s := (s.modCtrl fun c => { c with msi := c.msi.filter (· != userSlot slot) }).abandonWait w
    let pc := ((s.thread? w).map fun t => t.pc).getD 0
    s.supervisorEntry w.slot 3 0 0 pc 0 false

/-- INTERRUPT (R350).
DEDUCED (unsafe): notes/assumptions/41.md. -/
def execInterrupt (s : State) : Host.Outcome State Fault Refusal :=
  .next (match s.subject with
    | .slot x => if isLatency (slotIdKey x) then s.interrupt (slotIdKey x) else s
    | _ => s)

/-- SUPERVISOR_ENTRY (R350): the entry of a kind whose reason is pending: a system call of a loaded frame, whose bit the
operating system clears (R351), a deferred fault, a signal, an interrupt. -/
def execSupervisorEntry (s : State) : Host.Outcome State Fault Refusal :=
  .next (match s.subject with
    | .entry h k =>
      let slot := slotIdKey h
      let w : Who := ⟨userSlot slot, 0⟩
      match s.thread? w with
      | none => if k == 3 then s.interrupt slot else s
      | some t =>
        if k == 3 then s.interrupt slot
        else if !s.enterable slot then s
        else if k == 0 then
          if t.sysPend then s.supervisorEntry w.slot 0 0 0 t.pc 0 false else s
        else if k == 1 then (if t.run.atBoundary then s.takeDeferred w else s)
        else match t.signal with
          | some n => match (s.abandonWait w).takeSignal w t n with
            | .go s => s
            | _ => s
          | none => s
    | _ => s)

end Sys2Proof.Machine
end

