-- ==== Sys2Proof/Machine/Standing.lean ====
section
/-! DEFINITION. Standing loads (R61 to R65, R208 to R213, R317, R358): STAND and UNSTAND, the home's replies and
acknowledgements, pushes and their delivery, and the requests of other packages at the homes of this one. -/

namespace Sys2Proof.Machine

/-! ## Slots (R208) -/

/-- A push delivered: VALUE and PUSHES, OVR where it makes good a drop, the other flags as they are (R208). -/
def State.pushSlot (s : State) (core asid : Nat) (p : Push) : Eng Unit :=
  match s.slotRead core p.owner asid p.slot with
  | .ok old s => s.slotWrite core p.owner asid p.slot
      (slotBytes p.value p.count (field old 12 4 % 16 ||| (if p.ovr then flOvr else 0))) p.attr
  | .wait => .wait
  | .fail c => .fail c

/-! ## STAND and UNSTAND -/

/-- The check of a slot address (R192, R193, R213). -/
def State.slotCheck (s : State) (c : Ctx) (a : DWord) : Option Nat :=
  if a.toNat % 16 != 0 then some 3
  else if c.lat then match s.translate c.core c.asid c.u.sup a .update with
    | .error x => some x
    | .ok (t, _) => if t.kind == .device || t.kind == .window then some 5 else none
  else match s.spadCheck c.u.slot c.asid a 16 with
    | .error x => some x
    | .ok _ => none

/-- The group whose region holds a slot; on a latency core the hardware thread's (R213). -/
def State.slotOwner (s : State) (c : Ctx) (a : DWord) : Nat :=
  if c.lat then c.u.slot
  else match spadDecode c.core a with
    | .error _ => c.u.slot
    | .ok (k, off) => ((s.groups.find? fun x => s.inRegion k off 16 fun g _ => g == x.1).map fun x => x.1).getD c.u.slot

/-- Two slot addresses of a core name one slot: on a latency core, global VAs, in one address space (R213). -/
def sameSlot (core asid asid' : Nat) (a b : DWord) : Bool := a == b && (dieOfCore core < 4 || asid == asid')
/-- A core's open subscription of a slot. -/
def State.openSub (s : State) (core asid : Nat) (a : DWord) : Option Sub :=
  (s.core core).subs.find? fun u => sameSlot core u.asid asid u.slot a
/-- A STAND or UNSTAND of a core to a slot is awaiting its answer. -/
def State.awaiting (s : State) (core asid : Nat) (a : DWord) (stand : Bool) : Bool :=
  s.reqs.any fun r => coreOfSlot r.who.slot == core && match r.op with
    | .stand x _ => stand && sameSlot core r.asid asid x a
    | .unstand x => !stand && sameSlot core r.asid asid x a
    | _ => false

/-- STAND's request once nothing stands before it (R210, step 4); own bytes of the location reach the home first (R46). A
subscription is the primary's alone: with a lost primary and a live mirror, where R73 names no STAND, the lane waits on
allowance.
DEDUCED (unsafe): notes/assumptions/81.md. -/
def State.standGo (s : State) (c : Ctx) (l : Nat) (slot va : DWord) (acq : Bool) (sc g : Nat) (tg : Target)
    (moving : Option Nat) : Trip :=
  let w := c.who l
  let r := { c.request s.turnNo l va tg (.stand slot g) 0 acq sc none with atMove := moving }
  if s.loadWaits w tg.dest.space tg.pa 8 then .stay s
  else if tg.kind == .peer && (s.ownBytes w tg.peer tg.pa 8).2 then
    .stay (s.drainIf c.core fun e => e.owner == w && e.peer == tg.peer && e.line == tg.pa / 64)
  else if tg.kind == .peer && (s.servingPeer tg.peer none).isNone then .block s
  else s.send r |>.goOn w id

/-- One lane's STAND (R210): the checks, the wait for an outstanding STAND, the UNSTAND of an open subscription, or the wait for a
lost one's update (R317), then the request.
DEDUCED (unsafe): notes/assumptions/51.md. -/
def State.standTrip (s : State) (c : Ctx) (l : Nat) (t : Thread) (f : FmtN) : Trip :=
  let w := c.who l
  let slot := t.pair f.t.toNat
  let va := baseOf c.g t f.ub f.ba
  let bad := (s.slotCheck c slot).map fun x => (x, slot)
  match s.aim c .read va 8 with
  | .error e => match firstCause bad (some e) with
    | some (x, d) => .fault x d s
    | none => .stay s
  | .ok (tg, moving, s1) =>
    let dev := if tg.kind == .device then some (5, va) else none
    match firstCause bad dev with
    | some (x, d) => .fault x d s
    | none => match s1.bpFor w t c.asid 3 va.toNat 8 with
      | some i => .brk i s1
      | none =>
        if s1.awaiting c.core c.asid slot true then .stay s1
        else match s1.openSub c.core c.asid slot with
          | some u => .stay (if u.lost || s1.awaiting c.core c.asid slot false then s1 else s1.sendUnstand w u)
          | none => s1.standGo c l slot va (f.ord == 1) f.sc.toNat f.db.toNat tg moving

/-- STAND (R209, R210). -/
def execStand (f : FmtN) (s : State) : Host.Outcome State Fault Refusal :=
  memInstr (.stand f) s fun c l t s => s.standTrip c l t f

/-- UNSTAND (R212): it never blocks, and a slot with no open subscription, a lost one or one pending is left alone. -/
def execUnstand (f : FmtN) (s : State) : Host.Outcome State Fault Refusal :=
  memInstr (.unstand f) s fun c l t s =>
    let slot := t.pair f.t.toNat
    match s.slotCheck c slot with
    | some x => .fault x slot s
    | none => match s.openSub c.core c.asid slot with
      | some u => (if u.lost || s.awaiting c.core c.asid slot false then s else s.sendUnstand (c.who l) u).goOn (c.who l) id
      | none => s.goOn (c.who l) id

/-! ## The home (R211, R358) -/

/-- A home has an entry for one more subscriber of a location: 65,536 locations, 68 subscribers each; none while HTEN is 0 or
the pool has no free overflow block (a location with more than four subscribers holds one). -/
def State.homeHasRoom (s : State) (d pa : Nat) : Bool :=
  let ls := (s.die d).home
  let blocks := (ls.filter fun l => 4 < l.subs.length).length
  (s.dreg d 0x090).getLsbD 0 && blocks < (s.dreg d 0x088).toNat &&
  match ls.find? fun l => l.pa == pa with
  | some l => l.subs.length < 68
  | none => ls.length < 65536

/-- A subscriber entered at a home. -/
def Die.register (d : Die) (pa : Nat) (u : Subscriber) : Die :=
  if d.home.any fun l => l.pa == pa then
    let add := fun (l : HomeLoc) => if l.pa == pa then { l with subs := l.subs ++ [u] } else l
    { d with home := d.home.map add }
  else { d with home := d.home ++ [⟨pa, [u]⟩] }

/-- A subscriber's entry freed; a location without subscribers leaves the table. -/
def Die.unregister (d : Die) (pa core : Nat) (slot : DWord) (no : Nat) : Die :=
  let cut := fun (l : HomeLoc) =>
    if l.pa == pa then { l with subs := l.subs.filter fun u => !(u.core == core && u.slot == slot && u.no == no) } else l
  { d with home := (d.home.map cut).filter fun l => !l.subs.isEmpty }

/-- Whether a STAND is registered (R210). Another package's table is not this package's state: its answer is a free
choice (notes/assumptions/3.md). -/
def State.registers (s : State) (core : Nat) (r : Req) : Bool :=
  (s.core core).subs.length < 4096 && match r.dest with
  | .unit u => s.homeHasRoom (unitDie u) r.pa
  | .spad _ => false
  | .peer p _ => Config.freeChoice s.stamp % 2 == 0 &&
      ((((s.die (peerHome p)).home.find? fun l => l.pa == r.pa).map fun l => l.subs.length).getD 0) < 68

/-- The lane's status guard (R210).
DEDUCED (unsafe): notes/assumptions/54.md. -/
def State.standGuard (s : State) (w : Who) (g : Nat) (b : Bool) : State :=
  s.modThread w fun t => (t.setGuard g b).mark (if g == 0 then [] else [1024 + g])

/-- A STAND performed at its home: the read, with its place in the thread's order (R46, R49), and the registration in one step,
the slot's update and the guard (R61).
DEDUCED (unsafe): notes/assumptions/54.md. -/
def State.standAt (s : State) (r : Req) (slot : DWord) (g : Nat) : State :=
  let core := coreOfSlot r.who.slot
  let s0 := s.dropReq r.id
  let failed (c : Nat) (d : DWord) : State :=
    (s.failReq r c d).standGuard r.who g (Config.freeChoice s.stamp % 2 == 0)
  let answer (s1 : State) (bs : List Byte) (home : Nat) : State :=
    match s1.group? r.who.slot with
    | none => s1
    | some grp =>
      let ok := s1.registers core r
      let owner := s1.slotOwner ⟨⟨r.who.slot, false, r.pc, 0, ⟨false, 0⟩⟩, grp, []⟩ slot
      match s1.slotWrite core owner grp.asid slot (slotBytes (d64 (leVal bs)) 0 (if ok then flSub else 0)) none with
      | .wait => s
      | .fail _ => s1.standGuard r.who g false
      | .ok _ s2 =>
        let s3 := if !ok then s2
          else
            let no := s2.freeNo + 1
            let u : Subscriber := { core := core, slot := slot, owner := owner, count := 0, owed := false, owedAt := 0,
                                    susp := false, no := no }
            let sub : Sub := { slot := slot, owner := owner, asid := grp.asid, pa := r.pa, dest := r.dest, va := r.va, no := no }
            (s2.modDie home fun d => d.register r.pa u).modCore core fun c => { c with subs := c.subs ++ [sub] }
        (s3.standGuard r.who g ok).bump
  match r.dest with
  | .unit u =>
    let t := r.target u
    match s.memFault t 8 true with
    | some c => failed c r.va
    | none =>
      let (bs, s1) := s0.homeRead t 8 (dieOfCore core)
      answer (s1.seen r bs).2 bs t.die
  | .spad _ => s
  | .peer p m => match s.peerRead p m r.pa 8 with
    | none => failed 6 (d64 p)
    | some bs => answer (s0.seen r bs).2 bs (peerHome p)

/-- STAND_REPLY (R210); those of one instruction's lanes to one location go together (R198). -/
def execStandReply (s : State) : Host.Outcome State Fault Refusal :=
  .next (match s.subject with
    | .idx i => match pick (s.arriving Req.isStand) i with
      | some r => each (fun x s => match x.op with
        | .stand slot g => s.standAt (s.here x) slot g
        | _ => s) ((s.together r).getD []) s
      | none => s
    | _ => s)

/-- The bytes of a subscribed location now. -/
def State.locValue (s : State) (u : Sub) : DWord :=
  match u.dest with
  | .unit _ | .spad _ => d64 (leVal (memRead s.mem u.pa 8))
  | .peer p m => d64 (leVal (memRead (s.peerMem ((s.servingPeer p m).getD p)) u.pa 8))

/-- The end of a subscription at its core: no push of it is left, and the core holds it no more. -/
def State.endSub (s : State) (core : Nat) (u : Sub) : State :=
  (s.modDie u.homeDie fun d => d.unregister u.pa core u.slot u.no).modCore core fun c =>
    { c with subs := c.subs.filter (fun x => !(x.slot == u.slot && x.owner == u.owner && x.no == u.no)),
             pushq := c.pushq.filter fun q => !(q.slot == u.slot && q.owner == u.owner && q.no == u.no) }

/-- A location of a subscription holds a release's value, behind its earlier writes (R50, R63): what tells the slot of it waits. -/
def State.locGuarded (s : State) (u : Sub) : Bool := s.guardedAny u.dest.space u.pa 8

/-- An UNSTAND acknowledged at a point P (R64, R212): CLOSED, the last value and count, OVR where a drop is made good. One
whose subscription has ended changes nothing (R317). -/
def State.unstandAt (s : State) (r : Req) (slot : DWord) : State :=
  let core := coreOfSlot r.who.slot
  let s0 := s.dropReq r.id
  match (s.core core).subs.find? fun u => u.slot == slot && u.no == r.sub with
  | none => s0
  | some u => if u.lost then s0 else if s.locGuarded u then s else match s.subscriber core u with
    | none => s0.endSub core u
    | some x => match s0.slotRead core u.owner u.asid slot with
      | .wait => s
      | .fail _ => s0.endSub core u
      | .ok old s1 =>
        let queued := (s1.core core).pushq.find? fun q => q.slot == slot && q.owner == u.owner && q.no == u.no
        let ovr := x.owed || (queued.map fun q => q.ovr).getD false
        let fl := (field old 12 4 % 16 &&& (flOvr + flErr)) ||| flClosed ||| (if ovr then flOvr else 0)
        match s1.slotWrite core u.owner u.asid slot (slotBytes (s1.locValue u) x.count fl) (queued.bind fun q => q.attr) with
        | .ok _ s2 => ({ s2 with writer := x.writer }).endSub core u
        | .wait => s
        | .fail _ => s1.endSub core u

/-- UNSTAND_ACK (R64). -/
def execUnstandAck (s : State) : Host.Outcome State Fault Refusal :=
  .next (match s.subject with
    | .idx i => match pick (s.arriving Req.isUnstand) i with
      | some r => match r.op with
        | .unstand slot => s.unstandAt r slot
        | _ => s
      | none => s
    | _ => s)

/-- A subscription lost with its home (R65, R317): ERR in its slot, and a pending UNSTAND then changes nothing. Where the slot
has to wait, the core holds the subscription as lost until its PUSH event has updated it. -/
def State.loseSub (s : State) (core : Nat) (u : Sub) : State :=
  match s.slotLost core u.owner u.asid u.slot with
  | .ok _ s => s.endSub core u
  | .fail _ => s.endSub core u
  | .wait =>
    let mark := fun (x : Sub) => if x == u then { x with lost := true } else x
    s.modCore core fun c => { c with subs := c.subs.map mark }

/-! ## Pushes (R211) -/

/-- PUSH: the oldest push of a core's queue is delivered to its slot, in the place of the write it tells of (R63); none while
the package is halted (R384), nor before what precedes the release it tells of (R50). A lost subscription's update goes first. -/
def execPush (s : State) : Host.Outcome State Fault Refusal :=
  .next (match s.subject with
    | .core c =>
      let k := coreIdKey c
      match (s.core k).subs.find? Sub.lost, (s.core k).pushq with
      | some u, _ => if (s.core k).stopped then s else s.loseSub k u
      | none, [] => s
      | none, p :: ps =>
        if (s.core k).stopped then s
        else
          let gone (s : State) : State := s.modCore k fun x => { x with pushq := ps }
          match (s.core k).subs.find? fun u => u.slot == p.slot && u.owner == p.owner && u.no == p.no with
          | none => gone s
          | some u => if s.locGuarded u then s else match s.pushSlot k u.asid p with
            | .ok _ s => { (gone s).raise k 0x0C 7 7 1 with writer := p.writer }
            | .wait => s
            | .fail _ => gone s
    | _ => s)

/-- OWED_PUSH: with a free entry in the core's queue, the home serves the slot that has been owed longest with the current
value and count and OVR. The subject names the core and the home. -/
def execOwedPush (s : State) : Host.Outcome State Fault Refusal :=
  .next (match s.subject with
    | .coreIdx c home =>
      let k := coreIdKey c
      if 64 ≤ (s.core k).pushq.length || (s.core k).stopped then s
      else
        let owed := (s.die home).home.flatMap fun l => (l.subs.filter fun u => u.core == k && u.owed && !u.susp).map fun u => (l.pa, u)
        let first := owed.foldl (fun (b : Option (Nat × Subscriber)) x => match b with
          | none => some x
          | some y => if x.2.owedAt < y.2.owedAt then some x else some y) none
        match first with
        | none => s
        | some (pa, u) => match (s.core k).subs.find? fun x => x.slot == u.slot && x.no == u.no with
          | none => s
          | some sub =>
            if s.locGuarded sub then s else
            let (x, _) := (s.core k).enqueue (u.push (s.locValue sub) true)
            (s.setCore k x).modSubscriber home pa (fun v => v == u) fun v => { v with owed := false }
    | _ => s)

/-! ## Requests of other packages (R194, R211, R369) -/

/-- A core of a peer, as a subscriber's key. -/
def peerCore (p : Nat) (c : CoreId) : Nat := 4096 * (p + 1) + coreIdKey c

/-- A peer's request performed at a home of this package, a release with its attribution (R288), and the response with its tag
(R364): nothing while its page is in move or an earlier write of a release is to come (R50), and nothing where it fails here,
which is the peer's to report. -/
def State.homeRequest (s : State) (r : HomeReq) : State :=
  match s.localAt r.pa false false with
  | none => s
  | some t0 =>
    let (t, moving) := s.redirect t0
    let n := match r.op with
      | .read n | .atomic _ n _ _ => n
      | .write bs => bs.length
      | _ => 8
    let answer (t : Target) (s : State) (data : Memory) : State := s.respond3 t.die r.peer r.tag data
    let attr := s.flightTo r.peer (r.attr.map fun a => ⟨a.1, a.2.1, a.2.2⟩)
    if moving.isSome || s.peerState r.peer != 1 || s.guarded ⟨peerSlot r.peer, 0⟩ 64 t.pa n then s
    else match r.op with
      | .read n =>
        if (s.memFault t n true).isSome then s
        else let (bs, s) := s.homeRead t n t.die; answer t s (cellsAt t.pa bs)
      | .write bs => if (s.memFault t bs.length false).isSome then s else answer t (s.homeWrite t (cellsAt t.pa bs) attr t.die) []
      | .atomic aop n b c =>
        if (s.memFault t n true).isSome then s
        else
          let old := memRead s.mem t.pa n
          let s := match atomicNew aop.toNat n (leVal old) (b.toNat % 2 ^ (8 * n)) (c.toNat % 2 ^ (8 * n)) with
            | some v => s.homeWrite t (cellsAt t.pa (leBytes n v)) attr t.die
            | none => s
          answer t s (cellsAt t.pa old)
      | .stand c slot =>
        if (s.memFault t 8 true).isSome then s
        else if !s.homeHasRoom t.die t.pa then answer t s (cellsAt t.pa (memRead s.mem t.pa 8))
        else (answer t · (cellsAt t.pa (memRead s.mem t.pa 8))) <| s.modDie t.die fun d => d.register t.pa
          { core := peerCore r.peer c, slot := slot, owner := 0, count := 0, owed := false, owedAt := 0, susp := false }
      | .unstand c slot => answer t (s.modDie t.die fun d => d.unregister t.pa (peerCore r.peer c) slot 0) []

/-- HOME_REQUEST (R194). -/
def execHomeRequest (s : State) : Host.Outcome State Fault Refusal :=
  .next (match s.subject with
    | .home r => ({ s with writer := peerSlot r.peer }).homeRequest r
    | _ => s)

end Sys2Proof.Machine
end

