-- ==== Sys2Proof/Machine/Fabric.lean ====
section
/-! DEFINITION. Events of the Yagon fabric: bring-up and training (R361, R362), flits and replay (R364, R365), repair and
parking (R366, R367, R393), peer loss and re-admission (R368 to R371). -/

namespace Sys2Proof.Machine

/-! ## Peer loss (R369) -/

/-- Write-combining entries of a lost peer: kept for a live mirror (R73), else discarded (R70). -/
def State.loseEntries (s : State) (p : Nat) : State :=
  each (fun (k : Nat × Core) s => s.drainIf k.1 fun e => e.peer == p && (s.servingPeer e.peer e.mirror).isNone) s.cores s

/-- What a peer performed of a request before its loss, which the requester cannot tell (R370): a write or an atomic, or none of
it; of an atomic the new value may have reached the mirror too (R73).
DESIGN CHOICE (safe): notes/assumptions/3.md. -/
def State.performedBefore (s : State) (p : Nat) (r : Req) : State :=
  let k := Config.freeChoice s.stamp
  let s := s.bump
  let write (cells : Memory) (m : Option Nat) : State :=
    let s := { s with writer := r.who.slot }.writePeer p cells none
    match m with
    | some q => if k / 2 % 2 == 1 && s.peerState q == 1 then s.writePeer q cells (s.flightTo q r.attr) else s
    | none => s
  if k % 2 == 0 then s
  else match r.op, r.dest with
    | .write cells _, _ => write cells none
    | .atomic aop n b c b2 c2, .peer _ m =>
      match atomicNew aop n (leVal (memRead (s.peerMem p) r.pa n)) (b.toNat + 2 ^ 64 * b2.toNat) (c.toNat + 2 ^ 64 * c2.toNat) with
      | some v => write (cellsAt r.pa (leBytes n v)) m
      | none => s
    | _, _ => s

/-- Requests in flight to a lost peer: loads and drains of a mirrored page go on to the mirror (R73), the others, performed there
before or not (R370), fail with cause 0x06 (R401) and give back what credit they hold elsewhere; a pending UNSTAND ends with its
subscription (R65). -/
def State.loseReqs (s : State) (p : Nat) : State :=
  let gone (r : Req) : Bool := match r.dest with
    | .unit _ | .spad _ => false
    | .peer q m => q == p && match r.op with
      | .load _ _ _ | .write _ _ => (s.servingPeer q m).isNone
      | _ => true
  each (fun r s =>
    let s := ((s.performedBefore p r).payBack r).failReq r 6 (r.gone p)
    match r.op with
    | .stand _ g => s.standGuard r.who g (Config.freeChoice s.stamp % 2 == 0)
    | _ => s) (s.reqs.filter gone) s

/-- Subscriptions whose home is a lost peer (R65, R317), suspended ones among them, and home entries of a lost peer's cores. -/
def State.loseSubs (s : State) (p : Nat) : State :=
  let at_ (u : Sub) : Bool := match u.dest with
    | .unit _ | .spad _ => false
    | .peer q _ => q == p
  let s := each (fun (k : Nat × Core) s => each (fun u s => s.loseSub k.1 u) (k.2.subs.filter at_) s) s.cores s
  let keep := fun (u : Subscriber) => u.core / 4096 != p + 1
  let cut := fun (d : Die) =>
    { d with home := (d.home.map fun l => { l with subs := l.subs.filter keep }).filter fun l => !l.subs.isEmpty }
  each (fun d s => s.modDie d cut) (List.range 6) (s.modDie (peerHome p) fun d => { d with home := [] })

/-- A mirrored page of a lost peer is known to the package: a cached translation or an access in flight names the peer as
primary with a mirror, or as mirror (R369, R395; notes/assumptions/13.md).
DEDUCED (unsafe): notes/assumptions/13.md. -/
def State.mirrors (s : State) (p : Nat) : Bool :=
  let hit (q : Nat) (m : Option Nat) : Bool := m.any fun x => q == p || x == p
  s.cores.any (fun k => k.2.wc.any (fun e => hit e.peer e.mirror) || k.2.tlb.any fun e =>
    bitsOf e.pte.toNat 9 8 == 1 && e.pte.getLsbD 10 && (bitsOf e.pte.toNat 57 52 == p || bitsOf e.pte.toNat 63 58 == p)) ||
  s.reqs.any fun r => match r.dest with
    | .peer q m => hit q m
    | .unit _ | .spad _ => false

/-- A link to a lost peer holds nothing any more, in either direction; what it counts stays (R369, R396). -/
def Link.cleared (l : Link) : Link :=
  { l with nextSeq := 0, replay := [], expect := 0, naked := false, replays := 0, queue := [], idle := 0, owes := 0, owesFor := 0,
           high := false, notice := false }
/-- No request holds a unit of credit toward a peer: none is left to come back (R283). -/
def State.forgetCredit (s : State) (p : Nat) : State :=
  let keep := fun (r : Req) => { r with paid := r.paid.filter (· != p) }
  let back := fun (k : Nat × Core) => (k.1, { k.2 with egress := del p k.2.egress })
  { s with reqs := s.reqs.map keep, cores := s.cores.map back }

/-- THE LOSS OF A PEER (R368, R369), in the order of R369.
DEDUCED (unsafe): notes/assumptions/13.md.
DEDUCED (unsafe): notes/assumptions/66.md. -/
def State.losePeer (s : State) (p : Nat) : State :=
  let seen := s.mirrors p
  let s := (s.setPeerState p 2 (s.epochOf p)).health 0x13 2 0 p 0 (d64 p)
  let s := s.setFreg 0 0x030 (s.freg 0 0x030 &&& ~~~(1#64 <<< p))
  let s := s.modCtrl fun c => { c with down := del p c.down }
  let s := each (fun d s => if (lookup p (s.die d).links).isSome then s.modLink d p Link.cleared else s) [0, 1, 2, 3] s
  let s := ((((s.forgetCredit p).loseEntries p).loseReqs p).loseCmds p).loseSubs p
  let s := if seen then s.health 0x14 2 0 p 0 (d64 p) else s
  (each (fun (k : Nat × Core) s => s.leaveEntries k.1) s.cores s).retryAllowance

/-- PEER_LOST (R368): no channel for LOSSTO cycles, so also of a number of the domain that holds no package (R363), or a reset
notice.
DEDUCED (safe): notes/assumptions/59.md. -/
def execPeerLost (s : State) : Host.Outcome State Fault Refusal :=
  .next (match s.subject with
    | .peer p =>
      if p == s.pkg || s.domain ≤ p || s.peerState p == 2 || s.domain == 1 || !s.lossDue p then s else s.losePeer p
    | _ => s)

/-- PEERADMIT (R371).
DEDUCED (unsafe): notes/assumptions/43.md. -/
def execPeeradmit (s : State) : Host.Outcome State Fault Refusal :=
  .next (match s.subject with
    | .peer p => s.readmit p
    | _ => s)

/-! ## Bring-up -/

/-- YAGON_ENABLE (R362): EN of a die's YCTL set; its enabled channels train from then on. -/
def execYagonEnable (s : State) : Host.Outcome State Fault Refusal :=
  .next (match s.subject with
    | .die d => if sDie d then s.fabWrite d 0x000 (s.freg d 0 ||| 0x100) else s
    | _ => s)

/-- A peer comes up on the first channel that trains (R362), or again after a PEERADMIT (R371). -/
def State.peerUp (s : State) (q epoch : Nat) : State :=
  ((s.setPeerState q 1 epoch).setFreg 0 0x030 (s.freg 0 0x030 &&& ~~~(1#64 <<< q))).retryAllowance

/-- A channel completes training, or locks again (R392), with a far end that reports its package and epoch (R361, R368, R371). A
spare carries no traffic; a channel to a peer that stays lost goes down. -/
def State.trained (s : State) (d c pkg epoch : Nat) : State :=
  let q := s.chanPeer d c
  let lock (s : State) : State := s.modCtrl fun x => { x with lost := x.lost.filter (· != 256 * d + c) }
  if !s.chanOn d c || s.chanState d c == 2 || q == s.pkg then lock s
  else if pkg != q then ((lock s).setChanState d c 3).health 0x15 2 d c 0 (d64 c)
  else match s.peerState q with
    | 0 => ((lock s).peerUp q epoch).setChanState d c 1
    | 1 => if s.epochOf q == epoch then (lock s).setChanState d c 1 else ((lock s).losePeer q).setChanState d c 0
    | _ => if s.admitted q then ((lock s).peerUp q epoch).setChanState d c 1 else (lock s).setChanState d c 0

/-- CHANNEL_TRAINED (R361).
DEDUCED (unsafe): notes/assumptions/43.md.
DEDUCED (unsafe): notes/assumptions/44.md. -/
def execChannelTrained (s : State) : Host.Outcome State Fault Refusal :=
  .next (match s.subject with
    | .trained d c pkg epoch => s.trained d c (pkg % 64) (epoch % 65536)
    | _ => s)

/-! ## Flits and replay (R364, R365) -/

/-- A response completes the request whose tag it carries (R364), which is performed now. -/
def State.answered (s : State) (q tag : Nat) : State :=
  let mine (r : Req) : Bool := r.dest.space == q && r.id % 4096 == tag && (s.together r).isSome
  match s.reqs.find? mine with
  | none => s
  | some r => match r.op with
    | .stand slot g => s.standAt r slot g
    | .unstand slot => s.unstandAt r slot
    | _ => (s.performAll r).retryAllowance

/-- A flit received on an active channel in service: counted as an error and asked for again, once for each time it comes so,
passed up and acknowledged in its time if it is the one expected, else discarded. A response that is passed up completes its
request, and a link-control flit may be a reset notice (R368). What a request flit asks of a home is the row HOME_REQUEST's. -/
def State.receive (s : State) (d c : Nat) (f : Flit) : State :=
  let q := s.chanPeer d c
  if s.chanState d c != 1 || !s.chanOn d c then s
  else if s.flitBad q f then
    let n := (s.freg d (errReg c)).toNat
    let s := (s.setFreg d (errReg c) (d64 (n + 1))).modDie d fun x =>
      { x with window := put c (get x.window c 0 + 1) x.window }
    let s := if (s.link d q).naked && flitSeq f != (s.link d q).expect then s else s.ackFlit d q
    s.modLink d q fun l => { l with naked := true, naks := min (l.naks + 1) 0xFFFFFFFF }
  else if flitSeq f != (s.link d q).expect then s
  else
    let s := (s.modLink d q fun l =>
      { l with expect := (l.expect + 1) % 4096, naked := false, received := l.received + 1, owes := l.owes + 1,
               notice := l.notice || flitTyp f == 6 }).payAck d q
    if flitTyp f == 3 then s.answered q (f.hdr.toNat % 4096) else s

/-- FLIT_RECEIVE (R365).
DEDUCED (unsafe): notes/assumptions/60.md. -/
def execFlitReceive (s : State) : Host.Outcome State Fault Refusal :=
  .next (match s.subject with
    | .flit d c f => s.receive d c f
    | _ => s)

/-- NEGATIVE_ACKNOWLEDGE (R365): every unacknowledged flit from n onward is sent again, in order.
DEDUCED (unsafe): notes/assumptions/60.md. -/
def execNegativeAcknowledge (s : State) : Host.Outcome State Fault Refusal :=
  .next (match s.subject with
    | .link d q n =>
      let l := s.link d q
      if !l.replay.any fun f => flitSeq f == n % 4096 then s
      else
        let left := l.replay.dropWhile fun f => flitSeq f != n % 4096
        let s := s.modLink d q fun l => { l.resend (s.stripeOf d q) left.length with replays := l.replays + 1 }
        if (s.link d q).replays < 8 then s else each (fun c s => s.failChannel d c) (s.chansTo d q 1) s
    | _ => s)

/-- CUMULATIVE_ACKNOWLEDGE (R365): the flits up to n leave the replay buffer.
DEDUCED (unsafe): notes/assumptions/60.md. -/
def execCumulativeAcknowledge (s : State) : Host.Outcome State Fault Refusal :=
  .next (match s.subject with
    | .link d q n =>
      let l := s.link d q
      if !l.replay.any fun f => flitSeq f == n % 4096 then s
      else
        let left := (l.replay.dropWhile fun f => flitSeq f != n % 4096).drop 1
        s.modLink d q fun l => { l with replay := left, replays := 0, idle := 0 }
    | _ => s)

/-- REPLAY_TIMEOUT (R365): after 4,096 fabric cycles without an acknowledge. -/
def execReplayTimeout (s : State) : Host.Outcome State Fault Refusal :=
  .next (match s.subject with
    | .link d q _ => if (s.link d q).idle < 4096 then s else s.replayLink d q
    | _ => s)

/-! ## Repair and parking (R366, R367) -/

/-- Errors in the window that drop a channel. -/
def State.errThr (s : State) (d : Nat) : Nat := (s.freg d 0x020).toNat % 65536

/-- CHANNEL_DROP (R366): a channel over its CRC threshold is failed; one that is below it, or in service but neither active nor
parked, has lost its light, which is a laser that failed (R395).
DEDUCED (unsafe): notes/assumptions/60.md. -/
def execChannelDrop (s : State) : Host.Outcome State Fault Refusal :=
  .next (match s.subject with
    | .dieIdx d c0 =>
      let c := c0 % 256
      let st := s.chanState d c
      if !sDie d || !s.chanOn d c || st == 3 then s
      else if st != 0 && s.errThr d ≤ get (s.die d).window c 0 then s.failChannel d c
      else (s.failChannel d c).health 0x22 2 d c 0 (d64 c)
    | _ => s)

/-- LOCK_LOST (R366, R367): a wavelength loses lock; a channel in service on it is failed. -/
def execLockLost (s : State) : Host.Outcome State Fault Refusal :=
  .next (match s.subject with
    | .dieIdx d c0 =>
      let c := c0 % 256
      if !sDie d then s
      else
        let s := s.modCtrl fun x => { x with lost := (256 * d + c) :: x.lost.filter (· != 256 * d + c) }
        let s := if s.chanState d c == 1 || s.chanState d c == 2 then s.failChannel d c else s
        s.health 0x20 1 d c 0 (d64 c)
    | _ => s)

/-- PARK_CHANNEL (R367, R393): a link below PARKLO for PARKWIN cycles parks the active channel with the most on-hours, never
below PARKMIN. -/
def execParkChannel (s : State) : Host.Outcome State Fault Refusal :=
  .next (match s.subject with
    | .link d q _ =>
      let r := (s.freg d 0x010).toNat
      let cs := s.chansTo d q 1
      let hours (c : Nat) : Nat := get (s.die d).hours c 0
      if (s.link d q).low < bitsOf r 63 40 || cs.length ≤ bitsOf r 39 32 then s
      else match cs.foldl (fun (b : Option Nat) c => match b with
          | none => some c
          | some x => if hours x < hours c then some c else some x) none with
        | some c => (s.setChanState d c 2).modLink d q fun l => { l with low := 0 }
        | none => s
    | _ => s)

/-- CHANNEL_JOINS_STRIPE (R367): a channel being woken becomes active. -/
def execChannelJoinsStripe (s : State) : Host.Outcome State Fault Refusal :=
  .next (match s.subject with
    | .dieIdx d c0 =>
      let c := c0 % 256
      if !sDie d || (lookup c (s.die d).waking).isNone then s
      else (s.setChanState d c 1).modDie d fun x => { x with waking := del c x.waking }
    | _ => s)

/-- WAKE_TIMEOUT (R367): a channel not active within four times WAKEBUD is failed. -/
def execWakeTimeout (s : State) : Host.Outcome State Fault Refusal :=
  .next (match s.subject with
    | .dieIdx d c0 =>
      let c := c0 % 256
      match lookup c (s.die d).waking with
      | some n => if !sDie d || n < 4 * (s.freg d 0x018).toNat then s else s.failChannel d c
      | none => s
    | _ => s)

end Sys2Proof.Machine
end

