-- ==== Sys2Proof/Machine/Mailbox.lean ====
section
/-! DEFINITION. The control endpoint and the management controller (R322 to R335, R399): BAR0, doorbells and responses,
images and their verification, boot, resets, identity and attestation, fuses, the power cap. -/

namespace Sys2Proof.Machine

/-! ## Responses (R324, R326) -/

def mbBusy : Word := 0x80000000
def mbDone : Word := 0x40000000
def mbLost : Word := 0x20000000

/-- The fields of a command header. -/
def cmdOp (c : List Byte) : Nat := field c 0 2
def cmdLen (c : List Byte) : Nat := field c 4 4
def cmdTag (c : List Byte) : Nat := field c 8 8
/-- A field of the payload. -/
def arg (c : List Byte) (o n : Nat) : Nat := field c (16 + o) n

/-- The command in progress ends: RSPBUF, then MBSTAT in one update, then vector 0; after an endpoint reset the response is
discarded (R325). -/
def State.respond (s : State) (status : Nat) (data : List Byte) : State :=
  match s.ctrl.cmd with
  | none => s
  | some (seq, c) =>
    if s.ctrl.discard then s.modCtrl fun x => { x with cmd := none, discard := false, mbstat := 0 }
    else
      let bs := leBytes 2 status ++ leBytes 2 (cmdOp c) ++ leBytes 4 data.length ++ leBytes 8 (cmdTag c) ++ data
      (s.modCtrl fun x => { x with
        cmd := none, rspbuf := memWrite x.rspbuf 0 bs, mbstat := (x.mbstat &&& mbLost) ||| mbDone ||| seq }).vector 0

/-- The opcodes, and the states that permit each (R328). -/
def permitted (op state : Nat) : Bool :=
  match op with
  | 0x03 => state ≤ 2
  | 0x04 => state == 1 || state == 2
  | 0x05 => state == 2
  | 0x07 => state == 3 || state == 4
  | 0x08 => state == 4
  | 0x0B => state == 0 || state == 3
  | _ => true

/-- A header is well formed for a payload length (R326, R327). -/
def headerOk (c : List Byte) (lens : List Nat) : Bool := field c 2 2 == 0 && lens.contains (cmdLen c)
/-- Trailing payload of a length above `n` is zero. -/
def tailZero (c : List Byte) (n : Nat) : Bool := ((c.drop (16 + n)).take (cmdLen c - n)).all fun b => b == 0

/-- The status of a host buffer: 64-aligned (2), within the bus's addresses (5).
DEDUCED (unsafe): notes/assumptions/63.md. -/
def bufStatus (a n : Nat) : Nat := if a % 64 != 0 then 2 else if 2 ^ 64 < a + n then 5 else 0

/-- What a command answers: status, data and the state it leaves; a nonzero status changes nothing (R327). -/
structure Answer where
  status : Nat
  data   : List Byte
  after  : State
deriving DecidableEq, Repr

/-- The command in progress is executed if its opcode is `op`: first the state that permits it, then its header.
DEDUCED (unsafe): notes/assumptions/63.md. -/
def State.runCommand (s : State) (op : Nat) (lens : List Nat) (f : List Byte → State → Answer) : State :=
  match s.ctrl.cmd with
  | none => s
  | some (_, c) =>
    if cmdOp c != op then s
    else if !permitted op s.ctrl.pkstate then s.respond 3 []
    else if !headerOk c lens then s.respond 2 []
    else
      let r := f c s
      if r.status == 0 then r.after.respond 0 r.data else s.respond r.status []

/-! ## BAR0 (R323, R324) -/

/-- DOORBELL: ignored with a nonzero high half; while BUSY it sets LOST; else the command in CMDBUF starts, and one of an
unknown opcode is answered with status 1.
DEDUCED (unsafe): notes/assumptions/63.md. -/
def State.doorbell (s : State) (v : Word) : State :=
  if v.toNat / 65536 != 0 || s.ctrl.discard then s
  else if s.ctrl.cmd.isSome then s.modCtrl fun x => { x with mbstat := x.mbstat ||| mbLost }
  else
    let c := memRead s.ctrl.cmdbuf 0 4096
    let s := s.modCtrl fun x => { x with cmd := some (v, c), mbstat := mbBusy ||| v, sampled := [] }
    if cmdOp c == 0 || 0x0C < cmdOp c then s.respond 1 [] else s

/-- DOORBELL (R324). -/
def execDoorbell (s : State) : Host.Outcome State Fault Refusal :=
  .next (match s.subject with
    | .doorbell v => s.doorbell v
    | _ => s)

/-- INTMASK: vectors that are pending and now unmasked send their messages. -/
def State.setIntMask (s : State) (v : Word) : State := s.modCtrl fun x => { x with intmask := v &&& 0xF }.deliver

/-- A host write to BAR0. -/
def State.hostWrite (s : State) (off : Nat) (bs : List Byte) : State :=
  if off == 0x0008 then s.doorbell (w32 (leVal (bs.take 4)))
  else if off == 0x0018 then s.setIntMask (w32 (leVal (bs.take 4)))
  else if 0x1000 ≤ off && off + bs.length ≤ 0x2000 then
    s.modCtrl fun x => { x with cmdbuf := memWrite x.cmdbuf (off - 0x1000) bs }
  else if 0x8000 ≤ off && off + bs.length ≤ 0x8040 then
    s.modCtrl fun x => { x with msix := memWrite x.msix (off - 0x8000) bs }.deliver
  else s

/-- The bytes at an offset of BAR0: the registers of 4 and 8 bytes, the buffers, zeros elsewhere (R323). RSPBUF before DONE is
open (R324).
DESIGN CHOICE (safe): notes/assumptions/3.md. -/
def State.barByte (s : State) (off : Nat) : Byte :=
  let c := s.ctrl
  let word (base v : Nat) : Byte := BitVec.ofNat 8 (v / 2 ^ (8 * (off - base)))
  if off < 4 then word 0 0xD7000001
  else if 0x0C ≤ off && off < 0x10 then word 0x0C c.mbstat.toNat
  else if 0x10 ≤ off && off < 0x14 then word 0x10 c.pkstate
  else if 0x18 ≤ off && off < 0x1C then word 0x18 c.intmask.toNat
  else if 0x1000 ≤ off && off < 0x2000 then memByte c.cmdbuf (off - 0x1000)
  else if 0x2000 ≤ off && off < 0x3000 then
    (if c.mbstat &&& mbDone != 0 then memByte c.rspbuf (off - 0x2000) else Config.freeByte s.stamp off)
  else if 0x8000 ≤ off && off < 0x8040 then memByte c.msix (off - 0x8000)
  else if 0x9000 ≤ off && off < 0x9008 then word 0x9000 c.pba.toNat
  else 0
/-- A host read of n bytes of BAR0 (R323). -/
def State.hostRead (s : State) (off n : Nat) : State :=
  let bs := (List.range n).map fun i => s.barByte (off + i)
  if Config.bar0Size < off + n then s else s.bump.modCtrl fun x => { x with hostData := bs }
/-- A host read of the endpoint's IDs in its configuration space (R322). -/
def State.configRead (s : State) : State :=
  s.modCtrl fun x => { x with hostData := leBytes 2 Config.vendorId ++ leBytes 2 Config.deviceId }

/-- A command names a host buffer (R329). -/
def usesBuffer (c : List Byte) : Bool :=
  match cmdOp c with
  | 0x01 => arg c 0 8 != 0
  | 0x03 | 0x08 | 0x09 | 0x0B => true
  | _ => false
/-- The command in progress fails with status 5, its host buffer cannot be moved (R322), or 8, an internal failure (R327): it
changes nothing, but for a LOAD, which leaves STAGED; status 8 is counted and queues class 0x38 (R395, R398).
DESIGN CHOICE (safe): notes/assumptions/63.md. -/
def State.mailFails (s : State) (status : Nat) : State :=
  match s.ctrl.cmd with
  | none => s
  | some (_, c) =>
    if !permitted (cmdOp c) s.ctrl.pkstate || (cmdOp c == 0x07 && s.ctrl.halting.isSome) || !(status == 8 || (status == 5 && usesBuffer c)) then s
    else
      let s := if cmdOp c == 0x03 then s.modCtrl fun x => { x with pkstate := 1, verified := false, header := none } else s
      let s := s.respond status []
      if status == 8 then (s.modCtrl fun x => { x with status8 := x.status8 + 1 }).health 0x38 3 0 0 0 (d64 (cmdOp c)) else s

/-- ENDPOINT_RESET (R325): BAR0 at its reset values; a command that is executing goes on, unanswered. -/
def execEndpointReset (s : State) : Host.Outcome State Fault Refusal :=
  .next (s.modCtrl fun x => { x with
    mbstat := if x.cmd.isSome then mbBusy else 0, discard := x.cmd.isSome, intmask := 0xF, cmdbuf := [], rspbuf := [],
    msix := [], pba := 0 })

/-! ## Identity (R329, R333) -/

def State.slotsFused (s : State) : Nat := (s.ctrl.fuses.filter fun f => f.hash.isSome).length

/-- IDENTIFY (R329). -/
def execIdentify (s : State) : Host.Outcome State Fault Refusal :=
  .next (s.runCommand 0x01 [16] fun c s =>
    let a := arg c 0 8
    let n := arg c 8 8
    let chain := Config.certChain
    let data := leBytes 16 Config.serial.toNat ++ leBytes 4 0xD7 ++ leBytes 4 Config.stepping.toNat ++
      leBytes 4 Config.romVersion.toNat ++ leBytes 4 s.slotsFused ++ identityKey ++ leBytes 4 chain.length
    if a == 0 || n < chain.length then ⟨0, data, s⟩
    else ⟨bufStatus a chain.length, data, { s with hostMem := memWrite s.hostMem a chain }⟩)

/-- The header of the verified or booted image. -/
def State.verifiedHeader (s : State) : Option (List Byte) := if s.ctrl.verified then s.ctrl.header else none
def slotAt (c : Ctrl) (i : Nat) : FuseSlot := c.fuses.getD i .empty

/-- The first 192 bytes of an attestation report (R333). -/
def State.report (s : State) (nonce : List Byte) : List Byte :=
  let h := s.verifiedHeader
  let slot := (h.map fun b => field b 12 4).getD 0xFF
  leBytes 4 0x415A4854 ++ leBytes 4 1 ++ leBytes 4 s.ctrl.pkstate ++ leBytes 4 slot ++ nonce ++
  romMeasure s.ctrl.patch ++ (match h with
    | some b => sha256 (b.take 192)
    | none => leBytes 32 0) ++
  leBytes 4 (if h.isSome then (slotAt s.ctrl slot).svmin else 0) ++ leBytes 4 ((h.map fun b => field b 8 4).getD 0) ++
  leBytes 4 s.ctrl.boots ++ leBytes 4 0 ++ leBytes 16 Config.serial.toNat ++ leBytes 48 0

/-- ATTEST (R333). -/
def execAttest (s : State) : Host.Outcome State Fault Refusal :=
  .next (s.runCommand 0x02 [32] fun c s =>
    let r := s.report ((c.drop 16).take 32)
    ⟨0, r ++ identitySign r, s⟩)

/-! ## Images (R330, R331) -/

/-- The checks of LOAD on an image of n bytes. -/
def imageOk (h : List Byte) (n : Nat) : Bool :=
  let load := field h 16 8
  let entry := field h 24 8
  let body := field h 32 8
  field h 0 4 == 0x495A4854 && field h 4 4 == 1 && ((h.drop 136).take 56).all (fun b => b == 0) && body + 256 == n &&
  load % 4096 == 0 && Config.hbmTop ≤ load && load + body ≤ Config.hbmTop + Config.lpSize &&
  entry % 8 == 0 && load ≤ entry && entry < load + body

/-- LOAD's effect: STAGED with any earlier verification void; the body at its PA where the image passes its checks. -/
def State.load (s : State) (a n : Nat) : Nat × State :=
  let s1 := s.modCtrl fun x => { x with pkstate := 1, verified := false, header := none }
  if n < 256 || 2 ^ 28 < n then (2, s1)
  else if bufStatus a n != 0 then (bufStatus a n, s1)
  else
    let img := memRead s.hostMem a n
    let h := img.take 256
    if !imageOk h n then (2, s1)
    else
      let s2 := s1.modCtrl fun x => { x with header := some h }
      match localTarget 0 0 (field h 16 8) false false with
      | some t => (0, s2.homeWrite t (cellsAt t.pa (img.drop 256)) none 4)
      | none => (2, s1)

/-- LOAD (R331): it leaves STAGED whatever its status.
DESIGN CHOICE (safe): notes/assumptions/6.md. -/
def execLoadImage (s : State) : Host.Outcome State Fault Refusal :=
  .next (match s.ctrl.cmd with
    | none => s
    | some (_, c) =>
      if cmdOp c != 0x03 then s
      else if !permitted 0x03 s.ctrl.pkstate then s.respond 3 []
      else if !headerOk c [16] then
        (s.modCtrl fun x => { x with pkstate := 1, verified := false, header := none }).respond 2 []
      else
        let (st, s1) := s.load (arg c 0 8) (arg c 8 8)
        s1.respond st [])

/-- The first failing check of VERIFY, in its order (R331).
DEDUCED (unsafe): notes/assumptions/63.md. -/
def State.verifyStatus (s : State) : Nat :=
  match s.ctrl.header with
  | none => 6
  | some h =>
    let slot := field h 12 4
    let f := slotAt s.ctrl slot
    let key := (h.drop 72).take 64
    if 4 ≤ slot || f.revoked then 6
    else match f.hash with
      | none => 6
      | some k =>
        if sha256 key != k then 6
        else if field h 8 4 < f.svmin then 7
        else if !ecdsaOk key ((h.drop 192).take 64) (h.take 192) then 4
        else if sha256 (memRead s.mem (field h 16 8) (field h 32 8)) != (h.drop 40).take 32 then 4
        else 0

/-- VERIFY (R331).
DESIGN CHOICE (safe): notes/assumptions/6.md. -/
def execVerify (s : State) : Host.Outcome State Fault Refusal :=
  .next (s.runCommand 0x04 [0] fun _ s =>
    ⟨s.verifyStatus, [], s.modCtrl fun x => { x with pkstate := 2, verified := true }⟩)

/-- BOOT's effect (R332): latency core 0 of die 4, hardware thread 0, runs at the entry PA; the root ports are released. -/
def State.boot (s : State) : State :=
  let entry := ((s.ctrl.header.map fun h => field h 24 8)).getD 0
  let s := s.modCtrl fun x =>
    { x with pkstate := 3, boots := x.boots + 1,
             ports := each (fun k m => put (k + 8) true m) x.split [(8, true), (9, true), (10, true), (11, true)] }
  s.releaseHw (slotKey (coreKey 4 0) 0) (d64 entry)

/-- BOOT (R332).
DESIGN CHOICE (safe): notes/assumptions/6.md. -/
def execBoot (s : State) : Host.Outcome State Fault Refusal :=
  .next (s.runCommand 0x05 [0] fun _ s => ⟨0, [], s.boot⟩)

/-! ## Resets (R329, R332) -/

/-- What a reset of the package keeps of a die: the on-hours of its lasers. -/
def Die.restarted (d : Die) : Die := { Die.fresh with hours := d.hours }

/-- The controller after a reset: fuses and the staged patch, now in force; its queue of events, the health of the optics,
the cap; after a warm one the counts since a cold one (notes/assumptions/14.md).
DEDUCED (unsafe): notes/assumptions/14.md. -/
def Ctrl.restarted (c : Ctrl) (warm : Bool) : Ctrl :=
  { Ctrl.fresh with
    mbstat := c.mbstat, intmask := c.intmask, cmdbuf := c.cmdbuf, rspbuf := c.rspbuf, msix := c.msix, pba := c.pba,
    cmd := c.cmd, discard := c.discard, boots := if warm then c.boots else 0, resets := c.resets + 1,
    patch := c.staged.getD c.patch, fuses := c.fuses, events := c.events, dropped := c.dropped, drained := c.drained,
    cap := c.cap, powers := c.powers, energy := if warm then c.energy else 0, temps := c.temps, diePower := c.diePower,
    volts := c.volts, status8 := if warm then c.status8 else 0, ces := if warm then c.ces else 0,
    ues := if warm then c.ues else 0, repaired := c.repaired, worn := c.worn, lost := c.lost, split := c.split, messages := c.messages,
    hostData := c.hostData }

/-- The 4 KiB pages of memory that are being written, by memory unit: by requests in flight, and where a move has not come to its
end (R74, R329). -/
def State.beingWritten (s : State) : List (Nat × Nat) :=
  (s.reqs.filterMap fun r => match r.dest with
    | .unit v => if r.changes then some (v, r.pa / 4096) else none
    | _ => none) ++
  s.dies.flatMap fun d => (d.2.moves.filter fun m => !m.done).flatMap fun m =>
    (List.range (m.size / 4096)).filterMap fun i => (s.localAt (m.dst + 4096 * i) false false).map fun t => (t.unit, t.pa / 4096)
/-- The 512-byte blocks of a memory unit in pages that are being written: a warm reset leaves them without valid metadata
(R329), so that a read of them is uncorrectable.
DEDUCED (unsafe): notes/assumptions/14.md. -/
def writing (ps : List (Nat × Nat)) (u : Nat) : List Nat :=
  ((ps.filter fun x => x.1 == u).map (·.2)).eraseDups.flatMap fun p => (List.range 8).map fun i => 4096 * p + 512 * i

/-- The memory blocks after a reset: the LPDDR 6 brought up again (R332), the HBM4E down; a warm one keeps what the side
bands hold, but for the pages being written.
DEDUCED (unsafe): notes/assumptions/14.md. -/
def blocksRestarted (bs : Map MemBlock) (rs : List (Nat × Nat)) (warm : Bool) : Map MemBlock :=
  (List.range 18).map fun u =>
    let old := get bs u .fresh
    let new : MemBlock := if u < 16 then .fresh else .broughtUp
    let bad := writing rs u
    (u, if warm then { new with poison := old.poison.filter (!bad.contains ·) ++ bad, sparse := old.sparse, flawed := old.flawed } else new)

/-- A reset of the package: every agent of it at its reset state; memory kept by a warm one alone.
DEDUCED (unsafe): notes/assumptions/14.md.
DESIGN CHOICE (unsafe): notes/assumptions/64.md. -/
def State.restart (s : State) (warm : Bool) : State :=
  { State.reset with
    agenda := s.agenda, turnNo := s.turnNo, freeNo := s.freeNo, reqNo := s.reqNo, hostMem := s.hostMem, peers := s.peers,
    mem := if warm then s.mem else [], blocks := blocksRestarted s.blocks s.beingWritten warm,
    dies := s.dies.filterMap fun d => if d.1 < 6 then some (d.1, d.2.restarted) else none,
    ctrl := { s.ctrl.restarted warm with notices := s.resetNotices } }

/-- RESET of one kind: 0 cold, 1 warm. The other kind's row and a kind out of range are not this one's.
DESIGN CHOICE (unsafe): notes/assumptions/64.md. -/
def State.resetCommand (s : State) (kind : Nat) : State :=
  match s.ctrl.cmd with
  | none => s
  | some (_, c) =>
    if cmdOp c != 0x06 then s
    else if !headerOk c [4, 8] || !tailZero c 4 || 2 ≤ arg c 0 4 then s.respond 2 []
    else if arg c 0 4 != kind then s
    else (s.restart (kind == 1)).respond 0 []

/-- RESET, cold (R329). -/
def execResetCold (s : State) : Host.Outcome State Fault Refusal := .next (s.resetCommand 0)
/-- RESET, warm (R329). -/
def execResetWarm (s : State) : Host.Outcome State Fault Refusal := .next (s.resetCommand 1)

/-- POWER_ON (R332): a cold start, with BAR0 at its reset values; the ROM has brought up UCIe and the LPDDR 6 and waits for
doorbells.
DEDUCED (unsafe): notes/assumptions/14.md.
DESIGN CHOICE (unsafe): notes/assumptions/64.md. -/
def execPowerOn (s : State) : Host.Outcome State Fault Refusal :=
  .next ((s.restart false).modCtrl fun x => { x with
    mbstat := 0, intmask := 0xF, cmdbuf := [], rspbuf := [], msix := [], pba := 0, cmd := none, discard := false,
    events := [], dropped := 0, drained := true, cap := 2500, powers := [], temps := [], diePower := [], volts := [] })

/-! ## Fuses (R334, R335); the objects' layouts are the model's (notes/assumptions/15.md) -/

/-- An object's key and signature, its last 128 bytes.
PRESUMED (unsafe): notes/assumptions/15.md. -/
def objKey (o : List Byte) : List Byte := (o.drop (o.length - 128)).take 64
def objSig (o : List Byte) : List Byte := o.drop (o.length - 64)
/-- The object is signed by the key it carries.
PRESUMED (unsafe): notes/assumptions/15.md. -/
def objSigned (o : List Byte) : Bool := ecdsaOk (objKey o) (objSig o) (o.take (o.length - 64))
def objSerialOk (o : List Byte) : Bool := field o 0 16 == Config.serial.toNat
def objSlot (o : List Byte) : Nat := field o 16 4

/-- An FWUPDATE of one subfunction: an unknown subfunction is answered by row 0's meaning.
DEDUCED (unsafe): notes/assumptions/63.md. -/
def State.fwupdate (s : State) (sub : Nat) (f : List Byte → State → Nat × State) : State :=
  match s.ctrl.cmd with
  | none => s
  | some (_, c) =>
    if cmdOp c != 0x0B then s
    else if !permitted 0x0B s.ctrl.pkstate then s.respond 3 []
    else if !headerOk c [24] then s.respond 2 []
    else
      let k := arg c 0 8
      if 4 ≤ k then s.respond 2 []
      else if k != sub then s
      else
        let a := arg c 8 8
        let n := arg c 16 8
        if bufStatus a n != 0 then s.respond (bufStatus a n) []
        else
          let (st, s1) := f (memRead s.hostMem a n) s
          if st == 0 then s1.respond 0 [] else s.respond st []

/-- The fuses with one slot changed. -/
def State.fuse (s : State) (i : Nat) (f : FuseSlot → FuseSlot) : State :=
  s.modCtrl fun x => { x with fuses := x.fuses.set i (f (slotAt x i)) }

/-- FWUPDATE 0: a ROM patch bundle signed by Abaig's image key is staged.
PRESUMED (unsafe): notes/assumptions/15.md. -/
def execFwupdateRomPatch (s : State) : Host.Outcome State Fault Refusal :=
  .next (s.fwupdate 0 fun o s =>
    if o.length < 128 then (2, s)
    else if sha256 (objKey o) != Config.abaigKeyHash || !objSigned o then (4, s)
    else (0, s.modCtrl fun x => { x with staged := some (o.take (o.length - 128)) }))

/-- FWUPDATE 1: enrolment of an empty slot. -/
def execFwupdateEnrol (s : State) : Host.Outcome State Fault Refusal :=
  .next (s.fwupdate 1 fun o s =>
    if o.length != 180 || 4 ≤ objSlot o || !objSerialOk o then (2, s)
    else if sha256 (objKey o) != Config.abaigKeyHash || !objSigned o then (4, s)
    else if (slotAt s.ctrl (objSlot o)).hash.isSome then (6, s)
    else (0, s.fuse (objSlot o) fun f => { f with hash := some ((o.drop 20).take 32) }))

/-- The slot's own key signs: its hash is fused and the slot is not revoked. -/
def slotSigns (c : Ctrl) (o : List Byte) : Bool :=
  let f := slotAt c (objSlot o)
  f.hash == some (sha256 (objKey o)) && !f.revoked

/-- FWUPDATE 2: revocation. -/
def execFwupdateRevoke (s : State) : Host.Outcome State Fault Refusal :=
  .next (s.fwupdate 2 fun o s =>
    if o.length != 148 || 4 ≤ objSlot o || !objSerialOk o then (2, s)
    else if !slotSigns s.ctrl o then (6, s)
    else if !objSigned o then (4, s)
    else (0, s.fuse (objSlot o) fun f => { f with revoked := true }))

/-- FWUPDATE 3: SVMIN raised. -/
def execFwupdateSvmin (s : State) : Host.Outcome State Fault Refusal :=
  .next (s.fwupdate 3 fun o s =>
    let v := field o 20 4
    if o.length != 152 || 4 ≤ objSlot o || !objSerialOk o then (2, s)
    else if !slotSigns s.ctrl o then (6, s)
    else if !objSigned o then (4, s)
    else if v ≤ (slotAt s.ctrl (objSlot o)).svmin || 63 < v then (2, s)
    else (0, s.fuse (objSlot o) fun f => { f with svmin := v }))

/-! ## Power (R329) -/

/-- SETPOWER: the cap in watts, brought into 500 to 2,500. -/
def execSetpower (s : State) : Host.Outcome State Fault Refusal :=
  .next (s.runCommand 0x0C [4, 8] fun c s =>
    let cap := clampTo 500 2500 (arg c 0 4)
    if !tailZero c 4 then ⟨2, [], s⟩ else ⟨0, leBytes 4 cap, s.modCtrl fun x => { x with cap := cap }⟩)

end Sys2Proof.Machine
end

