-- ==== Sys2Proof/Machine/Halt.lean ====
section
/-! DEFINITION. Halt and dump (R383 to R389): the halt of the package, its drain, and the frozen state written to a host
buffer. -/

namespace Sys2Proof.Machine

/-! ## Engine commands at a halt (R383, R388) -/

/-- The channels that hold commands. -/
def State.busyChans (s : State) : List (Nat × Nat × Chan) :=
  s.cores.flatMap fun c => (c.2.chans.filter fun x => !x.2.cmds.isEmpty).map fun x => (c.1, x.1, x.2)

/-- A halt is under way: its engine commands are noted, as if each completed. -/
def State.noteHalt (s : State) : State :=
  if s.ctrl.halting.isNone || s.ctrl.haltSeen then s
  else
    let es := s.busyChans.flatMap fun x => x.2.2.cmds.map fun c => s.engineEntry x.1 x.2.1 1 c.total c
    let still := fun (d : Die) => { d with haltCycles := 0, halted := false }
    each (fun d s => s.modDie d still) (List.range 6)
      (s.modCtrl fun x => { x with haltSeen := true, haltLog := es })

/-- ERR at each of some sync words, or none where one must wait. -/
def State.errSyncs (s : State) (d : Doer) : List DWord → Option State
  | [] => some s
  | a :: as => match s.errAt d a with
    | .ok _ s => s.errSyncs d as
    | _ => none
/-- A channel's commands aborted (R60, R383): ERR on the sync words of copies, once their lines in flight are performed; one
that cannot be written yet stays. A chain inside a record goes back to the record's boundary, OWN left set.
DEDUCED (unsafe): notes/assumptions/65.md. -/
def State.abortChan (s : State) (x : Nat × Nat × Chan) : State :=
  each (fun (c : ChanCmd) s =>
    let d := { c.doer x.2.1 0 with prompt := true }
    let out := c.running && s.reqs.any fun r => r.who == d.who && r.atMove.isNone
    if c.op.isChain then
      if out then s
      else
        let ch := s.chan x.1 x.2.1
        let back := fun (y : ChanCmd) => if y == c then { y with record := [], parts := [], chores := [] } else y
        s.setChan x.1 x.2.1 { ch with cmds := ch.cmds.map back }
    else
      match if out then none else s.errSyncs d c.syncs with
      | none => s
      | some s =>
        let s := if c.chores.isEmpty then s.noteEnd x.1 x.2.1 (if c.running then 2 else 4) c else s
        let ch := s.chan x.1 x.2.1
        s.setChan x.1 x.2.1 { ch with cmds := ch.cmds.filter fun y => y != c }) x.2.2.cmds s

/-- The package may stop issue: it is halting, or not running. -/
def State.halting (s : State) : Bool := s.ctrl.halting.isSome

/-- HALT (R383): the request is broadcast; its response waits for the halt. In HALTED it is answered at once, and signals vector 3
too (R329). -/
def execHalt (s : State) : Host.Outcome State Fault Refusal :=
  .next (match s.ctrl.cmd with
    | none => s
    | some (_, c) =>
      if cmdOp c != 0x07 then s
      else if !permitted 0x07 s.ctrl.pkstate then s.respond 3 []
      else if !headerOk c [0] then s.respond 2 []
      else if s.ctrl.pkstate == 4 then (s.respond 0 []).vector 3
      else (s.requestHalt 0 0).noteHalt)

/-- HALTDRAIN_EXPIRY (R383): the commands of a die that have not completed within HALTDRAIN cycles are aborted. -/
def execHaltdrainExpiry (s : State) : Host.Outcome State Fault Refusal :=
  .next (match s.subject with
    | .die d =>
      if !s.halting || (s.die d).haltCycles < (s.dreg d 0x408).toNat then s
      else each (fun x s => s.abortChan x) ((s.noteHalt).busyChans.filter fun x => dieOfCore x.1 == d) s.noteHalt
    | _ => s)

/-- Nothing of a die is in flight: its requests are performed, every fault met is recorded, its copies are done, its chains at a
record boundary, its entries drained; a request that waits for a page in move stays as it is (R385). -/
def State.dieQuiet (s : State) (d : Nat) : Bool :=
  !s.reqs.any (fun r => dieOfSlot r.who.slot == d && r.atMove.isNone) &&
  !s.groups.any (fun g => dieOfSlot g.1 == d && g.2.members.any fun m => m.2.deferred.isSome) &&
  !(s.busyChans.any fun x => dieOfCore x.1 == d && x.2.2.cmds.any fun c => !c.op.isChain || c.inRecord) &&
  !(s.cores.any fun c => dieOfCore c.1 == d && !c.2.wc.isEmpty)

/-- Every core's entries drain (R383, step 5). -/
def State.drainAll (s : State) : State :=
  each (fun (c : Nat × Core) s => s.drainIf c.1 fun _ => true) s.cores s

/-- Every dirty line of a cache is written to memory: its holder keeps it clean (R344). -/
def cleaned (m : Map Nat) : Map Nat := m.map fun x => (x.1, if x.2 == 4 then 2 else if x.2 == 3 then 1 else x.2)

/-- The package is halted (R383, steps 3 to 6): each array at a block boundary, every dirty line in memory. -/
def State.halted (s : State) (cause : Nat × Word) : State :=
  let s := each (fun (g : Nat × Group) s => s.matStop g.1) s.groups s
  let chains := s.busyChans
  let s := each (fun (x : Nat × Nat × Chan) s => each (fun c s => s.noteEnd x.1 x.2.1 3 c) x.2.2.cmds s) chains s
  let stop := fun (c : Nat × Core) => (c.1, { c.2 with stopped := true })
  let s := { s with cores := s.cores.map stop }
  let s := each (fun d s => s.modDie d fun x => { x with halted := true, dir := cleaned x.dir }) (List.range 6) s
  let s := s.modCtrl fun c => { c with pkstate := 4, halting := none, haltSeen := false, haltCause := cause }
  let s := match s.ctrl.cmd with
    | some (_, c) => if cmdOp c == 0x07 then s.respond 0 [] else s
    | none => s
  s.vector 3

/-- HALT_COMPLETE (R383): the entries drain; a die with nothing in flight reports halted; when all six have, PKSTATE is
4. -/
def execHaltComplete (s : State) : Host.Outcome State Fault Refusal :=
  .next (match s.ctrl.halting with
    | none => s
    | some cause =>
      let s := s.noteHalt.drainAll
      let quiet := fun (s : State) (d : Nat) => (s.die d).halted || s.dieQuiet d
      let s := each (fun d s => s.modDie d fun x => { x with halted := quiet s d }) (List.range 6) s
      if (List.range 6).all fun d => (s.die d).halted then s.halted cause else s)

/-! ## The dump (R386 to R388) -/

/-- A section: type, subject, index, the offsets of 64-byte units that could not be read, status, data, and the cause of the
first failure. -/
structure Section where
  typ     : Nat
  subject : Nat
  index   : Nat
  bad     : List Nat
  status  : Nat
  data    : List Byte
  cause   : Nat := 7
deriving DecidableEq, Repr

/-- A section's bytes (R387). -/
def Section.bytes (x : Section) : List Byte :=
  leBytes 4 x.typ ++ leBytes 4 x.status ++ leBytes 8 x.data.length ++ leBytes 4 x.subject ++ leBytes 4 x.index ++
  leBytes 4 x.bad.length ++ leBytes 4 0 ++ leBytes 8 (x.bad.foldl min (x.bad.headD 0)) ++
  leBytes 4 (if x.bad.isEmpty then 0 else x.cause) ++
  leBytes 20 0 ++ pad64 x.data

/-- The id of a die-wide section. -/
def State.dieSubject (s : State) (d : Nat) : Nat := (agentId s.pkg d 0 0 0 0).toNat

/-- Fault records (TYPE 6): those of the ring, unreadable units as zeros, then those held. -/
def State.faultSection (s : State) (d : Nat) : Option Section :=
  let base := (s.dreg d 0x010).toNat
  let k := ringK (s.dreg d 0x018)
  let head := (s.dreg d 0x020).toNat
  let tail := (s.dreg d 0x028).toNat
  let n := if k == 0 then 0 else (head - tail) / 32
  let read (i : Nat) : Option (List Byte) := match s.readPhys (base + (tail + 32 * i) % 2 ^ k) 32 with
    | .ok bs => some bs
    | .error _ => none
  let bad := (List.range ((n + 1) / 2)).filter fun u => [2 * u, 2 * u + 1].any fun i => i < n && (read i).isNone
  let cause := match (bad.head?).bind fun u => ([2 * u, 2 * u + 1].filter fun i => i < n && (read i).isNone).head? with
    | none => 7
    | some i => match s.readPhys (base + (tail + 32 * i) % 2 ^ k) 32 with
      | .ok _ => 7
      | .error c => c
  let ring := (List.range n).flatMap fun i => if bad.contains (i / 2) then leBytes 32 0 else (read i).getD []
  let held := (s.die d).held.flatMap FaultRec.bytes
  if n == 0 && held.isEmpty then none
  else some ⟨6, s.dieSubject d, n, bad.map (64 * ·), if bad.isEmpty then 0 else 1, ring ++ held, cause⟩

/-- One entry of barrier state. -/
def barrierEntry (cohort kind level : Nat) (key : DWord) (arrived expected agent : Nat) : List Byte :=
  leBytes 4 cohort ++ leBytes 4 (kind + 256 * level) ++ leBytes 8 key.toNat ++ leBytes 4 arrived ++ leBytes 4 expected ++
  leBytes 4 agent ++ leBytes 4 0

/-- The lowest agent id of some threads. -/
def State.lowestAgent (s : State) (ws : List Who) : Nat :=
  ws.foldl (fun n w => min n (s.agentOf w).toNat) 0xFFFFFFFF

/-- The WID of a thread with fields 0 to k cleared. -/
def unitWid (h : List Byte) (k : Nat) (wid : DWord) : DWord :=
  let low := hdrShift h k + hdrWidth h k
  d64 (wid.toNat / 2 ^ low * 2 ^ low)

/-- The BAR units of cohorts with a waiter on a die. -/
def State.barEntries (s : State) (d : Nat) : List (List Byte) :=
  s.cohorts.flatMap fun c => (List.range 6).flatMap fun k =>
    let h := c.2.header
    let n := hdrUnit h k
    let ws := s.barWaiters (w32 c.1) k
    let unit (t : Thread) : Nat := flatOfWid h t.wid.toNat / n
    let us := ((ws.filter fun x => dieOfSlot x.1.slot == d).map fun x => unit x.2).eraseDups
    us.map fun u =>
      let here := ws.filter fun x => unit x.2 == u
      let ended := (c.2.ended.filter fun f => f / n == u).length
      barrierEntry c.1 0 k (unitWid h k ((here.head?.map fun x => x.2.wid).getD 0)) here.length (n - ended)
        (s.lowestAgent (here.map fun x => x.1))

/-- GSYNCs and holds of the groups of a die. -/
def State.groupEntries (s : State) (d : Nat) : List (List Byte) :=
  (s.groups.filter fun g => dieOfSlot g.1 == d).flatMap fun g =>
    let gs := g.2.members.filter fun m => m.2.run.inGsync
    let ms := ((g.2.members.filter fun m => m.2.run.isHeld).map fun m => m.2.meet).eraseDups
    (if gs.isEmpty then [] else
      [barrierEntry 0 1 0 0 gs.length g.2.members.length (s.lowestAgent (gs.map fun m => ⟨g.1, m.1⟩))]) ++
    ms.map fun m =>
      let hs := g.2.heldAt m
      barrierEntry 0 2 0 m hs.length (g.2.members.filter fun x => x.2.meet == m).length
        (s.lowestAgent (hs.map fun x => ⟨g.1, x.1⟩))

def State.barrierSection (s : State) (d : Nat) : Option Section :=
  let es := s.barEntries d ++ s.groupEntries d
  if es.isEmpty then none else some ⟨4, s.dieSubject d, 0, [], 0, es.flatten, 7⟩

/-- Engine entries (TYPE 5).
DEDUCED (unsafe): notes/assumptions/65.md. -/
def State.engineSection (s : State) (d : Nat) : Option Section :=
  let es := s.ctrl.haltLog.filter fun e => field e 0 4 / 2 ^ 23 % 8 == d
  if es.isEmpty then none else some ⟨5, s.dieSubject d, 0, [], 0, es.flatten, 7⟩

/-- Bytes with those from an offset replaced. -/
def patch (bs : List Byte) (o : Nat) (xs : List Byte) : List Byte := bs.take o ++ xs ++ bs.drop (o + xs.length)

/-- The sections of a group: registers, tiles with exact elements, scratchpad. What reads as uncorrectable is unreadable: its
64-byte units are zeros (R387). -/
def State.groupSections (s : State) (slot : Nat) (g : Group) : List Section :=
  let id := (s.agentOf ⟨slot, 0⟩).toNat
  let v := { Saved.all g.footprint false true with ranges := [], tiles := 0 }
  let regs := patch (s.saveFrame slot g v) 80 (leBytes 16 0)
  let tile (k : Nat) : Section :=
    let t := g.tile k
    let bad := if t.ecc then (List.range 2049).map (64 * ·) else []
    { typ := 3, subject := id, index := k, bad := bad, status := if t.ecc then 1 else 0,
      data := if t.ecc then leBytes 131080 0 else leBytes 8 (k + (if t.err then 256 else 0)) ++
        (List.range 16384).flatMap fun i => leBytes 8 (get t.elems i 0).toNat }
  let n := 65536 * fpSpad g.footprint
  let lo := g.spbase.toNat % 2 ^ 22
  let core := coreOfSlot slot
  let bad := ((s.core core).spoiled.filter fun u => lo ≤ u && u < lo + n).map (· - lo)
  let read := bad.foldl (fun bs u => patch bs u (leBytes 64 0)) (memRead (s.spadOf core) lo n)
  { typ := 1, subject := id, index := 0, bad := [], status := 0, data := regs } :: (List.range (fpAcc g.footprint)).map tile ++
    [{ typ := 2, subject := id, index := 0, bad := bad, status := if bad.isEmpty then 0 else 1, data := read }]

/-- A latency hardware thread's section: its user thread, or its supervisor context with SFRAME(t); STATUS 2 where it holds
none. -/
def State.hwSection (s : State) (d t : Nat) : Section :=
  let slot := slotKey (coreKey d (t / 2)) (t % 2)
  let id := (s.agentOf ⟨slot, 0⟩).toNat
  let sup := (s.hwThread slot).sup
  let at_ := if sup then supSlot slot else slot
  match (s.group? at_).bind fun g => (lookup 0 g.members).map fun x => (g, x) with
  | none => ⟨7, id, t, [], 2, [], 7⟩
  | some (g, x) =>
    let sfr := (s.dreg d (0x100 + 8 * t)).toNat
    let bs := frameBytes x g.footprint g.asid x.pc x.run.saveCode .none
    let bs := if sup then patch bs 144 (leBytes 8 sfr) else bs
    ⟨7, id, t, [], 0, patch bs 92 (leBytes 4 (threadWord x x.run.saveCode + (if sup then 256 else 0))), 7⟩

/-- The sections of a die, in order.
DEDUCED (unsafe): notes/assumptions/65.md. -/
def State.dieSections (s : State) (d : Nat) : List Section :=
  [s.faultSection d, s.barrierSection d, s.engineSection d].filterMap id ++
  (if d < 4 then (s.groups.filter fun g => dieOfSlot g.1 == d).flatMap fun g => s.groupSections g.1 g.2
   else (List.range 96).map fun t => s.hwSection d t)

/-- The sections that fit in n bytes, and whether some did not. -/
def fitting (n : Nat) : List Section → List Section × Bool
  | [] => ([], false)
  | x :: xs =>
    if n < x.bytes.length then ([], true)
    else
      let (ys, t) := fitting (n - x.bytes.length) xs
      (x :: ys, t)

/-- The bytes of a dump into a buffer of n bytes (R386).
DEDUCED (unsafe): notes/assumptions/65.md. -/
def State.dump (s : State) (n : Nat) : List Byte :=
  let (xs, trunc) := fitting (n - 256) ((List.range 6).flatMap fun d => s.dieSections d)
  let body := xs.flatMap Section.bytes
  leBytes 4 0x445A4854 ++ leBytes 4 1 ++ leBytes 4 xs.length ++
  leBytes 4 ((if trunc then 1 else 0) + (if xs.any fun x => x.status != 0 then 2 else 0)) ++
  leBytes 8 (256 + body.length) ++ leBytes 16 Config.serial.toNat ++ leBytes 4 s.ctrl.haltCause.1 ++
  leBytes 4 s.ctrl.haltCause.2.toNat ++ (List.range 6).flatMap (fun d => leBytes 4 (s.die d).haltCycles) ++
  leBytes 184 0 ++ body

/-- DUMP (R386): the frozen state into the host buffer; the response counts its bytes. -/
def execDump (s : State) : Host.Outcome State Fault Refusal :=
  .next (s.runCommand 0x08 [16] fun c s =>
    let a := arg c 0 8
    let n := arg c 8 8
    if n < 256 then ⟨2, [], s⟩
    else if bufStatus a n != 0 then ⟨bufStatus a n, [], s⟩
    else
      let bs := s.dump n
      ⟨0, leBytes 8 bs.length, { s with hostMem := memWrite s.hostMem a bs }⟩)

end Sys2Proof.Machine
end

