-- ==== Sys2Proof/Machine/Stacks.lean ====
section
/-! DEFINITION. Events of the memory blocks: bring-up (R374), memory-side caches (R375), poison (R376), scrubbing and
retraining (R378), with their health events (R395). -/

namespace Sys2Proof.Machine

/-- The stack's unit index on its die, for a health event (R396, kind 4). -/
def unitIndex (u : Nat) : Nat := if u < 16 then u % 4 else 0

/-- STACK_INIT (R374): booted software sets STKCTL.INIT (R332); training begins. -/
def execStackInit (s : State) : Host.Outcome State Fault Refusal :=
  .next (match s.subject with
    | .unit u => if s.ctrl.pkstate != 3 then s else s.memRegWrite u 0 (s.breg u 0 ||| 1)
    | _ => s)

/-- STACK_READY (R374): training completes in READY or in FAIL. -/
def execStackReady (s : State) : Host.Outcome State Fault Refusal :=
  .next (match s.subject with
    | .unitFlag u ok =>
      if !bit (s.breg u 0).toNat 0 || bit (s.breg u 8).toNat 0 || bit (s.breg u 8).toNat 1 then s
      else if ok then s.setBreg u 8 (s.breg u 8 ||| 1)
      else (s.setBreg u 8 (s.breg u 8 ||| 2)).health 0x04 3 (unitDie u) (unitIndex u) 0 (d64 u)
    | _ => s)

/-- STACK_ZERO (R374): software sets STKCTL.ZERO. -/
def execStackZero (s : State) : Host.Outcome State Fault Refusal :=
  .next (match s.subject with
    | .unit u => if s.ctrl.pkstate != 3 then s else s.memRegWrite u 0 (s.breg u 0 ||| 2)
    | _ => s)

/-- The memory a block holds (R275; notes/assumptions/5.md).
DESIGN CHOICE (unsafe): notes/assumptions/5.md. -/
def State.inUnit (s : State) (u pa : Nat) : Bool := (s.localAt pa false false).any fun t => t.unit == u

/-- ZERO_DONE (R374): what ZERO began is done: every byte of the memory reads zero, its side band valid. -/
def execZeroDone (s : State) : Host.Outcome State Fault Refusal :=
  .next (match s.subject with
    | .unit u =>
      if !bit (s.breg u 0).toNat 1 || !bit (s.breg u 8).toNat 0 || bit (s.breg u 8).toNat 3 then s
      else
        let s := { s with mem := s.mem.filter fun c => !s.inUnit u c.1 }
        (s.modBlock u fun b => { b with poison := [], sparse := [], flawed := [] }).setBreg u 8 (s.breg u 8 ||| 8)
    | _ => s)

/-- MSC_ENABLE (R375): the memory-side cache turned on or off; memory of the model is always current.
DESIGN CHOICE (safe): notes/assumptions/62.md. -/
def execMscEnable (s : State) : Host.Outcome State Fault Refusal :=
  .next (match s.subject with
    | .unitFlag u on =>
      if s.ctrl.pkstate != 3 then s else s.memRegWrite u 0 (if on then s.breg u 0 ||| 4 else s.breg u 0 &&& ~~~4)
    | _ => s)

/-- POISONPA (R373). -/
def execPoisonpa (s : State) : Host.Outcome State Fault Refusal :=
  .next (match s.subject with
    | .unitPa u pa _ => if s.ctrl.pkstate != 3 then s else s.poisonPa u pa
    | _ => s)

/-- A block found uncorrectable (R376): poisoned, UECNT rises, class 0x02. -/
def State.uncorrectable (s : State) (u pa : Nat) : State :=
  let s := (s.poisonPa u pa).setBreg u 0x020 (s.breg u 0x020 + 1)
  (s.modCtrl fun c => { c with ues := min (c.ues + 1) 0xFFFFFFFF }).health 0x02 1 (unitDie u) (unitIndex u) 0 (d64 pa)

/-- A block corrected: CECNT rises; 1,024 within an hour of controller time raise class 0x01 once (R395). The count of HEALTH is
of the stacks alone (R398).
DEDUCED (unsafe): notes/assumptions/67.md. -/
def State.corrected (s : State) (u : Nat) : State :=
  let n := get s.ctrl.ceHour u 0 + 1
  let s := (s.setBreg u 0x018 (s.breg u 0x018 + 1)).modCtrl fun c =>
    { c with ces := if u < 16 then min (c.ces + 1) 0xFFFFFFFF else c.ces, ceHour := put u n c.ceHour }
  if n == 1024 then s.health 0x01 1 (unitDie u) (unitIndex u) 0 (s.breg u 0x018) else s

/-- The 512-byte blocks of a memory: 64 GiB of a stack, 256 GiB of an LPDDR 6 (R374, R392). -/
def blocksOf (u : Nat) : Nat := if u < 16 then 2 ^ 27 else 2 ^ 29

/-- PATROL_SCRUB (R378): the block at a PA is read with n bit errors, or as many as the patrol left in it if those are more: at most
CORRLIM are corrected, more make it uncorrectable. From SCRUB[15:8] on the block is rewritten corrected, else its errors stay.
DEDUCED (unsafe): notes/assumptions/61.md. -/
def execPatrolScrub (s : State) : Host.Outcome State Fault Refusal :=
  .next (match s.subject with
    | .unitPa u pa n =>
      if !bit (s.breg u 8).toNat 0 || pa % 512 != 0 || !s.inUnit u pa then s
      else
        let n := max n (get (s.block u).flawed pa 0)
        let kept := n != 0 && n ≤ bitsOf (s.breg u 0).toNat 12 8 && n < bitsOf (s.breg u 0x010).toNat 15 8
        let s := s.modBlock u fun b => { b with
          scrub := (b.scrub + 1) % blocksOf u, flawed := if kept then put pa n b.flawed else del pa b.flawed }
        if n == 0 then s
        else if n ≤ bitsOf (s.breg u 0).toNat 12 8 then s.corrected u
        else s.uncorrectable u pa
    | _ => s)

/-- RETRAIN (R378): a burst; one that fails sets DEGRADED. -/
def execRetrain (s : State) : Host.Outcome State Fault Refusal :=
  .next (match s.subject with
    | .unitFlag u ok =>
      if !bit (s.breg u 8).toNat 0 || ok then s
      else
        let was := bit (s.breg u 8).toNat 2
        let s := (s.setBreg u 8 (s.breg u 8 ||| 4)).modBlock u fun b => { b with retries := b.retries + 1 }
        if was then s else s.health 0x03 2 (unitDie u) (unitIndex u) 0 (d64 u)
    | _ => s)

end Sys2Proof.Machine
end

