-- ==== Sys2Proof/Machine/Fleet.lean ====
section
/-! DEFINITION. The fleet operator's view: power and clocks (R390, R391), telemetry (R392, R396, R397), the HEALTH summary
(R398), repairs and wear (R395), root ports (R336). Readings of sensors that the spec does not compute are free values
(notes/assumptions/3.md). -/

namespace Sys2Proof.Machine

/-! ## Clocks (R390) -/

/-- A clock region by number: die × 16 + region, 9 on an S-die and 13 on an L-die. -/
def regionKey (d r : Nat) : Nat := 16 * d + r
/-- Counters of a region: 0 sag events, 1 to 4 cycles stretched by depth, 5 gated.
DEDUCED (unsafe): notes/assumptions/73.md. -/
def State.sag (s : State) (d r j : Nat) : Nat := get s.ctrl.sags (8 * regionKey d r + j) 0
def regions (d : Nat) : Nat := if d < 4 then 9 else 13
/-- The cores whose clock a region drives: a cluster, or a group of four latency cores. -/
def inRegionOf (d r core : Nat) : Bool := dieOfCore core == d && unitOf core < 48 && unitOf core / 4 == r && r < regions d - 1

/-- Nominal frequency of a die in MHz (R4, R391). -/
def State.mhz (s : State) (d : Nat) : Nat :=
  let n := get s.ctrl.steps d 0
  if d < 4 then 1100 - 25 * n else 3000 - 75 * n

/-- A sag: the region's clock is stretched at a depth of 1 to 4 for some cycles, or gated at a deeper one. No result changes;
a stretched cycle counts once, a gated cycle not at all. -/
def State.stretch (s : State) (d r depth n : Nat) : State :=
  let k := 8 * regionKey d r
  let j := if depth ≤ 4 then max 1 depth else 5
  let s := s.modCtrl fun c => { c with
    sags := put (k + j) (get c.sags (k + j) 0 + n) (put k (get c.sags k 0 + 1) c.sags) }
  if j != 5 then
    let droop := fun (c : Nat × Core) => (c.1, if inRegionOf d r c.1 then { c.2 with droop := c.2.droop + n } else c.2)
    { s with cores := s.cores.map droop }
  else
    let g := get s.ctrl.gated (regionKey d r) 0
    let s := s.modCtrl fun c => { c with gated := put (regionKey d r) (g + n) c.gated }
    if g ≤ s.mhz d && s.mhz d < g + n then s.health 0x28 1 d r 0 (d64 (g + n)) else s

/-- CLOCK_STRETCH (R390).
DEDUCED (unsafe): notes/assumptions/73.md. -/
def execClockStretch (s : State) : Host.Outcome State Fault Refusal :=
  .next (match s.subject with
    | .stretch d r depth n => s.stretch d r depth n
    | _ => s)

/-! ## Power (R391) -/

/-- What the sensors of a die report.
DEDUCED (unsafe): notes/assumptions/67.md. -/
def State.reading (s : State) (r : PowerReading) : State :=
  s.modCtrl fun c => { c with
    diePower := put r.die r.dieMw c.diePower, temps := put r.die r.temp8 c.temps, volts := put r.die r.mv c.volts }
/-- The package's power in mW: the mean of the samples of the last 100 ms (R391, R396). -/
def State.meanMw (s : State) : Nat := sumOf id s.ctrl.powers / max 1 s.ctrl.powers.length
/-- The same in W. -/
def State.power (s : State) : Nat := s.meanMw / 1000

/-- The steps of a die at its lowest frequency: 700 MHz, or 1,800 MHz for latency cores. -/
def floorSteps : Nat := 16

/-- POWER_STEP (R391): a die above 100 °C goes down a step, and any while the mean of 100 ms is over the cap; at its floor it holds,
and over the cap with every die at its floor class 0x2B is raised; below 95% of the cap it goes up a step. -/
def State.powerStep (s : State) (r : PowerReading) : State :=
  let s := s.reading r
  let d := r.die
  let n := get s.ctrl.steps d 0
  let mean := s.meanMw
  let over_ := s.ctrl.cap * 1000 < mean
  let hot := 800 < r.temp8
  let set (n t : Nat) (s : State) : State :=
    s.modCtrl fun c => { c with steps := put d n c.steps, throttle := put d t c.throttle }
  let why := (if over_ then 1 else 0) + (if hot then 2 else 0)
  if over_ || hot then
    if n < floorSteps then
      let s := set (n + 1) why s
      if hot then s.health 0x29 1 d 0 0 (d64 (n + 1)) else s
    else if over_ && (List.range 6).all fun x => floorSteps ≤ get s.ctrl.steps x 0 then
      (set n why s).health 0x2B 1 d 0 0 (d64 mean)
    else set n why s
  else if 100 * mean ≤ 95 * (s.ctrl.cap * 1000) then set (n - 1) 0 s
  else set n 0 s

/-- POWER_STEP (R391). -/
def execPowerStep (s : State) : Host.Outcome State Fault Refusal :=
  .next (match s.subject with
    | .power r => s.powerStep r
    | _ => s)

/-- THERMAL_TRIP (R391): a die at 115 °C: class 0x2A, and a halt as by a HALT command. -/
def execThermalTrip (s : State) : Host.Outcome State Fault Refusal :=
  .next (match s.subject with
    | .power r =>
      if r.temp8 < 920 then s
      else
        let s := (s.reading r).health 0x2A 3 r.die 0 0 (BitVec.ofInt 64 r.temp8)
        if s.ctrl.pkstate == 3 then (s.requestHalt 0 0).noteHalt else s
    | _ => s)

/-- A millisecond of the controller's clock (R396); the tenth comes with a sample. -/
def State.controllerMs (s : State) : State :=
  if s.ctrl.tick % 10 == 9 then s else s.modCtrl fun c => { c with tick := c.tick + 1 }

/-- TELEMETRY_SAMPLE (R392): every 10 ms of the controller's clock all six dies are read; the windows of a second and of an hour
restart.
DEDUCED (unsafe): notes/assumptions/67.md. -/
def execTelemetrySample (s : State) : Host.Outcome State Fault Refusal :=
  .next (match s.subject with
    | .sample mw rs => (each (fun r s => s.reading r) rs s).modCtrl fun c =>
        let t := c.tick / 10 * 10 + 10
        { c with
          tick := t, powers := (mw :: c.powers).take 10, energy := c.energy + mw * 10,
          gated := if t % 1000 == 0 then [] else c.gated, ceHour := if t % 3600000 == 0 then [] else c.ceHour }
    | _ => s)

/-! ## Repairs and wear (R395) -/

/-- UCIE_LANE_REPAIR. -/
def execUcieLaneRepair (s : State) : Host.Outcome State Fault Refusal :=
  .next (match s.subject with
    | .ucie lo hi =>
      let k := 8 * lo + hi
      (s.modCtrl fun c => { c with repaired := put k (get c.repaired k 0 + 1) c.repaired }).health 0x10 1 lo hi 0
        (d64 (get s.ctrl.repaired k 0 + 1))
    | _ => s)

/-- LASER_WORN: a laser's bias passes 130% of its bias at manufacture. -/
def execLaserWorn (s : State) : Host.Outcome State Fault Refusal :=
  .next (match s.subject with
    | .laser d f w =>
      let c := 16 * f + w
      (s.modCtrl fun x => { x with worn := (256 * d + c) :: x.worn.filter (· != 256 * d + c) }).health 0x21 2 d c 0 (d64 c)
    | _ => s)

/-! ## Root ports (R336) -/

/-- The key of a root-port link of a die: ports 0 and 1, and at 2 and 3 their second halves where they are bifurcated. -/
def linkKey (d link : Nat) : Nat := 2 * d + link % 2 + 8 * (link / 2 % 2)
def State.linkUp (s : State) (k : Nat) : Bool := get s.ctrl.ports k false

/-- SURPRISE_LINK_DOWN: a link of a port goes down, reported through AER. -/
def execSurpriseLinkDown (s : State) : Host.Outcome State Fault Refusal :=
  .next (match s.subject with
    | .dieIdx d p0 =>
      let k := linkKey d p0
      if !lDie d || !s.linkUp k then s
      else s.modCtrl fun c => { c with ports := put k false c.ports, aer := c.aer ++ [2 ^ 32 + k] }
    | _ => s)

/-- A root port is bifurcated into two ×8 links, or one again (R336): the second half is up as the port is.
DESIGN CHOICE (unsafe): notes/assumptions/68.md. -/
def State.bifurcate (s : State) (d port : Nat) (on : Bool) : State :=
  let k := linkKey d (port % 2)
  if !lDie d || on == s.ctrl.split.contains k then s
  else s.modCtrl fun c => { c with
    split := if on then k :: c.split else c.split.filter (· != k), ports := put (k + 8) (on && get c.ports k false) c.ports }

/-- An MSI or MSI-X of a link that is up is delivered to a latency core's hardware thread (R336).
DESIGN CHOICE (unsafe): notes/assumptions/68.md. -/
def State.signalMsi (s : State) (d link : Nat) (hw : SlotId) : State :=
  if !lDie d || !s.linkUp (linkKey d link) || !hwOk hw || s.ctrl.msi.contains (slotIdKey hw) then s
  else s.modCtrl fun c => { c with msi := c.msi ++ [slotIdKey hw] }

/-- What the IOMMU of an L-die makes of an address of a requester ID (R336), or none where translation fails. -/
def State.iommuTarget (s : State) (die requester : Nat) (va : DWord) (store : Bool) : Option (Target × State) :=
  (lookup (requester % 65536) s.ctrl.iommu).bind fun asid =>
    match s.translate (coreKey die 48) asid false va (if store then .write else .read) with
    | .ok r => some r
    | .error _ => none

/-- A device page outside the register blocks: another port's device stands behind it. -/
def Target.byPort (t : Target) : Bool := t.kind == .device && t.pa < Config.dieBlock

/-- A transfer from a root port to another, by their links' keys, passes through the IOMMU (ACS) and the L3: to a device page, behind
which the other port stands, it touches nothing of the package's memory; one that fails translation, or whose port is down, is
dropped and reported through AER (R336).
DESIGN CHOICE (unsafe): notes/assumptions/68.md. -/
def State.peerDma (s : State) (src dst requester : Nat) (va : DWord) : State :=
  if !s.linkUp src then s
  else
    let drop := s.modCtrl fun c => { c with aer := c.aer ++ [requester % 65536] }
    match s.iommuTarget (4 + src / 2 % 2) requester va true with
    | none => drop
    | some (t, s) => if s.linkUp dst && t.byPort then s else drop

/-- DEVICE_DMA: translated by the L-die's IOMMU through the address space of its requester ID; one that fails is dropped and
reported through AER, one that a page in move or credit delays is made later. One to a device page leaves the package by a root
port.
DESIGN CHOICE (unsafe): notes/assumptions/68.md. -/
def execDeviceDma (s : State) : Host.Outcome State Fault Refusal :=
  .next (match s.subject with
    | .dma d =>
      if !s.linkUp (linkKey d.die d.port) then s
      else
        let n := d.bytes.length
        let drop := s.modCtrl fun c => { c with aer := c.aer ++ [d.requester % 65536] }
        match lookup (d.requester % 65536) s.ctrl.iommu with
        | none => drop
        | some asid =>
          if (s.iommuTarget d.die d.requester d.va d.store).any fun t => t.1.byPort then s
          else if d.store then match s.engWrite (Doer.plain (coreKey d.die 48) asid false) d.va d.bytes none (lines n) with
            | .ok _ s => s
            | .wait => s
            | .fail _ => drop
          else match s.engRead (Doer.plain (coreKey d.die 48) asid false) d.va n (lines n) with
            | .ok _ s => s
            | .wait => s
            | .fail _ => drop
    | _ => s)

/-! ## TELEM (R396, R397) -/

/-- Fields at their offsets over 64 zero bytes. -/
def fields64 (fs : List (Nat × List Byte)) : List Byte := fs.foldl (fun b f => patch b f.1 f.2) (leBytes 64 0)

/-- A record of a kind and subject. -/
def State.record (s : State) (kind d unit : Nat) (fs : List (Nat × List Byte)) : List Byte :=
  fields64 ([(0, leBytes 2 kind), (2, leBytes 2 (d + 8 * unit)), (4, leBytes 4 s.ctrl.tick)] ++ fs)

/-- The n-th reading of a sensor in this snapshot. -/
def State.sensor (s : State) (n : Nat) : Nat := (Config.freeWord s.stamp n).toNat

/-- A signed number in n bytes. -/
def intBytes (n : Nat) (x : Int) : List Byte := leBytes n (BitVec.ofInt (8 * n) x).toNat

def State.packageRecord (s : State) : List Byte :=
  s.record 1 0 0 [(8, leBytes 4 s.power), (12, leBytes 4 s.ctrl.cap), (16, leBytes 8 (s.ctrl.energy / 1000000)),
    (24, leBytes 4 s.ctrl.pkstate), (28, leBytes 4 s.ctrl.dropped)]

def State.dieRecord (s : State) (d : Nat) : List Byte :=
  let sum (js : List Nat) : Nat := sumOf (fun r => sumOf (fun j => s.sag d r j) js) (List.range (regions d))
  s.record 2 d 0 [(8, leBytes 4 (get s.ctrl.diePower d 0)), (12, intBytes 4 (get s.ctrl.temps d 0)),
    (16, leBytes 4 (get s.ctrl.volts d 0)), (20, leBytes 4 (s.mhz d)), (24, leBytes 8 (sum [1, 2, 3, 4])),
    (32, leBytes 8 (sum [5])), (40, leBytes 4 (get s.ctrl.throttle d 0))]

def State.regionRecord (s : State) (d r : Nat) : List Byte :=
  s.record 3 d r ((List.range 6).map fun j => (8 + 8 * j, leBytes 8 (s.sag d r j)))

def State.memoryRecord (s : State) (u : Nat) : List Byte :=
  s.record 4 (unitDie u) (unitIndex u) [(8, leBytes 8 (s.breg u 0x008).toNat), (16, leBytes 8 (s.breg u 0x018).toNat),
    (24, leBytes 8 (s.breg u 0x020).toNat), (32, leBytes 4 ((s.block u).scrub * 65536 / blocksOf u)), (36, leBytes 4 (s.block u).retries),
    (40, leBytes 4 (s.sensor u))]

def State.ucieRecord (s : State) (lo hi : Nat) : List Byte :=
  s.record 5 lo hi [(8, leBytes 4 (s.sensor (100 + 8 * lo + hi))), (12, leBytes 4 (get s.ctrl.repaired (8 * lo + hi) 0)),
    (16, leBytes 8 (s.sensor (200 + 8 * lo + hi))), (24, leBytes 8 (get s.ctrl.lines (8 * lo + hi) 0)),
    (32, leBytes 8 (get s.ctrl.lines (8 * hi + lo) 0))]

def State.linkRecord (s : State) (d q : Nat) : List Byte :=
  let l := s.link d q
  let errs := sumOf (fun c => if s.chanPeer d c == q then (s.freg d (errReg c)).toNat else 0) (List.range 256)
  s.record 6 d q [(8, leBytes 8 (s.freg d (statReg q)).toNat),
    (16, [1, 2, 3].map fun st => BitVec.ofNat 8 (s.chansTo d q st).length), (20, leBytes 8 errs),
    (28, leBytes 4 (min l.replayed 0xFFFFFFFF)), (32, leBytes 8 l.sent), (40, leBytes 8 l.received),
    (48, leBytes 4 (min l.naks 0xFFFFFFFF))]

def State.opticsRecord (s : State) (d f : Nat) : List Byte :=
  let locked (k : Nat) : Bool := !s.ctrl.lost.contains (256 * d + 16 * f + k)
  let hours (k : Nat) : Nat := get (s.die d).hours (16 * f + k) 0 / 4 / 6300000000000
  let hs := (List.range 16).map hours
  s.record 7 d f [(8, leBytes 4 (laneMask ((List.range 16).filter locked)).toNat),
    (12, leBytes 4 (s.sensor (300 + 16 * d + f))), (16, leBytes 4 (hs.foldl min (hours 0))),
    (20, leBytes 4 (hs.foldl max 0)), (24, leBytes 4 (s.sensor (400 + 16 * d + f))),
    (28, leBytes 4 (s.sensor (500 + 16 * d + f)))]

def State.eventRecord (s : State) (e : Health) : List Byte :=
  s.record 8 e.die e.unit [(8, leBytes 2 e.cls), (10, leBytes 2 e.sev), (12, leBytes 4 e.agent.toNat),
    (16, leBytes 8 e.datum.toNat), (24, leBytes 4 e.count), (28, leBytes 4 e.tick)]

/-- The records of kinds 1 to 7, in kind order and within a kind in increasing subject.
DEDUCED (unsafe): notes/assumptions/65.md. -/
def State.snapshot (s : State) : List (List Byte) :=
  let dies := List.range 6
  [s.packageRecord] ++ dies.map s.dieRecord ++
  (List.range 13).flatMap (fun r => (dies.filter fun d => r < regions d).map fun d => s.regionRecord d r) ++
  (List.range 4).flatMap (fun t => (dies.filter fun d => d < 4 || t == 0).map fun d =>
    s.memoryRecord (if d < 4 then 4 * d + t else 12 + d)) ++
  dies.flatMap (fun hi => (List.range hi).map fun lo => s.ucieRecord lo hi) ++
  (List.range 64).flatMap (fun q => ((List.range 4).filter fun d => (s.freg d (statReg q)).toNat % 4 != 0).map fun d =>
    s.linkRecord d q) ++
  (List.range 16).flatMap fun f => (List.range 4).map fun d => s.opticsRecord d f

/-- Where a record stands in a snapshot: its kind, then its subject. -/
def recordKey (r : List Byte) : Nat := 65536 * field r 0 2 + field r 2 2
/-- The records that come after some others in a snapshot, as they are read now. -/
def State.rest (s : State) (rs : List (List Byte)) : List (List Byte) :=
  s.snapshot.filter fun r => rs.all fun x => recordKey x < recordKey r
/-- A TELEM in progress reads its next n records: each record's fields at one instant, different records at different ones (R397). -/
def State.sampleRecords (s : State) (n : Nat) : State :=
  if s.ctrl.cmd.any fun c => cmdOp c.2 == 0x09 then
    (s.modCtrl fun c => { c with sampled := c.sampled ++ (s.rest c.sampled).take n }).bump
  else s

/-- What TELEM writes into n bytes, and how many events it removes: whole records alone, no event where the buffer ends
inside kinds 1 to 7. What it has not read yet it reads now (R397).
DEDUCED (unsafe): notes/assumptions/65.md. -/
def State.telem (s : State) (n : Nat) : List Byte × Nat :=
  let rs := s.ctrl.sampled ++ s.rest s.ctrl.sampled
  let room := n / 64
  if room < rs.length then ((rs.take room).flatten, 0)
  else
    let es := s.ctrl.events.take (room - rs.length)
    (rs.flatten ++ es.flatMap s.eventRecord, es.length)

/-- TELEM (R397).
DEDUCED (unsafe): notes/assumptions/65.md. -/
def execTelem (s : State) : Host.Outcome State Fault Refusal :=
  .next (s.runCommand 0x09 [16] fun c s =>
    let a := arg c 0 8
    let n := arg c 8 8
    let (bs, k) := s.telem n
    if bufStatus a n != 0 then ⟨bufStatus a n, [], s⟩
    else ⟨0, leBytes 8 bs.length, (({ s with hostMem := memWrite s.hostMem a bs } : State).modCtrl fun x =>
      { x with events := x.events.drop k, drained := k == x.events.length, sampled := [] }).bump⟩)

/-! ## HEALTH (R398) -/

/-- The stacks with a bit of STKSTAT, as a mask from unit `lo`. -/
def State.stackMask (s : State) (lo n b : Nat) : Nat :=
  ((List.range n).filter fun t => bit (s.breg (lo + t) 0x008).toNat b).foldl (fun m t => m + 2 ^ t) 0
def State.peerMask (s : State) (st : Nat) : Nat :=
  ((List.range 64).filter fun q => s.peerState q == st).foldl (fun m q => m + 2 ^ q) 0
def State.chanCount (s : State) (st : Nat) : Nat :=
  sumOf (fun d => ((List.range 256).filter fun c => s.chanState d c == st).length) (List.range 4)

/-- The hottest die, and its temperature in eighths. -/
def State.hottest (s : State) : Nat × Int :=
  (List.range 6).foldl (fun b d => if b.2 < get s.ctrl.temps d 0 then (d, get s.ctrl.temps d 0) else b)
    (0, get s.ctrl.temps 0 0)

/-- The 64-byte summary. -/
def State.summary (s : State) : List Byte :=
  let c := s.ctrl
  let sev := c.events.foldl (fun n e => max n e.sev) 0
  let (d, t) := s.hottest
  leBytes 4 (c.pkstate + 16 * sev) ++ leBytes 4 (s.stackMask 0 16 0 + 65536 * s.stackMask 0 16 2) ++
  leBytes 4 (s.stackMask 0 16 1 + 65536 * s.stackMask 16 2 1) ++
  leBytes 4 (c.events.length + 65536 * min c.dropped 0xFFFF) ++ leBytes 8 (s.peerMask 1) ++ leBytes 8 (s.peerMask 2) ++
  leBytes 4 (s.chanCount 3) ++ leBytes 4 (s.chanCount 2) ++ leBytes 4 s.power ++ leBytes 4 c.cap ++
  intBytes 2 (t / 8) ++ leBytes 2 d ++ leBytes 4 c.ces ++ leBytes 4 c.ues ++ leBytes 4 (min c.status8 0xFFFFFFFF)

/-- HEALTH (R398). -/
def execHealth (s : State) : Host.Outcome State Fault Refusal :=
  .next (s.runCommand 0x0A [0] fun _ s => ⟨0, s.summary, s⟩)

end Sys2Proof.Machine
end

