-- ==== Sys2Proof/Machine/Moves.lean ====
section
/-! DEFINITION. The end of a page move (R74, R346): the page and what its home keeps of it go to the new frame, and the accesses
that waited are performed there in their order. -/

namespace Sys2Proof.Machine

/-- The standing locations of a page go to the new home (R74). -/
def State.moveHome (s : State) (m : PageMove) : State :=
  let at_ := fun (l : HomeLoc) => m.src ≤ l.pa && l.pa < m.src + m.size
  let moved := (List.range 6).flatMap fun d => (s.die d).home.filter at_
  let s := each (fun d s => s.modDie d fun x => { x with home := x.home.filter fun l => !at_ l }) (List.range 6) s
  each (fun (l : HomeLoc) s => match s.localAt (m.dst + (l.pa - m.src)) false false with
    | some t => s.modDie t.die fun x => { x with home := x.home ++ [{ l with pa := t.pa }] }
    | none => s) moved s

/-- What the cores recorded of those subscriptions follows. -/
def State.moveSubs (s : State) (m : PageMove) : State :=
  let move := fun (u : Sub) => if u.dest.space == 64 && m.src ≤ u.pa && u.pa < m.src + m.size then
      match s.localAt (m.dst + (u.pa - m.src)) false false with
      | some t => { u with pa := t.pa, dest := t.dest }
      | none => u
    else u
  { s with cores := s.cores.map fun x => (x.1, { x.2 with subs := x.2.subs.map move }) }

/-- Bytes and poison of the page copied; its lines leave the caches (R344), with the attributions they hold (R288); what waits for
a release's earlier writes to it goes on waiting (R50), and no later read reaches back beyond the move. -/
def State.moveBytes (s : State) (m : PageMove) : State :=
  let inOld (a : Nat) : Bool := m.src ≤ a && a < m.src + m.size
  let inNew (a : Nat) : Bool := m.dst ≤ a && a < m.dst + m.size
  let moved : Memory := (s.mem.filter fun c => inOld c.1).map fun c => (m.dst + (c.1 - m.src), c.2)
  let bad := (s.blocks.flatMap fun x => x.2.poison.filter inOld).map fun b => m.dst + (b - m.src)
  let drop := fun (x : Nat × MemBlock) => (x.1, { x.2 with
    poison := x.2.poison.filter (fun b => !inNew b), sparse := x.2.sparse.filter fun b => !inNew b
    flawed := x.2.flawed.filter fun b => !inNew b.1 })
  let clear := fun (x : Nat × Die) => (x.1, { x.2 with 
    attrs := x.2.attrs.filter (fun a => !inNew (64 * a.1) && !inOld (64 * a.1)),
    dir := x.2.dir.filter fun a => !inNew (64 * (a.1 / 8)) && !inOld (64 * (a.1 / 8)) })
  let guard := fun (x : Guarded) => if x.space == 64 && inOld x.pa then { x with pa := m.dst + (x.pa - m.src) } else x
  let s := { s with mem := memCells (s.mem.filter fun c => !inNew c.1) moved, blocks := s.blocks.map drop,
                    dies := s.dies.map clear, guards := s.guards.map guard } |>.wall
  each (fun b s => match s.localAt b false false with
    | some t => s.modBlock t.unit fun x => { x with poison := x.poison ++ [b] }
    | none => s) bad s

/-- An access that waited for the page is performed at the new home. -/
def State.replay (s : State) (m : PageMove) (r : Req) : State :=
  match s.localAt (m.dst + (r.pa - m.src)) r.pin false with
  | none => s
  | some t =>
    let cells := fun (cs : Memory) => cs.map fun c => (m.dst + (c.1 - m.src), c.2)
    let op := match r.op with
      | .write cs d => ReqOp.write (cells cs) d
      | o => o
    let r' := { r with pa := t.pa, dest := t.dest, op := op, atMove := none }
    let s' := { s with reqs := s.reqs.map fun (x : Req) => if x.id == r.id then r' else x }
    match r.op with
    | .stand slot g => s'.standAt r' slot g
    | .unstand slot => s'.unstandAt r' slot
    | _ => s.performReq r'

/-- MOVEPAGE_COMPLETE (R74, R346): the page is copied, its standing locations move, the accesses that waited are
performed in their order, and INTPEND[2] is set. -/
def execMovepageComplete (s : State) : Host.Outcome State Fault Refusal :=
  .next (match s.subject with
    | .dieIdx d i => match ((s.die d).moves.filter fun m => !m.done)[i]? with
      | none => s
      | some m =>
        let finish := fun (x : PageMove) => if x == m then { x with done := true } else x
        let s := ((s.moveBytes m).moveHome m).moveSubs m
        let s := s.modDie d fun x => { x with moves := x.moves.map finish }
        (each (fun r s => s.replay m r) (s.reqs.filter fun r => r.atMove == some m.src) s).commandDone d
    | _ => s)

end Sys2Proof.Machine
end

