-- ==== Sys2Proof/Machine/Profile.lean ====
section
/-! DEFINITION. Events of profiling and attribution: numeric windows (R263), queue waits that become edges (R290), gap
records (R292), hot-page windows (R345). -/

namespace Sys2Proof.Machine

/-- NWIN_EXPIRY (R263): at the end of a window every NCNT becomes 0.
DEDUCED (safe): notes/assumptions/75.md. -/
def execNwinExpiry (s : State) : Host.Outcome State Fault Refusal :=
  .next (match s.subject with
    | .core x => s.modCore (coreIdKey x) fun c =>
        if c.window < (c.reg 0x805).toNat then c
        else { each (fun k (c : Core) => c.setRegRaw (0x1D0 + k) 0) (List.range 8) c with window := 0 }
    | _ => s)

/-! ## Queues that hold an attribution too long (R290) -/

/-- The clock that an agent counts its queue's cycles in, as reference cycles (R4): a fabric port's is the fabric's, a copy
channel's that of its core. For a home or a die-level engine R4 names none: the core's on an S-die, the latency core's on
an L-die.
DESIGN CHOICE (unsafe): notes/assumptions/58.md. -/
def queueCycles (wkind die n : Nat) : Nat := if wkind == 8 then fabricCycles n else refCycles (4 ≤ die) n

/-- The attribution that goes on from an agent which held another for so many reference cycles: one hop more, LEN with the
cycles held, the agent with its new SEQ as producer. -/
def onward (q : QueueWait) (seq : Word) (held : Nat) : Attr :=
  ⟨tokenOf (hopsOf q.token + 1) (lenOf q.token + held), q.agent, seq⟩

/-- The edge record of a queue: the agent waited, the producer precedes it (R291). -/
def queueRecord (q : QueueWait) (a : Attr) (held : Nat) : List Byte :=
  recordBytes q.agent.toNat a.seq.toNat q.pred.toNat q.predSeq.toNat held 1 q.wkind (hopsOf a.token) (lenOf a.token)

/-- The attribution a queue wait is about. -/
def queueHeld (q : QueueWait) : Attr := ⟨q.token, q.pred, q.predSeq⟩

/-- A copy channel holds the attribution in a command that waits in its queue; over the threshold the command goes on with
the channel as producer, whose SEQ rises.
DEDUCED (unsafe): notes/assumptions/58.md. -/
def State.edgeAtChan (s : State) (eng k : Nat) (q : QueueWait) : State :=
  let die := dieOfCore eng
  let lat := 4 ≤ die
  let thr := if lat then (s.dreg die 0x0F8).toNat else ((s.core eng).reg 0x804).toNat
  let ch := s.chan eng k
  let waits := fun (x : ChanCmd) => !x.running && x.attr == queueHeld q && x.cycles == q.cycles
  if q.cycles ≤ thr || q.pred == q.agent || !ch.cmds.any waits then s
  else
    let held := refCycles lat q.cycles
    let seq := ch.seq + 1
    let hand := fun (x : ChanCmd) => if waits x then { x with attr := onward q seq 0 } else x
    let s := s.setChan eng k { cmds := ch.cmds.map hand, seq := seq, token := (onward q seq held).token }
    let r := queueRecord q (onward q seq held) held
    if lat then s.logDie die r else s.logCore eng true r

/-- A request with an attribution stands in the queue of a home of the die, or of the fabric port of it that the agent is: a
channel to its peer. -/
def State.queuedAt (s : State) (r : Req) (die : Nat) (q : QueueWait) : Bool :=
  let a := q.agent.toNat
  let p := s.chanPeer die (16 * (a / 2 ^ 17 % 64) + a / 128 % 1024)
  match r.dest with
  | .unit u => q.wkind == 9 && unitDie u == die
  | .peer x m => q.wkind == 8 && (x == p || m == some p)
  | .spad _ => false

/-- A home or a fabric port holds the attribution of a request in flight; over DEDGETHR it goes on with the agent as producer,
whose SEQ rises. An attribution at rest in a line is in no queue.
DEDUCED (unsafe): notes/assumptions/58.md. -/
def State.edgeAtDie (s : State) (d : Nat) (q : QueueWait) : State :=
  let held := queueCycles q.wkind d q.cycles
  let waits := fun (r : Req) => r.attr == some (queueHeld q) && s.queuedAt r d q && held ≤ refCycles (isLatency r.who.slot) r.cycles
  if q.cycles ≤ (s.dreg d 0x0F8).toNat || q.pred == q.agent || !s.reqs.any waits then s
  else
    let k := q.agent.toNat % 2 ^ 23
    let seq := get (s.die d).seqs k 0 + 1
    let a := onward q seq held
    let s := { s with reqs := s.reqs.map fun r => if waits r then { r with attr := some a } else r }
    let put_ := fun (x : Die) => { x with seqs := put k seq x.seqs, tokens := put k a.token x.tokens }
    (s.modDie d put_).logDie d (queueRecord q a held)

/-- An agent id of R3 that can wait in a queue: a channel of a SIMT core or a die-level engine, a fabric port of an S-die (fibre
and wavelength below 16), a home; of this package. -/
def State.queueAgent (s : State) (a : Nat) : Bool :=
  let die := a / 2 ^ 23 % 8
  let unit := a / 2 ^ 17 % 64
  let slot := a / 128 % 1024
  a / 2 ^ 26 == s.pkg && die < 6 && a / 4 % 32 == 0 && match a % 4 with
    | 1 => slot < 4 && (if die < 4 then unit < 32 else 48 ≤ unit)
    | 2 => die < 4 && unit < 16 && slot < 16
    | 3 => unit == 0 && slot == 0
    | _ => false

/-- QUEUE_EDGE_THRESHOLD (R290): a copy channel (WKIND 7), a fabric port (8) or a home (9) that holds an attribution for
longer than its threshold, in its own cycles, writes an edge record as a waiter and raises its SEQ.
DEDUCED (unsafe): notes/assumptions/58.md. -/
def execQueueEdgeThreshold (s : State) : Host.Outcome State Fault Refusal :=
  .next (match s.subject with
    | .queue q =>
      let a := q.agent.toNat
      let die := a / 2 ^ 23 % 8
      if !s.queueAgent a || q.wkind != a % 4 + 6 then s
      else if q.wkind == 7 then s.edgeAtChan (coreKey die (a / 2 ^ 17 % 64)) (a / 128 % 1024) q
      else s.edgeAtDie die q
    | _ => s)

/-- The queue edges due at the channels of a core. -/
def State.queueTurns (s : State) (core : Nat) : List Turn :=
  (s.core core).chans.flatMap fun ch => ch.2.cmds.flatMap fun x =>
    let lat := 4 ≤ dieOfCore core
    let thr := if lat then (s.dreg (dieOfCore core) 0x0F8).toNat else ((s.core core).reg 0x804).toNat
    let me := s.chanAgent core ch.1
    if x.running || x.cycles ≤ thr || x.attr.agent == me then []
    else [.event .queueEdgeThreshold (.queue ⟨me, 7, x.attr.agent, x.attr.seq, x.attr.token, x.cycles⟩)]

/-- A gap record can be written now: drop mode, records lost, room for one. -/
def Ring.gapDue (r : Ring) : Bool := ringK r.size != 0 && r.dropMode && r.lost != 0 && 32 ≤ r.room

/-- GAP_RECORD (R292): the gap record of a core's or a die's log, as soon as 32 bytes are free. -/
def execGapRecord (s : State) : Host.Outcome State Fault Refusal :=
  .next (match s.subject with
    | .core x =>
      let k := coreIdKey x
      let r := (s.core k).ring 0xA01
      if !r.gapDue then s
      else
        let (s, r') := s.ringPut r (gapBytes r.lost)
        if r'.head == r.head then s else s.modCore k fun c => c.setRing 0xA01 { r' with lost := 0 }
    | .die d =>
      let r := (s.die d).ring
      if !r.gapDue then s
      else
        let (s, r') := s.ringPut r (gapBytes r.lost)
        if r'.head == r.head then s else s.modDie d fun x => x.setRing { r' with lost := 0 }
    | _ => s)

/-- HOT_PAGE_WINDOW_EXPIRY (R345): once the window has run its cycles, the tracker counts from 0 again. -/
def execHotPageWindowExpiry (s : State) : Host.Outcome State Fault Refusal :=
  .next (match s.subject with
    | .die d => s.modDie d Die.hotExpired
    | _ => s)

end Sys2Proof.Machine
end

