-- ==== Sys2Proof/Machine/Special.lean ====
section
/-! DEFINITION. Special functions, major 0x0C (R181, R182): the special values and exact cases are fixed; every other
result is a free value inside the stated bound (Config.special). The bound is judged against a reference value computed
in fixed point to more than 90 bits; a free value outside it gives way to the rounded reference
(notes/assumptions/3.md). -/

namespace Sys2Proof.Machine

/-- 2π × 2^320 and ln 2 × 2^128, truncated. -/
def twoPi320 : Nat := 0x6487ed5110b4611a62633145c06e0e68948127044533e63a0105df531d89cd9128a5043cc71a026ee
def ln2x128 : Nat := 0xb17217f7d1cf79abc9e3b39803f2f6af

/-- Σ y^k / k! in 128-bit fixed point, n terms more. -/
def expTerms (y : Nat) : Nat → Nat → Nat → Nat → Nat
  | 0, _, _, acc => acc
  | n + 1, k, term, acc =>
    let t := term * y / 2 ^ 128 / k
    expTerms y n (k + 1) t (acc + t)
/-- e^y for y in [0, 1) at 2^128. -/
def expFix (y : Nat) : Nat := expTerms y 36 1 (2 ^ 128) (2 ^ 128)

/-- The floor of (−1)^neg × m × 2^e at 2^-128, as an integer. -/
def fixOf (neg : Bool) (m : Nat) (e : Int) : Int :=
  let a : Nat := if 0 ≤ e + 128 then m * 2 ^ (e + 128).toNat else m / 2 ^ (-(e + 128)).toNat
  if neg then -(a : Int) else a

/-- 2^x for x at 2^-128: magnitude and exponent. -/
def exp2Fix (x : Int) : Nat × Int :=
  let i := x / 2 ^ 128
  let fr := (x % 2 ^ 128).toNat
  (expFix (fr * ln2x128 / 2 ^ 128), i - 128)

/-- The fraction of log₂ of x in [1, 2) at 2^128, bit by bit. -/
def logBits : Nat → Nat → Nat → Nat
  | 0, _, acc => acc
  | n + 1, x, acc =>
    let y := x * x / 2 ^ 128
    if 2 ^ 129 ≤ y then logBits n (y / 2) (2 * acc + 1) else logBits n y (2 * acc)

/-- log₂ of m × 2^e at 2^-96. -/
def log2Fix (m : Nat) (e : Int) : Int :=
  let k := m.log2
  (e + k) * 2 ^ 96 + (logBits 96 (m * 2 ^ 128 / 2 ^ k) 0 : Nat)

/-- The alternating series of sin and cos at 2^128. -/
def trigTerms (y2 : Nat) : Nat → Nat → Int → Int → Int
  | 0, _, _, acc => acc
  | n + 1, k, term, acc =>
    let t := -(term * y2 / 2 ^ 128 / ((k + 1) * (k + 2) : Nat))
    trigTerms y2 n (k + 2) t (acc + t)

/-- a reduced modulo 2π, at 2^128 (R181: exact argument reduction). -/
def reduceFix (m : Nat) (e : Int) : Nat :=
  let a : Nat := if 0 ≤ e + 320 then m * 2 ^ (e + 320).toNat else m / 2 ^ (-(e + 320)).toNat
  a % twoPi320 / 2 ^ 192
def sinFix (y : Nat) : Int := trigTerms (y * y / 2 ^ 128) 40 1 y y
def cosFix (y : Nat) : Int := trigTerms (y * y / 2 ^ 128) 40 0 (2 ^ 128) (2 ^ 128)

/-- A fixed-point integer at 2^-k as a value. -/
def ofFix (x : Int) (k : Nat) : Num := .fin (x < 0) x.natAbs (-(k : Int))

/-- The reference value of a function at a finite nonzero argument in its domain: of SIN and TANH at a small one the argument, to
more than 90 bits. -/
def specialRef (fn : Nat) (n : Bool) (m : Nat) (e : Int) : Num :=
  match fn with
  | 0 => .fin n (2 ^ 160 / m) (-e - 160)
  | 1 =>
    let k : Int := if (e - 1) % 2 == 0 then 1 else 0
    .fin false (isqrt (2 ^ 400 / (m * 2 ^ k.toNat))) (-(e - k) / 2 - 200)
  | 2 =>
    let k : Nat := if e % 2 == 0 then 160 else 161
    .fin false (isqrt (m * 2 ^ k)) ((e - k) / 2)
  | 3 => let (x, q) := exp2Fix (fixOf n m e); .fin false x q
  | 4 => ofFix (log2Fix m e) 96
  | 5 => if topOf m e < -48 then .fin n m e else let x := sinFix (reduceFix m e); ofFix (if n then -x else x) 128
  | 6 => ofFix (cosFix (reduceFix m e)) 128
  | _ =>
    if 6 ≤ topOf m e then .fin n 1 0
    else if topOf m e < -48 then .fin n m e
    else
      let (x, q) := exp2Fix (((fixOf false m e) * 2) * 2 ^ 128 / (ln2x128 : Nat))
      let one := 2 ^ (-q).toNat
      .fin n ((x - one) * 2 ^ 128 / (x + one)) (-128)

/-- Half the bound: k in units of the last place, and an absolute bound 2^-a or none (R181). -/
def specialUlp (fn : Nat) : Nat := if fn < 3 then 1 else if fn == 5 || fn == 6 then 0 else 2
def specialAbs (fn m : Nat) (e : Int) : Option Nat :=
  match fn with
  | 4 => if -1 ≤ topOf m e && (topOf m e < 1 || (topOf m e == 1 && m == 2 ^ m.log2)) then some 22 else none
  | 5 => some 21
  | 6 => some 21
  | 7 => some 22
  | _ => none

/-- A candidate lies within the bound of a reference value. -/
def withinBound (fn m : Nat) (e : Int) (ref cand : Num) : Bool :=
  match ref, cand with
  | .fin nr mr er, .fin nc mc ec =>
    let (_, d, q) := sumFin .rne nr mr er (!nc) mc ec
    let top := topOf mr er
    let ulp := if top - 23 < f32.emin then f32.emin else top - 23
    let ok (k : Nat) (x : Int) : Bool := !ltNum (.fin false k x) (.fin false d q)
    ok (specialUlp fn) ulp || (match specialAbs fn m e with
      | some a => ok 1 (-(a : Int))
      | none => false)
  | _, _ => false

/-- The exact cases of R181, as values. -/
def specialExact (fn : Nat) (n : Bool) (m : Nat) (e : Int) : Option Num :=
  let k := e + m.log2
  let pow2 := m == 2 ^ m.log2
  match fn with
  | 0 => if pow2 && -126 ≤ -k && -k ≤ 127 then some (.fin n 1 (-k)) else none
  | 1 => if pow2 && k % 2 == 0 then some (.fin false 1 (-(k / 2))) else none
  | 2 => if pow2 && k % 2 == 0 then some (.fin false 1 (k / 2)) else none
  | 3 =>
    let x := fixOf n m e
    if 0 ≤ e || m % 2 ^ (-e).toNat == 0 then
      let i := x / 2 ^ 128
      if -126 ≤ i && i ≤ 127 then some (.fin false 1 i) else none
    else none
  | 4 => if pow2 then some (.fin (k < 0) k.natAbs 0) else none
  | _ => none

/-- The exact value of a function where it is a power of two: a reciprocal of one, 2 to an integral number. -/
def specialPow2 (fn : Nat) (n : Bool) (m : Nat) (e : Int) : Option Num :=
  match fn with
  | 0 => if m == 2 ^ m.log2 then some (.fin n 1 (-(e + m.log2))) else none
  | 3 => if 0 ≤ e || m % 2 ^ (-e).toNat == 0 then some (.fin false 1 (fixOf n m e / 2 ^ 128)) else none
  | _ => none

/-- A result in the domain: exact, or the free value inside the bound, else the rounded reference; overflow, and a delivered
result below the smallest normal under R176 and R182, with UF where it is inexact. NX is never set. RCP of a number whose
reciprocal is above the largest finite value gives the mode's overflow result with OF.
DEDUCED (unsafe): notes/assumptions/20.md. -/
def specialFin (fn : Nat) (mode : RMode) (mcode : Nat) (z : Bool) (arg : Word) (n : Bool) (m : Nat) (e : Int) :
    Nat × Flags :=
  match specialExact fn n m e with
  | some v => ((f32.roundNum .rne z v).1, {})
  | none =>
    if fn == 3 && 7 ≤ topOf m e && !n then (f32.infBits, { of := true })
    else
      let ref := if fn == 3 && 9 ≤ topOf m e then .fin false 1 (-600) else specialRef fn n m e
      let (r, fl) := f32.roundNum mode false ref
      if fl.of then (r, { of := true })
      else
        let free := (Config.special (fn + 16 * mcode) arg).toNat
        let r := if withinBound fn m e ref (f32.decode free) then free else r
        let exact := (specialPow2 fn n m e).any fun v => f32.decode r == (f32.decode (f32.roundNum .rne false v).1) &&
          !(f32.roundNum .rne false v).2.nx
        let tiny := f32.subnormal r || r % 2 ^ 31 == 0
        if z && f32.subnormal r then (r / 2 ^ 31 * 2 ^ 31, { uf := true }) else (r, { uf := tiny && !exact })

/-- The special values of R182; the others go to `specialFin`.
DEDUCED (unsafe): notes/assumptions/20.md. -/
def specialNum (fn : Nat) (mode : RMode) (mcode : Nat) (z : Bool) (arg : Word) : Num → Nat × Flags
  | .nan _ => (f32.nan, {})
  | .inf n =>
    match fn with
    | 0 => (f32.signed n 0, {})
    | 1 => if n then (f32.nan, { nv := true }) else (0, {})
    | 2 => if n then (f32.nan, { nv := true }) else (f32.infBits, {})
    | 3 => if n then (0, {}) else (f32.infBits, {})
    | 4 => if n then (f32.nan, { nv := true }) else (f32.infBits, {})
    | 7 => (f32.signed n 0x3F800000, {})
    | _ => (f32.nan, { nv := true })
  | .fin n m e =>
    if m == 0 then
      match fn with
      | 0 => (f32.signed n f32.infBits, { dz := true })
      | 1 => (f32.signed n f32.infBits, { dz := true })
      | 2 => (f32.signed n 0, {})
      | 3 => (0x3F800000, {})
      | 4 => (f32.signed true f32.infBits, { dz := true })
      | 6 => (0x3F800000, {})
      | _ => (f32.signed n 0, {})
    else if n && (fn == 1 || fn == 2 || fn == 4) then (f32.nan, { nv := true })
    else specialFin fn mode mcode z arg n m e

/-- A special function in a lane; the mode code is the mode itself, so equal inputs and modes give equal bits. -/
def specialOut (fn : Nat) (f : FmtA) (c : Ctx) (t : Thread) : Out :=
  let z := ftzOf t.fpcr
  let (xs, fl) := fpIn f32 z [fpSrc f32 c t f.sA f.a]
  let x := xs.getD 0 0
  let mcode := if f.mode == 0 then t.fpcr.toNat % 4 else f.mode.toNat - 1
  let (r, fl') := specialNum fn (roundMode f.mode t.fpcr) mcode z (w32 x) (f32.decode x)
  fpOut f32 f r (fl.or fl')

/-- RCP (R181, R182): 1/a within its bound. -/
def execRcp (f : FmtA) (s : State) : Host.Outcome State Fault Refusal :=
  regInstr (.rcp f) s fun c _ t => specialOut 0 f c t

/-- RSQ (R181, R182): 1/√a within its bound. -/
def execRsq (f : FmtA) (s : State) : Host.Outcome State Fault Refusal :=
  regInstr (.rsq f) s fun c _ t => specialOut 1 f c t

/-- SQRTA (R181, R182): √a within its bound. -/
def execSqrta (f : FmtA) (s : State) : Host.Outcome State Fault Refusal :=
  regInstr (.sqrta f) s fun c _ t => specialOut 2 f c t

/-- EXP2 (R181, R182): 2^a within its bound. -/
def execExp2 (f : FmtA) (s : State) : Host.Outcome State Fault Refusal :=
  regInstr (.exp2 f) s fun c _ t => specialOut 3 f c t

/-- LOG2 (R181, R182): log₂ a within its bound. -/
def execLog2 (f : FmtA) (s : State) : Host.Outcome State Fault Refusal :=
  regInstr (.log2 f) s fun c _ t => specialOut 4 f c t

/-- SIN (R181, R182): sin a within its bound. -/
def execSin (f : FmtA) (s : State) : Host.Outcome State Fault Refusal :=
  regInstr (.sin f) s fun c _ t => specialOut 5 f c t

/-- COS (R181, R182): cos a within its bound. -/
def execCos (f : FmtA) (s : State) : Host.Outcome State Fault Refusal :=
  regInstr (.cos f) s fun c _ t => specialOut 6 f c t

/-- TANH (R181, R182): tanh a within its bound. -/
def execTanh (f : FmtA) (s : State) : Host.Outcome State Fault Refusal :=
  regInstr (.tanh f) s fun c _ t => specialOut 7 f c t

end Sys2Proof.Machine
end

