-- ==== Sys2Proof/Machine/Dispatch.lean ====
section
/-! DEFINITION. One arm per row of spec/opcode_table.json: a direct call of the row's meaning. -/

namespace Sys2Proof.Machine

def exec (i : Instr) (s : State) : Host.Outcome State Fault Refusal :=
  match i with
  | .add f => Sys2Proof.Machine.execAdd f s
  | .sub f => Sys2Proof.Machine.execSub f s
  | .mul f => Sys2Proof.Machine.execMul f s
  | .mulh f => Sys2Proof.Machine.execMulh f s
  | .mulhu f => Sys2Proof.Machine.execMulhu f s
  | .mad f => Sys2Proof.Machine.execMad f s
  | .madw f => Sys2Proof.Machine.execMadw f s
  | .div f => Sys2Proof.Machine.execDiv f s
  | .divu f => Sys2Proof.Machine.execDivu f s
  | .rem f => Sys2Proof.Machine.execRem f s
  | .remu f => Sys2Proof.Machine.execRemu f s
  | .min f => Sys2Proof.Machine.execMin f s
  | .max f => Sys2Proof.Machine.execMax f s
  | .minu f => Sys2Proof.Machine.execMinu f s
  | .maxu f => Sys2Proof.Machine.execMaxu f s
  | .abs f => Sys2Proof.Machine.execAbs f s
  | .neg f => Sys2Proof.Machine.execNeg f s
  | .addsat f => Sys2Proof.Machine.execAddsat f s
  | .subsat f => Sys2Proof.Machine.execSubsat f s
  | .addx f => Sys2Proof.Machine.execAddx f s
  | .and f => Sys2Proof.Machine.execAnd f s
  | .or f => Sys2Proof.Machine.execOr f s
  | .xor f => Sys2Proof.Machine.execXor f s
  | .andn f => Sys2Proof.Machine.execAndn f s
  | .not f => Sys2Proof.Machine.execNot f s
  | .shl f => Sys2Proof.Machine.execShl f s
  | .shr f => Sys2Proof.Machine.execShr f s
  | .sar f => Sys2Proof.Machine.execSar f s
  | .rol f => Sys2Proof.Machine.execRol f s
  | .ror f => Sys2Proof.Machine.execRor f s
  | .bfx f => Sys2Proof.Machine.execBfx f s
  | .bfi f => Sys2Proof.Machine.execBfi f s
  | .popc f => Sys2Proof.Machine.execPopc f s
  | .clz f => Sys2Proof.Machine.execClz f s
  | .ctz f => Sys2Proof.Machine.execCtz f s
  | .brev f => Sys2Proof.Machine.execBrev f s
  | .prmt f => Sys2Proof.Machine.execPrmt f s
  | .sel f => Sys2Proof.Machine.execSel f s
  | .lea f => Sys2Proof.Machine.execLea f s
  | .dp4 f => Sys2Proof.Machine.execDp4 f s
  | .dp2 f => Sys2Proof.Machine.execDp2 f s
  | .addImm f => Sys2Proof.Machine.execAddImm f s
  | .movi f => Sys2Proof.Machine.execMovi f s
  | .mulImm f => Sys2Proof.Machine.execMulImm f s
  | .minImm f => Sys2Proof.Machine.execMinImm f s
  | .maxImm f => Sys2Proof.Machine.execMaxImm f s
  | .minuImm f => Sys2Proof.Machine.execMinuImm f s
  | .maxuImm f => Sys2Proof.Machine.execMaxuImm f s
  | .andImm f => Sys2Proof.Machine.execAndImm f s
  | .orImm f => Sys2Proof.Machine.execOrImm f s
  | .xorImm f => Sys2Proof.Machine.execXorImm f s
  | .shlImm f => Sys2Proof.Machine.execShlImm f s
  | .shrImm f => Sys2Proof.Machine.execShrImm f s
  | .sarImm f => Sys2Proof.Machine.execSarImm f s
  | .rolImm f => Sys2Proof.Machine.execRolImm f s
  | .rorImm f => Sys2Proof.Machine.execRorImm f s
  | .bfxImm f => Sys2Proof.Machine.execBfxImm f s
  | .addd f => Sys2Proof.Machine.execAddd f s
  | .subd f => Sys2Proof.Machine.execSubd f s
  | .shld f => Sys2Proof.Machine.execShld f s
  | .shrd f => Sys2Proof.Machine.execShrd f s
  | .mulwd f => Sys2Proof.Machine.execMulwd f s
  | .madwd f => Sys2Proof.Machine.execMadwd f s
  | .lead f => Sys2Proof.Machine.execLead f s
  | .adddImm f => Sys2Proof.Machine.execAdddImm f s
  | .subdImm f => Sys2Proof.Machine.execSubdImm f s
  | .shldImm f => Sys2Proof.Machine.execShldImm f s
  | .shrdImm f => Sys2Proof.Machine.execShrdImm f s
  | .mulwdImm f => Sys2Proof.Machine.execMulwdImm f s
  | .leadImm f => Sys2Proof.Machine.execLeadImm f s
  | .leapc f => Sys2Proof.Machine.execLeapc f s
  | .sadd f => Sys2Proof.Machine.execSadd f s
  | .ssub f => Sys2Proof.Machine.execSsub f s
  | .smul f => Sys2Proof.Machine.execSmul f s
  | .sand f => Sys2Proof.Machine.execSand f s
  | .sor f => Sys2Proof.Machine.execSor f s
  | .sxor f => Sys2Proof.Machine.execSxor f s
  | .sshl f => Sys2Proof.Machine.execSshl f s
  | .sshr f => Sys2Proof.Machine.execSshr f s
  | .ssar f => Sys2Proof.Machine.execSsar f s
  | .smin f => Sys2Proof.Machine.execSmin f s
  | .smax f => Sys2Proof.Machine.execSmax f s
  | .smov f => Sys2Proof.Machine.execSmov f s
  | .sld f => Sys2Proof.Machine.execSld f s
  | .saddImm f => Sys2Proof.Machine.execSaddImm f s
  | .smovi f => Sys2Proof.Machine.execSmovi f s
  | .smulImm f => Sys2Proof.Machine.execSmulImm f s
  | .sandImm f => Sys2Proof.Machine.execSandImm f s
  | .sorImm f => Sys2Proof.Machine.execSorImm f s
  | .sxorImm f => Sys2Proof.Machine.execSxorImm f s
  | .sshlImm f => Sys2Proof.Machine.execSshlImm f s
  | .sshrImm f => Sys2Proof.Machine.execSshrImm f s
  | .ssarImm f => Sys2Proof.Machine.execSsarImm f s
  | .sminImm f => Sys2Proof.Machine.execSminImm f s
  | .smaxImm f => Sys2Proof.Machine.execSmaxImm f s
  | .sldImm f => Sys2Proof.Machine.execSldImm f s
  | .mov f => Sys2Proof.Machine.execMov f s
  | .rdfl f => Sys2Proof.Machine.execRdfl f s
  | .rdflS f => Sys2Proof.Machine.execRdflS f s
  | .rdln f => Sys2Proof.Machine.execRdln f s
  | .bcast f => Sys2Proof.Machine.execBcast f s
  | .shfl f => Sys2Proof.Machine.execShfl f s
  | .elect f => Sys2Proof.Machine.execElect f s
  | .ballot f => Sys2Proof.Machine.execBallot f s
  | .ballotS f => Sys2Proof.Machine.execBallotS f s
  | .matchEq f => Sys2Proof.Machine.execMatchEq f s
  | .pmov f => Sys2Proof.Machine.execPmov f s
  | .pmovToGuards f => Sys2Proof.Machine.execPmovToGuards f s
  | .fadd f => Sys2Proof.Machine.execFadd f s
  | .fsub f => Sys2Proof.Machine.execFsub f s
  | .fmul f => Sys2Proof.Machine.execFmul f s
  | .ffma f => Sys2Proof.Machine.execFfma f s
  | .fmin f => Sys2Proof.Machine.execFmin f s
  | .fmax f => Sys2Proof.Machine.execFmax f s
  | .fclamp f => Sys2Proof.Machine.execFclamp f s
  | .frint f => Sys2Proof.Machine.execFrint f s
  | .fscale f => Sys2Proof.Machine.execFscale f s
  | .fdiv f => Sys2Proof.Machine.execFdiv f s
  | .fsqrt f => Sys2Proof.Machine.execFsqrt f s
  | .fabsneg f => Sys2Proof.Machine.execFabsneg f s
  | .hadd2 f => Sys2Proof.Machine.execHadd2 f s
  | .hsub2 f => Sys2Proof.Machine.execHsub2 f s
  | .hmul2 f => Sys2Proof.Machine.execHmul2 f s
  | .hfma2 f => Sys2Proof.Machine.execHfma2 f s
  | .hmin2 f => Sys2Proof.Machine.execHmin2 f s
  | .hmax2 f => Sys2Proof.Machine.execHmax2 f s
  | .hdot2 f => Sys2Proof.Machine.execHdot2 f s
  | .dadd f => Sys2Proof.Machine.execDadd f s
  | .dmul f => Sys2Proof.Machine.execDmul f s
  | .dfma f => Sys2Proof.Machine.execDfma f s
  | .dmin f => Sys2Proof.Machine.execDmin f s
  | .dmax f => Sys2Proof.Machine.execDmax f s
  | .ddiv f => Sys2Proof.Machine.execDdiv f s
  | .dsqrt f => Sys2Proof.Machine.execDsqrt f s
  | .cvtif f => Sys2Proof.Machine.execCvtif f s
  | .cvtfi f => Sys2Proof.Machine.execCvtfi f s
  | .cvtff f => Sys2Proof.Machine.execCvtff f s
  | .pkf8 f => Sys2Proof.Machine.execPkf8 f s
  | .upf8 f => Sys2Proof.Machine.execUpf8 f s
  | .pkh f => Sys2Proof.Machine.execPkh f s
  | .rcp f => Sys2Proof.Machine.execRcp f s
  | .rsq f => Sys2Proof.Machine.execRsq f s
  | .sqrta f => Sys2Proof.Machine.execSqrta f s
  | .exp2 f => Sys2Proof.Machine.execExp2 f s
  | .log2 f => Sys2Proof.Machine.execLog2 f s
  | .sin f => Sys2Proof.Machine.execSin f s
  | .cos f => Sys2Proof.Machine.execCos f s
  | .tanh f => Sys2Proof.Machine.execTanh f s
  | .bpack f => Sys2Proof.Machine.execBpack f s
  | .bunpk f => Sys2Proof.Machine.execBunpk f s
  | .bexp f => Sys2Proof.Machine.execBexp f s
  | .setp f => Sys2Proof.Machine.execSetp f s
  | .fsetp f => Sys2Proof.Machine.execFsetp f s
  | .pand f => Sys2Proof.Machine.execPand f s
  | .por f => Sys2Proof.Machine.execPor f s
  | .pxor f => Sys2Proof.Machine.execPxor f s
  | .pnot f => Sys2Proof.Machine.execPnot f s
  | .vote f => Sys2Proof.Machine.execVote f s
  | .alwp f => Sys2Proof.Machine.execAlwp f s
  | .ssetp f => Sys2Proof.Machine.execSsetp f s
  | .bra f => Sys2Proof.Machine.execBra f s
  | .call f => Sys2Proof.Machine.execCall f s
  | .jr f => Sys2Proof.Machine.execJr f s
  | .callr f => Sys2Proof.Machine.execCallr f s
  | .ret f => Sys2Proof.Machine.execRet f s
  | .jrs f => Sys2Proof.Machine.execJrs f s
  | .meet f => Sys2Proof.Machine.execMeet f s
  | .rejoin f => Sys2Proof.Machine.execRejoin f s
  | .loop f => Sys2Proof.Machine.execLoop f s
  | .lpexit f => Sys2Proof.Machine.execLpexit f s
  | .migrate f => Sys2Proof.Machine.execMigrate f s
  | .fanout f => Sys2Proof.Machine.execFanout f s
  | .sleep f => Sys2Proof.Machine.execSleep f s
  | .wake f => Sys2Proof.Machine.execWake f s
  | .bar f => Sys2Proof.Machine.execBar f s
  | .waitv f => Sys2Proof.Machine.execWaitv f s
  | .waits f => Sys2Proof.Machine.execWaits f s
  | .waitp f => Sys2Proof.Machine.execWaitp f s
  | .trap f => Sys2Proof.Machine.execTrap f s
  | .brkpt f => Sys2Proof.Machine.execBrkpt f s
  | .csrr f => Sys2Proof.Machine.execCsrr f s
  | .csrw f => Sys2Proof.Machine.execCsrw f s
  | .csrset f => Sys2Proof.Machine.execCsrset f s
  | .csrclr f => Sys2Proof.Machine.execCsrclr f s
  | .live f => Sys2Proof.Machine.execLive f s
  | .stepBegin f => Sys2Proof.Machine.execStepBegin f s
  | .stepEnd f => Sys2Proof.Machine.execStepEnd f s
  | .ptag f => Sys2Proof.Machine.execPtag f s
  | .ld f => Sys2Proof.Machine.execLd f s
  | .st f => Sys2Proof.Machine.execSt f s
  | .aadd f => Sys2Proof.Machine.execAadd f s
  | .aand f => Sys2Proof.Machine.execAand f s
  | .aor f => Sys2Proof.Machine.execAor f s
  | .axor f => Sys2Proof.Machine.execAxor f s
  | .amin f => Sys2Proof.Machine.execAmin f s
  | .amax f => Sys2Proof.Machine.execAmax f s
  | .aminn f => Sys2Proof.Machine.execAminn f s
  | .amaxn f => Sys2Proof.Machine.execAmaxn f s
  | .aswap f => Sys2Proof.Machine.execAswap f s
  | .acas f => Sys2Proof.Machine.execAcas f s
  | .afadd f => Sys2Proof.Machine.execAfadd f s
  | .aaddSpad f => Sys2Proof.Machine.execAaddSpad f s
  | .aandSpad f => Sys2Proof.Machine.execAandSpad f s
  | .aorSpad f => Sys2Proof.Machine.execAorSpad f s
  | .axorSpad f => Sys2Proof.Machine.execAxorSpad f s
  | .aminSpad f => Sys2Proof.Machine.execAminSpad f s
  | .amaxSpad f => Sys2Proof.Machine.execAmaxSpad f s
  | .aminnSpad f => Sys2Proof.Machine.execAminnSpad f s
  | .amaxnSpad f => Sys2Proof.Machine.execAmaxnSpad f s
  | .aswapSpad f => Sys2Proof.Machine.execAswapSpad f s
  | .acasSpad f => Sys2Proof.Machine.execAcasSpad f s
  | .afaddSpad f => Sys2Proof.Machine.execAfaddSpad f s
  | .lds f => Sys2Proof.Machine.execLds f s
  | .sts f => Sys2Proof.Machine.execSts f s
  | .fence f => Sys2Proof.Machine.execFence f s
  | .iinv f => Sys2Proof.Machine.execIinv f s
  | .clean f => Sys2Proof.Machine.execClean f s
  | .pref f => Sys2Proof.Machine.execPref f s
  | .tlbi f => Sys2Proof.Machine.execTlbi f s
  | .stand f => Sys2Proof.Machine.execStand f s
  | .unstand f => Sys2Proof.Machine.execUnstand f s
  | .mmab4 f => Sys2Proof.Machine.execMmab4 f s
  | .mmab6 f => Sys2Proof.Machine.execMmab6 f s
  | .mmab8 f => Sys2Proof.Machine.execMmab8 f s
  | .mmaf8 f => Sys2Proof.Machine.execMmaf8 f s
  | .mmah f => Sys2Proof.Machine.execMmah f s
  | .mmai8 f => Sys2Proof.Machine.execMmai8 f s
  | .mmag f => Sys2Proof.Machine.execMmag f s
  | .mmas f => Sys2Proof.Machine.execMmas f s
  | .azero f => Sys2Proof.Machine.execAzero f s
  | .ald f => Sys2Proof.Machine.execAld f s
  | .ast f => Sys2Proof.Machine.execAst f s
  | .mtrn f => Sys2Proof.Machine.execMtrn f s
  | .mprm f => Sys2Proof.Machine.execMprm f s
  | .mred f => Sys2Proof.Machine.execMred f s
  | .tcpy f => Sys2Proof.Machine.execTcpy f s
  | .tcpym f => Sys2Proof.Machine.execTcpym f s
  | .tgath f => Sys2Proof.Machine.execTgath f s
  | .cchn f => Sys2Proof.Machine.execCchn f s
  | .swinit f => Sys2Proof.Machine.execSwinit f s
  | .swadd f => Sys2Proof.Machine.execSwadd f s
  | .shape f => Sys2Proof.Machine.execShape f s
  | .gsync => Sys2Proof.Machine.execGsync s
  | .exit => Sys2Proof.Machine.execExit s
  | .yield => Sys2Proof.Machine.execYield s
  | .nop => Sys2Proof.Machine.execNop s
  | .syscall => Sys2Proof.Machine.execSyscall s
  | .eret => Sys2Proof.Machine.execEret s
  | .eretSupervisor => Sys2Proof.Machine.execEretSupervisor s
  | .fallowInstruction => Sys2Proof.Machine.execFallowInstruction s
  | .illegalMajor => Sys2Proof.Machine.execIllegalMajor s
  | .holdlimExpiry => Sys2Proof.Machine.execHoldlimExpiry s
  | .frameAccept => Sys2Proof.Machine.execFrameAccept s
  | .packwinExpiry => Sys2Proof.Machine.execPackwinExpiry s
  | .readyQueueAccept => Sys2Proof.Machine.execReadyQueueAccept s
  | .admissionPlacement => Sys2Proof.Machine.execAdmissionPlacement s
  | .timerExpiry => Sys2Proof.Machine.execTimerExpiry s
  | .ageing => Sys2Proof.Machine.execAgeing s
  | .prelimExpiry => Sys2Proof.Machine.execPrelimExpiry s
  | .preemptComplete => Sys2Proof.Machine.execPreemptComplete s
  | .signal => Sys2Proof.Machine.execSignal s
  | .sleepTimeout => Sys2Proof.Machine.execSleepTimeout s
  | .waitvReread => Sys2Proof.Machine.execWaitvReread s
  | .loadReply => Sys2Proof.Machine.execLoadReply s
  | .deferredFault => Sys2Proof.Machine.execDeferredFault s
  | .queueFaultRecord => Sys2Proof.Machine.execQueueFaultRecord s
  | .wcageExpiry => Sys2Proof.Machine.execWcageExpiry s
  | .acknowledge => Sys2Proof.Machine.execAcknowledge s
  | .homeRequest => Sys2Proof.Machine.execHomeRequest s
  | .iinvComplete => Sys2Proof.Machine.execIinvComplete s
  | .cleanComplete => Sys2Proof.Machine.execCleanComplete s
  | .tlbiComplete => Sys2Proof.Machine.execTlbiComplete s
  | .standReply => Sys2Proof.Machine.execStandReply s
  | .push => Sys2Proof.Machine.execPush s
  | .owedPush => Sys2Proof.Machine.execOwedPush s
  | .unstandAck => Sys2Proof.Machine.execUnstandAck s
  | .copyCommandStart => Sys2Proof.Machine.execCopyCommandStart s
  | .syncWordArrival => Sys2Proof.Machine.execSyncWordArrival s
  | .copyError => Sys2Proof.Machine.execCopyError s
  | .cchnRecord => Sys2Proof.Machine.execCchnRecord s
  | .matrixCommandStart => Sys2Proof.Machine.execMatrixCommandStart s
  | .matrixCommandComplete => Sys2Proof.Machine.execMatrixCommandComplete s
  | .nwinExpiry => Sys2Proof.Machine.execNwinExpiry s
  | .queueEdgeThreshold => Sys2Proof.Machine.execQueueEdgeThreshold s
  | .gapRecord => Sys2Proof.Machine.execGapRecord s
  | .hotPageWindowExpiry => Sys2Proof.Machine.execHotPageWindowExpiry s
  | .supervisorEntry => Sys2Proof.Machine.execSupervisorEntry s
  | .interrupt => Sys2Proof.Machine.execInterrupt s
  | .deviceDma => Sys2Proof.Machine.execDeviceDma s
  | .resume => Sys2Proof.Machine.execResume s
  | .kill => Sys2Proof.Machine.execKill s
  | .migrateCommand => Sys2Proof.Machine.execMigrateCommand s
  | .extract => Sys2Proof.Machine.execExtract s
  | .loadresume => Sys2Proof.Machine.execLoadresume s
  | .preempt => Sys2Proof.Machine.execPreempt s
  | .restore => Sys2Proof.Machine.execRestore s
  | .movepage => Sys2Proof.Machine.execMovepage s
  | .movepageComplete => Sys2Proof.Machine.execMovepageComplete s
  | .finishmove => Sys2Proof.Machine.execFinishmove s
  | .rqpop => Sys2Proof.Machine.execRqpop s
  | .ccdataRead => Sys2Proof.Machine.execCcdataRead s
  | .ccdataWrite => Sys2Proof.Machine.execCcdataWrite s
  | .cenWrite => Sys2Proof.Machine.execCenWrite s
  | .htenWrite => Sys2Proof.Machine.execHtenWrite s
  | .registerWrite => Sys2Proof.Machine.execRegisterWrite s
  | .identify => Sys2Proof.Machine.execIdentify s
  | .attest => Sys2Proof.Machine.execAttest s
  | .loadImage => Sys2Proof.Machine.execLoadImage s
  | .verify => Sys2Proof.Machine.execVerify s
  | .boot => Sys2Proof.Machine.execBoot s
  | .resetCold => Sys2Proof.Machine.execResetCold s
  | .resetWarm => Sys2Proof.Machine.execResetWarm s
  | .halt => Sys2Proof.Machine.execHalt s
  | .haltdrainExpiry => Sys2Proof.Machine.execHaltdrainExpiry s
  | .haltComplete => Sys2Proof.Machine.execHaltComplete s
  | .dump => Sys2Proof.Machine.execDump s
  | .telem => Sys2Proof.Machine.execTelem s
  | .health => Sys2Proof.Machine.execHealth s
  | .fwupdateRomPatch => Sys2Proof.Machine.execFwupdateRomPatch s
  | .fwupdateEnrol => Sys2Proof.Machine.execFwupdateEnrol s
  | .fwupdateRevoke => Sys2Proof.Machine.execFwupdateRevoke s
  | .fwupdateSvmin => Sys2Proof.Machine.execFwupdateSvmin s
  | .setpower => Sys2Proof.Machine.execSetpower s
  | .endpointReset => Sys2Proof.Machine.execEndpointReset s
  | .powerOn => Sys2Proof.Machine.execPowerOn s
  | .yagonEnable => Sys2Proof.Machine.execYagonEnable s
  | .channelTrained => Sys2Proof.Machine.execChannelTrained s
  | .flitReceive => Sys2Proof.Machine.execFlitReceive s
  | .negativeAcknowledge => Sys2Proof.Machine.execNegativeAcknowledge s
  | .cumulativeAcknowledge => Sys2Proof.Machine.execCumulativeAcknowledge s
  | .replayTimeout => Sys2Proof.Machine.execReplayTimeout s
  | .channelDrop => Sys2Proof.Machine.execChannelDrop s
  | .lockLost => Sys2Proof.Machine.execLockLost s
  | .parkChannel => Sys2Proof.Machine.execParkChannel s
  | .wakeTimeout => Sys2Proof.Machine.execWakeTimeout s
  | .peerLost => Sys2Proof.Machine.execPeerLost s
  | .peeradmit => Sys2Proof.Machine.execPeeradmit s
  | .stackInit => Sys2Proof.Machine.execStackInit s
  | .stackReady => Sys2Proof.Machine.execStackReady s
  | .stackZero => Sys2Proof.Machine.execStackZero s
  | .zeroDone => Sys2Proof.Machine.execZeroDone s
  | .mscEnable => Sys2Proof.Machine.execMscEnable s
  | .poisonpa => Sys2Proof.Machine.execPoisonpa s
  | .patrolScrub => Sys2Proof.Machine.execPatrolScrub s
  | .retrain => Sys2Proof.Machine.execRetrain s
  | .clockStretch => Sys2Proof.Machine.execClockStretch s
  | .powerStep => Sys2Proof.Machine.execPowerStep s
  | .thermalTrip => Sys2Proof.Machine.execThermalTrip s
  | .telemetrySample => Sys2Proof.Machine.execTelemetrySample s
  | .doorbell => Sys2Proof.Machine.execDoorbell s
  | .channelJoinsStripe => Sys2Proof.Machine.execChannelJoinsStripe s
  | .ucieLaneRepair => Sys2Proof.Machine.execUcieLaneRepair s
  | .laserWorn => Sys2Proof.Machine.execLaserWorn s
  | .surpriseLinkDown => Sys2Proof.Machine.execSurpriseLinkDown s

end Sys2Proof.Machine
end

