-- ==== Sys2Proof/Machine/Cycles.lean ====
section
/-! DEFINITION. One cycle of a core's clock (R4): what it counts for threads and groups (R17, R39, R40, R137, R287), for
write-combining entries and commands (R67), and the counter cells (R295 to R297); one cycle of a die's units. -/

namespace Sys2Proof.Machine

/-! ## Counter cells (R295 to R297) -/

/-- The count c of a selector in the current cycle: 7 is any, and an event without dies matches every selector. Event 0x0F
counts the records dropped where P1 is 1, and the records written under every other P1.
DEDUCED (unsafe): notes/assumptions/70.md. -/
def Core.count (c : Core) (sel : Nat) : Nat :=
  let any_ (p q : Nat) : Bool := p == 7 || q == 7 || p == q
  if sel / 64 == 0x3F then 0
  else
    let first (p q : Nat) : Bool := if sel / 64 == 0x0F then (p == 1) == (q == 1) else any_ p q
    (c.raw.filter fun r => r.1 / 64 == sel / 64 && first (sel / 8 % 8) (r.1 / 8 % 8) && any_ (sel % 8) (r.1 % 8)).foldl
      (fun n r => n + r.2) 0

/-- A run of d cycles added to its bin of cell k (R297). -/
def Core.binRun (c : Core) (k d : Nat) : Core :=
  let sh := bitsOf (c.reg (0xA20 + k)).toNat 62 59
  let edge (b : Nat) : Nat := bitsOf (c.reg (0xA60 + 2 * (k - 12) + b / 4)).toNat (16 * (b % 4) + 15) (16 * (b % 4))
  let b := ((List.range 7).find? fun b => d ≤ edge b * 2 ^ sh).getD 7
  let r := 0xA40 + 8 * (k - 12) + b
  c.setRegRaw r (d64 (((c.reg r).toNat + 1) % 2 ^ 32))

/-- One cell in the cycle that ends.
DEDUCED (unsafe): notes/assumptions/70.md. -/
def Core.cell (c : Core) (k : Nat) : Core :=
  let ctl := (c.reg (0xA20 + k)).toNat
  let sels := (List.range 4).map fun j => ctl / 2 ^ (12 * j) % 4096
  let sum := sels.foldl (fun n x => n + c.count x) 0
  let used := sels.filter fun x => x / 64 != 0x3F
  let add (c : Core) (n : Nat) : Core := c.setRegRaw (0xA30 + k) (c.reg (0xA30 + k) + d64 n)
  let last := get c.prev k 0
  let c := { c with prev := put k sum c.prev }
  match bitsOf ctl 50 48 with
  | 1 => add c sum
  | 2 => if !used.isEmpty && used.all fun x => c.count x != 0 then add c 1 else c
  | 3 => if sum != 0 && last == 0 then add c 1 else c
  | 4 => if bitsOf ctl 58 51 ≤ sum then add c 1 else c
  | 5 =>
    let run := get c.runs k 0
    if sum != 0 then { add c 1 with runs := put k (run + 1) c.runs }
    else if run == 0 then c
    else { c.binRun k run with runs := del k c.runs }
  | _ => c

/-- The cells at the end of a cycle, and the raw events cleared; a stretched cycle counts once (R390). -/
def Core.endCycle (c : Core) : Core :=
  let c := c.raise 0x00 7 7 1
  let c := if c.droop == 0 then c else { c.raise 0x01 7 7 1 with droop := c.droop - 1 }
  let on := (c.reg 0xA10).getLsbD 0
  let busy := c.csr.any fun r => 0xA20 ≤ r.1 && r.1 < 0xA30 && bitsOf r.2.toNat 50 48 != 0
  let c := if on || !busy then c else each (fun k c => c.cell k) (List.range 16) c
  { c with raw := [] }

/-! ## Threads and groups -/

/-- A cycle of a thread: its wait or hold counts it, else its path grows (R287); in supervisor mode neither.
DEDUCED (unsafe): notes/assumptions/69.md. -/
def Thread.cycle (t : Thread) (lat user : Bool) : Thread :=
  match t.run with
  | .waiting w b n =>
    let t := { t with run := .waiting w b (n + 1) }
    if b || !user then t else t.grow lat 1
  | .held n => { t with run := .held (n + 1) }
  | _ => if user then t.grow lat 1 else t

/-- A cycle of a group: GCYC in user mode (R39), the active or pending time (R35), a pre-emption request (R40), its
commands.
DEDUCED (unsafe): notes/assumptions/69.md. -/
def Group.cycle (g : Group) (lat user ready : Bool) : Group :=
  let tick := fun (c : MatCmd) => { c with cycles := c.cycles + 1 }
  { g with
    gcyc := if user then g.gcyc + 1 else g.gcyc, since := if g.active || ready then g.since + 1 else 0,
    preempt := g.preempt.map fun p => if p.taken then p else { p with cycles := p.cycles + 1 },
    queue := g.queue.map tick, members := g.members.map fun m => (m.1, m.2.cycle lat user) }

/-- Raw events of a SIMT core that stand for its state in the cycle (R295). -/
def State.levels (s : State) (core : Nat) : Core :=
  let c := s.core core
  if 4 ≤ dieOfCore core then c
  else
    let gs := s.groupsOn core
    let pend (q : Nat) : Bool := ((s.quadrant core q).filter fun g => g.2.active).length < 8 && (s.nextPending core q).isSome
    let quads := ((List.range 4).filter pend).length
    let blocked := (gs.filter fun g => g.2.members.any fun m => m.2.run == .allowance).length
    let arrays := (gs.filter fun g => g.2.queue.any fun x => x.onArr).length
    let at_ (n ev : Nat) (c : Core) : Core := if n == 0 then c else c.raise ev 7 7 n
    at_ quads 0x03 (at_ blocked 0x05 (at_ (min 4 arrays) 0x0B c))

/-- ONE CYCLE OF A CORE, or of a die-level engine: a timer expires in the first cycle it can (R39), a channel's token grows
(R287). Nothing counts while the package is halting or halted (R383, R384). -/
def State.coreCycle (s : State) (core : Nat) : State :=
  if s.frozen then s
  else
    let lat := 4 ≤ dieOfCore core
    let age := fun (e : WcEntry) => { e with age := e.age + 1 }
    let cmd := fun (x : ChanCmd) => { x with cycles := x.cycles + 1 }
    let c := s.levels core
    let grown := if lat then 11 * (c.cycles + 1) / 30 - 11 * c.cycles / 30 else 1
    let chan := fun (x : Nat × Chan) => (x.1, { x.2 with cmds := x.2.cmds.map cmd, token := growTok x.2.token grown })
    let c := ({ c with cycles := c.cycles + 1, window := c.window + 1, quad := 0, wc := c.wc.map age, chans := c.chans.map chan } : Core)
    let user (k : Nat) : Bool := !lat || (!isSup k && !(s.hwThread k).sup)
    let grp := fun (g : Nat × Group) =>
      (g.1, if coreOfSlot g.1 == core then (g.2.cycle lat (user g.1) (s.groupReady g.1 g.2)).ring lat else g.2)
    let req := fun (r : Req) => if coreOfSlot r.who.slot == core then { r with cycles := r.cycles + 1 } else r
    ({ s with groups := s.groups.map grp, reqs := s.reqs.map req } : State).setCore core c.endCycle

/-- What a home's path token grows by in a cycle of its die (R287): on an L-die by latency-core cycles (notes/assumptions/58.md).
DESIGN CHOICE (unsafe): notes/assumptions/58.md. -/
def State.homeGrowth (s : State) (d : Nat) : Nat :=
  let n := (s.core (coreKey d 63)).cycles
  if d < 4 then 1 else 11 * (n + 1) / 30 - 11 * n / 30

/-- One cycle of a die's own units: packing windows (R12), frames on their way and its homes' tokens (R287), the time of a
halt (R386), which alone passes while the package halts (R383, R384). -/
def State.dieCycle (s : State) (d : Nat) : State :=
  let grow := fun (t : Thread) => t.grow false 1
  let key := fun (k : OpenKey) => { k with cycles := k.cycles + 1, threads := k.threads.map grow }
  let formed := fun (f : Formed) => { f with key := { f.key with threads := f.key.threads.map grow } }
  let n := s.homeGrowth d
  if s.frozen then s.modDie d fun x =>
    { x with haltCycles := if s.ctrl.halting.isSome && !x.halted then x.haltCycles + 1 else x.haltCycles }
  else s.modDie d fun y =>
   let x := y.hotExpired
   { x with
    hotCycles := x.hotCycles + (if d < 4 then 1 else 0),
    tokens := growKind 3 n (withToken 3 0 x.tokens), keys := x.keys.map key, formed := x.formed.map formed }

end Sys2Proof.Machine
end

