-- ==== Sys2Proof/Machine/Turns.lean ====
section
/-! DEFINITION. The turns of a step: which is next, what stands before an instruction (its boundary, R154, its fetch, R97)
and after it (holds, GSYNC, polled waits, follow-ons, slots released), and the environment's turns. -/

namespace Sys2Proof.Machine

/-! ## What becomes of waits -/

/-- The polled waits of scratchpad words are read again (R142, R143). -/
def State.repollSlot (s : State) (slot : Nat) : State :=
  match s.group? slot with
  | none => s
  | some g => each (fun (m : Nat × Thread) s => match m.2.run with
      | .waiting (.waits _ _) _ _ | .waiting (.waitp _ _) _ _ => s.rePoll ⟨slot, m.1⟩
      | _ => s) g.members s

/-- A scratchpad region: its core, its first offset and its size. -/
structure Region where
  core : Nat
  lo   : Nat
  size : Nat
deriving DecidableEq, Repr

/-- [a, a + n), as a thread of a slot names it, holds a byte of a region. -/
def Region.hit (r : Region) (slot : Nat) (a : DWord) (n : Nat) : Bool :=
  !isLatency slot && r.size != 0 && clusterOf (coreOfSlot slot) == clusterOf r.core &&
  match spadDecode (coreOfSlot slot) a with
  | .ok (c, off) => c == r.core && off < r.lo + r.size && r.lo < off + n
  | .error _ => false

/-- A command of a channel names a byte of a region: its sync words, its near side, and before it starts its gather list
(R216). -/
def ChanCmd.names (x : ChanCmd) (r : Region) : Bool :=
  x.syncs.any (fun a => r.hit x.slot a 8) || match x.op with
    | .chain _ => false
    | .copy c =>
      let g := descGeo c.desc
      (castAddrs c.mcast c.near).any (fun a => r.hit x.slot a (max 1 ((g.map Geo.near).getD 1))) ||
      (!x.running && c.list.any fun a => r.hit x.slot a (4 * ((g.map fun g => at5 g.box 1).getD 0)))
/-- The table of a multiply by table: as it started, or as it stands now. -/
def State.tableOf (s : State) (asid : Nat) (x : MatCmd) : List Byte :=
  if !x.table.isEmpty then x.table
  else
    let rd (n : Nat) : List Byte := match s.nearRead { x.doer asid with prior := none } x.b n with
      | .ok bs _ => bs
      | _ => leBytes n 0
    rd (8 + 16 * min (leVal ((rd 8).take 4)) 32)
/-- A matrix command of an address space names a byte of a region: its operands, its whole table and the B tiles that it names, its
sync word (R216). -/
def State.matNames (s : State) (asid : Nat) (r : Region) (x : MatCmd) : Bool :=
  match x.instr with
  | none => false
  | some (i, f) =>
    let hit (y : DWord) (n : Nat) : Bool := r.hit x.issuer.slot y n
    (matRanges i f x.a x.b x.c).any (fun y => hit y.1 y.2.1) ||
    match i with
    | .mmag _ =>
      let tab := s.tableOf asid x
      hit x.b tab.length || (mmagRows tab).any fun y => hit (d64 y.addr) (matBSize i f)
    | _ => false

/-- An empty group's slot is held: a command it issued or one that names its region is not done, or a subscription of it
is not closed (R10, R213, R216). -/
def State.slotHeld (s : State) (slot : Nat) (g : Group) : Bool :=
  let r : Region := ⟨coreOfSlot slot, g.spbase.toNat % 2 ^ 22, 65536 * fpSpad g.footprint⟩
  !g.queue.isEmpty || !g.follows.isEmpty ||
  s.cores.any (fun c => c.2.chans.any fun ch => ch.2.cmds.any fun x => x.slot == slot || x.names r) ||
  s.groups.any (fun y => y.2.queue.any (s.matNames y.2.asid r) || y.2.follows.any fun f => s.matNames y.2.asid r f.cmd || r.hit y.1 f.sync 8) ||
  s.cores.any fun c => c.2.subs.any fun u => u.owner == slot

/-- The slot of a group whose last member has left is released once nothing holds it (R10). -/
def State.releaseSlot (s : State) (slot : Nat) : State :=
  match s.group? slot with
  | none => s
  | some g => if g.members.isEmpty && !s.slotHeld slot g then { s with groups := del slot s.groups } else s

/-- Everything that became due at a slot: an expired timer (R39), holds, GSYNCs, polled waits, follow-ons, its release. -/
def State.settleSlot (s : State) (slot : Nat) : State :=
  let s := match s.group? slot with
    | some g => if g.expired then s.setGroup slot (g.ring (isLatency slot)) else s
    | none => s
  ((((s.settleHolds slot none).settleGsync slot none).repollSlot slot).settleFollows slot).releaseSlot slot

/-- Everything that became due anywhere: nothing while the package halts or is halted (R383). -/
def State.settleAll (s : State) : State :=
  let s := s.noteHalt
  if s.ctrl.halting.isSome || s.ctrl.pkstate != 3 then s
  else
    let s := each (fun (g : Nat × Group) s => s.settleSlot g.1) s.groups s
    each (fun c s => s.schedule c) ((s.groups.map fun g => coreOfSlot g.1).eraseDups) s

/-! ## Issue -/

/-- The instruction issued: its group changed, or it is a jump that did not wait for a register (R34). -/
def State.didIssue (before after : State) (i : Instr) (slot : Nat) : Bool :=
  match i with
  | .bra _ | .jr _ | .jrs _ | .ret _ => match before.issuer, before.group? slot with
    | some u, some g => !before.outstanding slot (g.activeAt u.pc) (formOf ⟨u.g, 0, i⟩)
    | _, _ => false
  | _ => before.group? slot != after.group? slot

/-- After an instruction: it is counted as issued (R295, R35), and what became due is settled. -/
def State.settle (before after : State) (i : Instr) (slot : Nat) : State :=
  let lane := ((before.issuer.bind fun u => (before.group? slot).map fun g => g.activeAt u.pc).getD []).head?
  let s := if before.didIssue after i slot then
      (after.modGroup slot fun g => { g with issued := match lane with
        | some l => l :: g.issued.filter (· != l)
        | none => g.issued }).raise (coreOfSlot slot) 0x02 7 7 1
    else after
  s.settleAll

/-- The lowest lane of each subset of a group that can issue. -/
def Group.leads (g : Group) : List Nat :=
  (g.members.filter fun m => m.2.canIssue && (g.activeAt m.2.pc).head? == some m.1).map (·.1)

/-- The subset of a group whose turn it is: the next in round-robin order of their lowest lanes, one that waits for a
register passed over (R16, R34, R43). -/
def State.nextSubset (s : State) (slot : Nat) (g : Group) : Option Nat :=
  match g.leads with
  | [l] => some l
  | ls => match nextAfter g.turn (ls.filter fun l => (lookup l g.members).any fun t => !s.stalled slot g l t) with
    | some l => some l
    | none => nextAfter g.turn ls

/-- The active group of a quadrant whose turn it is, round-robin among those with a ready subset (R33). -/
def State.nextGroup (s : State) (core q : Nat) : Option Nat :=
  nextAfter (get (s.core core).turns q 0) (((s.quadrant core q).filter fun g => s.mayIssue g.1 g.2 && s.groupReady g.1 g.2).map (·.1))

/-- It is the turn of a slot and of a lane's subset: on a SIMT core each quadrant issues one subset in a core cycle, in the order
of the quadrants (R16, R33, R262). -/
def State.itsTurn (s : State) (slot : Nat) (g : Group) (lead : Option Nat) : Bool :=
  isLatency slot ||
  ((s.core (coreOfSlot slot)).quad ≤ slotOf slot % 4 && s.nextGroup (coreOfSlot slot) (slotOf slot % 4) == some slot &&
   s.nextSubset slot g == lead)
/-- A subset has had its turn. -/
def State.tookTurn (s : State) (slot : Nat) (lead : Option Nat) : State :=
  if isLatency slot then s
  else
    let q := slotOf slot % 4
    (s.modGroup slot fun g => { g with turn := lead.getD 32 }).modCore (coreOfSlot slot) fun c =>
      { c with turns := put q slot c.turns, quad := q + 1 }

/-- What stands before an instruction of a lane's subset: it may issue, it is its turn, no lane of the subset takes an event at
its boundary (R154), its word can be fetched and decodes; a word of a fallow major waits until every earlier instruction of
its threads is complete (R116). A latency core issues nothing while its thread's data are outstanding.
DESIGN CHOICE (safe): notes/assumptions/16.md.
DEDUCED (safe): notes/assumptions/47.md. -/
def State.prepare (s : State) (slot lane : Nat) : State ⊕ (Instr × State) :=
  match s.group? slot with
  | none => .inl s
  | some g => match lookup lane g.members with
    | none => .inl s
    | some t =>
      if !s.mayIssue slot g || !t.canIssue || (isLatency slot && s.readsOut ⟨slot, lane⟩) then .inl s
      else
        let lanes := g.activeAt t.pc
        let early := lanes.any fun l => s.readsOut ⟨slot, l⟩
        if !s.itsTurn slot g lanes.head? then .inl s
        else
        let s := s.tookTurn slot lanes.head?
        let (taken, s1) := s.boundary slot g lanes
        if taken then .inl s1.settleAll
        else match s.fetch slot g.asid (isSup slot) t.pc with
          | .error 0 => .inl s
          | .error c => .inl (s.faultLanes slot lanes c 0 (s.fetchDatum slot g.asid (isSup slot) t.pc c) t.pc).settleAll
          | .ok (w, s) => if isFallow w && early then .inl s else match decode w with
            | .error d => .inl (s.faultLanes slot lanes 1 d.code w t.pc).settleAll
            | .ok d => .inr ((forMode (isSup slot) d).i, { s with issuer := some ⟨slot, isSup slot, t.pc, w, d.g⟩, writer := slot })

/-- A row of the table that has no word: an event. -/
def isEvent (i : Instr) : Bool :=
  match i with
  | .eret | .eretSupervisor | .fallowInstruction | .illegalMajor => false
  | i => (encode ⟨⟨false, 0⟩, 0, i⟩).isNone

/-- What comes about in a halted package too: the mailbox, the requests of peers, the links, and the background work of R392
(R384, R385). -/
def inHalted (i : Instr) : Bool :=
  match i with
  | .identify | .attest | .loadImage | .verify | .boot | .resetCold | .resetWarm | .halt | .dump | .telem | .health
  | .fwupdateRomPatch | .fwupdateEnrol | .fwupdateRevoke | .fwupdateSvmin | .setpower | .endpointReset | .powerOn | .doorbell
  | .homeRequest | .channelTrained | .flitReceive | .negativeAcknowledge | .cumulativeAcknowledge | .replayTimeout
  | .channelDrop | .lockLost | .parkChannel | .wakeTimeout | .channelJoinsStripe | .peerLost | .patrolScrub | .retrain
  | .clockStretch | .powerStep | .thermalTrip | .telemetrySample | .ucieLaneRepair | .laserWorn | .surpriseLinkDown => true
  | _ => false
/-- What comes about beside that while a halt is under way: what was issued completes, and what it owes is recorded (R383,
R385). -/
def inHalting (i : Instr) : Bool :=
  match i with
  | .loadReply | .deferredFault | .queueFaultRecord | .wcageExpiry | .acknowledge | .iinvComplete | .cleanComplete
  | .tlbiComplete | .standReply | .push | .owedPush | .unstandAck | .copyCommandStart | .syncWordArrival | .copyError
  | .cchnRecord | .gapRecord | .haltdrainExpiry | .haltComplete | .stackReady | .zeroDone | .deviceDma => true
  | _ => false
/-- An event comes about now: any while the package is neither halting nor halted; else those that R383 to R385 let go on.
DEDUCED (unsafe): notes/assumptions/65.md. -/
def State.comes (s : State) (i : Instr) : Bool := !s.frozen || inHalted i || (s.ctrl.halting.isSome && inHalting i)

/-! ## The environment's turns -/

/-- A core caches a translation it may use (R343), with the CTXB it holds.
DEDUCED (unsafe): notes/assumptions/28.md. -/
def State.fillTlb (s : State) (core asid : Nat) (va : DWord) : State :=
  match s.spaceRoot (dieOfCore core) asid with
  | .error _ => s
  | .ok root => match s.walk va.toNat 4 root with
    | .error _ => s
    | .ok l =>
      let size := 2 ^ (12 + 9 * (l.level - 1))
      let e : TlbEntry := ⟨asid, s.ctxb core asid, va.toNat / size * size, d64 l.pte, size⟩
      s.modCore core fun c => { c with tlb := e :: c.tlb.filter fun x => !(x.asid == asid && x.va == e.va) }

/-- The PA of the n-th line ahead of a PC, if prefetch reaches it: every line up to it is memory that may be executed, outside
the old span of a range that is forwarded (R272). -/
def State.ahead (s : State) (slot asid : Nat) (pc : DWord) (n : Nat) : Option Nat :=
  let at_ (i : Nat) : DWord := d64 (pc.toNat / 64 * 64 + 64 * i)
  let line (i : Nat) : Option Nat := match s.fetchPa slot asid (isSup slot) (at_ i) with
    | .ok (t, _) => if t.kind == .local_ && s.forward (dieOfSlot slot) asid (at_ i) == at_ i then some t.pa else none
    | .error _ => none
  if (List.range n).all fun i => (line i).isSome then line n else none

/-- A core holds the n-th line of instruction words ahead of a thread's PC (R75, R272). -/
def State.fillCode (s : State) (slot lane n : Nat) : State :=
  match (s.group? slot).bind fun g => ((lookup lane g.members).bind fun t => s.ahead slot g.asid t.pc n) with
  | none => s
  | some pa =>
    let words := (List.range 8).map fun i => (pa + 8 * i, d64 (leVal (memRead s.mem (pa + 8 * i) 8)))
    s.modCore (coreOfSlot slot) fun c => { c with icache := each (fun w m => put w.1 w.2 m) words c.icache }

/-- A core, or a die-level engine of an L-die, that has a clock (R1 to R3). -/
def clocked (c : Nat) : Bool := coreOk (dieOfCore c) (unitOf c) || (lDie (dieOfCore c) && 48 ≤ unitOf c)

/-- An uncorrectable error comes about in a 64-byte unit of a scratchpad, or in a tile (R152, R234). -/
def State.spoil (s : State) (core off : Nat) : State :=
  if 0x300000 ≤ off || 4 ≤ dieOfCore core || !clocked core then s
  else s.modCore core fun c => { c with spoiled := off / 64 * 64 :: c.spoiled.filter (· != off / 64 * 64) }
def State.spoilTile (s : State) (slot n : Nat) : State :=
  s.modGroup slot fun g => { g with tiles := g.tiles.map fun t => (t.1, if t.1 == n then { t.2 with ecc := true } else t.2) }

/-- A die's caches give up a line, which takes its attribution with it (R288, R344). -/
def State.evict (s : State) (die pa : Nat) : State :=
  let drop := fun (x : Nat × Die) => (x.1, { x.2 with dir := del (8 * lineOf pa + die) x.2.dir, attrs := del (lineOf pa) x.2.attrs })
  { s with dies := s.dies.map drop }

/-- The turns that are neither an instruction nor an event of the table, of cores that exist (R1 to R3); in HALTED neither walks,
prefetch, caches nor arrays do anything (R384, R386). A die's units pass a cycle as unit 63, beside the engine 63 of an L-die.
DESIGN CHOICE (safe): notes/assumptions/16.md.
DESIGN CHOICE (unsafe): notes/assumptions/68.md. -/
def State.environment (s : State) (t : Turn) : State :=
  let live := s.ctrl.pkstate != 4
  match t with
  | .cycle c =>
    let s := if unitOf c == 63 && dieOfCore c < 6 then s.dieCycle (dieOfCore c) else s
    if clocked c && !s.frozen then (s.coreCycle c).schedule c else s
  | .fillTlb c a va => if clocked c && live then s.fillTlb c a va else s
  | .dropTlb c n => if clocked c && live then s.modCore c fun x => { x with tlb := x.tlb.eraseIdx n } else s
  | .fillCode k l n => if live then s.fillCode k l n else s
  | .dropCode c pa =>
    if clocked c && live then s.modCore c fun x => { x with icache := x.icache.filter fun w => w.1 / 64 != pa / 64 } else s
  | .hostWrite o bs => s.hostWrite o bs
  | .hostRead o n => s.hostRead o n
  | .configRead => s.configRead
  | .mailFails n => s.mailFails n
  | .hostMem a bs => { s with hostMem := memWrite s.hostMem a bs }
  | .peerMem p a bs x => { s with writer := peerSlot p }.writePeer p (cellsAt a bs) (x.filter fun y => agentOk p y.agent)
  | .assign r a => s.modCtrl fun c => { c with iommu := put (r % 65536) (a % 65536) c.iommu }
  | .tick => (each (fun d s => s.fabricCycle d) [0, 1, 2, 3] s).lossCycle
  | .pace p => s.setPace p
  | .spoil c o => if live then s.spoil c o else s
  | .spoilTile k n => if live then s.spoilTile k n else s
  | .evict d pa => if live then s.evict d pa else s
  | .flight p n => s.modCtrl fun c => { c with flight := put (p % 64) n c.flight }
  | .msi d l h => s.signalMsi d l h
  | .bifurcate d p on => s.bifurcate d p on
  | .peerDma a b r va => s.peerDma a b r va
  | .controllerMs => s.controllerMs
  | .sampleRecords n => s.sampleRecords n
  | .issue _ _ | .event _ _ => s

/-! ## Which turn is next -/

def slotIdOf (k : Nat) : SlotId := ⟨dieOfSlot k, unitOf (coreOfSlot k), slotOf k⟩
def laneIdOf (k l : Nat) : LaneId := ⟨dieOfSlot k, unitOf (coreOfSlot k), slotOf k, l⟩
def coreIdOf (c : Nat) : CoreId := ⟨dieOfCore c, unitOf c⟩

/-- The events that may be due for a member. -/
def memberTurns (k : Nat) (m : Nat × Thread) : List Turn :=
  let l := Subject.lane (laneIdOf k m.1)
  (if m.2.deferred.isSome then [.event .deferredFault l] else []) ++
  match m.2.run with
  | .migrating _ _ _ => [.event .frameAccept l, .event .readyQueueAccept l]
  | .waiting (.waitv _ _ _ _ _ _ _) _ _ => [.event .waitvReread l]
  | .waiting (.sleep _ _) _ _ => [.event .sleepTimeout l]
  | .held _ => [.event .holdlimExpiry (.meet (slotIdOf k) m.2.meet)]
  | .maint (.iinv _ _ _) => [.event .iinvComplete l]
  | .maint (.clean _ _) => [.event .cleanComplete l]
  | .maint (.tlbi _ _ _ _) => [.event .tlbiComplete l]
  | _ => []

/-- The events that may be due for a group. -/
def groupTurns (x : Nat × Group) : List Turn :=
  let g := Subject.slot (slotIdOf x.1)
  (if x.2.expired then [.event .timerExpiry g] else []) ++
  (if x.2.queue.isEmpty then [] else [.event .matrixCommandStart g, .event .matrixCommandComplete g]) ++
  (if x.2.preempt.isSome then [.event .prelimExpiry g, .event .preemptComplete g] else []) ++
  x.2.members.flatMap (memberTurns x.1)

/-- The events that may be due for a core. -/
def coreTurns (x : Nat × Core) : List Turn :=
  let c := Subject.core (coreIdOf x.1)
  (if x.2.pushq.isEmpty && !x.2.subs.any (·.lost) then [] else [.event .push c]) ++
  ((x.2.subs.map (·.homeDie)).eraseDups.map fun h => .event .owedPush (.coreIdx (coreIdOf x.1) h)) ++
  (if x.2.wc.isEmpty then [] else [.event .wcageExpiry (.coreIdx (coreIdOf x.1) 0)]) ++
  x.2.chans.flatMap fun ch =>
    let s := Subject.chan ⟨dieOfCore x.1, unitOf x.1, ch.1⟩
    if ch.2.cmds.isEmpty then [] else
      [.event .copyCommandStart s, .event .syncWordArrival s, .event .copyError s, .event .cchnRecord s]

/-- A plan that fills the cores of a die in turn, from one of them on: on all allowed dies, unit by unit, or on one. -/
def defaultPlan (h : List Byte) (first : Nat) : List CoreId :=
  let ds := hdrDies h
  (List.range (groupsIn h (hdrCount h))).map fun i =>
    ⟨ds.getD (((if first < 128 then i / dieGroups h else 0) + first / 32) % (max 1 ds.length)) 0, (i / coreGroups h + first) % 32⟩

/-- The events that may be due for a die. -/
def dieTurns (x : Nat × Die) : List Turn :=
  (if x.2.keys.isEmpty then [] else [.event .packwinExpiry (.dieIdx x.1 0), .cycle (coreKey x.1 63)]) ++
  (if x.2.formed.isEmpty then [] else [.event .admissionPlacement (.die x.1)]) ++
  (if x.2.held.isEmpty then [] else [.event .queueFaultRecord (.die x.1)]) ++
  (if x.2.moves.any (fun m => !m.done) then [.event .movepageComplete (.dieIdx x.1 0)] else [])

/-- The row of a mailbox command. -/
def mailTurns (c : Ctrl) : List Turn :=
  match c.cmd with
  | none => []
  | some (_, b) =>
    let rows : List Instr := match cmdOp b with
      | 0x01 => [.identify]
      | 0x02 => [.attest]
      | 0x03 => [.loadImage]
      | 0x04 => [.verify]
      | 0x05 => [.boot]
      | 0x06 => [.resetCold, .resetWarm]
      | 0x07 => [.halt]
      | 0x08 => [.dump]
      | 0x09 => [.telem]
      | 0x0A => [.health]
      | 0x0B => [.fwupdateRomPatch, .fwupdateEnrol, .fwupdateRevoke, .fwupdateSvmin]
      | _ => [.setpower]
    rows.map fun i => .event i .nothing

/-- The subsets whose turn it is: (slot, lowest lane) pairs. -/
def State.readySlots (s : State) : List (Nat × Nat) :=
  s.groups.filterMap fun (k, g) =>
    let l := s.nextSubset k g
    if s.mayIssue k g && s.itsTurn k g l then l.map fun l => (k, l) else none

/-- What a limit or a level makes due: ageing (R35), the end of a numeric window (R263), gap records (R292), the end of a
halt's drain (R383), a die's interrupt for the hardware thread INTTGT names (R338), the loss of a peer (R368). -/
def State.dueTurns (s : State) : List Turn :=
  (s.ctrl.down.filter fun x => s.lossDue x.1).map (fun x => .event .peerLost (.peer x.1)) ++
  (s.groups.flatMap fun x =>
    if !isLatency x.1 && !x.2.active && s.aged (coreOfSlot x.1) x.2 && x.2.members.any (·.2.canIssue) then
      [.event .ageing (.slot (slotIdOf x.1))] else []) ++
  (s.cores.flatMap fun x =>
    (if x.2.window < (x.2.reg 0x805).toNat then [] else [.event .nwinExpiry (.core (coreIdOf x.1))]) ++ s.queueTurns x.1 ++
    (if (x.2.ring 0xA01).gapDue then [.event .gapRecord (.core (coreIdOf x.1))] else [])) ++
  (List.range 6).flatMap fun d =>
    let hw := (agentWho (s.dreg d 0x0C0).toNat).slot
    (if (s.die d).ring.gapDue then [.event .gapRecord (.die d)] else []) ++
    (if !s.halting || (s.die d).haltCycles < (s.dreg d 0x408).toNat then [] else [.event .haltdrainExpiry (.die d)]) ++
    (if s.intPend d == 0 || !isLatency hw then [] else [.event .interrupt (.slot (slotIdOf hw))])

/-- The turns that can come about by themselves, the subsets that can issue first.
DESIGN CHOICE (safe): notes/assumptions/16.md. -/
def State.choices (s : State) : List Turn :=
  (s.readySlots.map fun x => .issue x.1 x.2) ++ s.dueTurns ++
  (if s.reqs.isEmpty then [] else
    [.event .loadReply (.idx s.turnNo), .event .acknowledge (.idx s.turnNo), .event .standReply (.idx s.turnNo),
     .event .unstandAck (.idx s.turnNo)]) ++
  s.groups.flatMap groupTurns ++ s.cores.flatMap coreTurns ++ s.dies.flatMap dieTurns ++ mailTurns s.ctrl ++
  (match s.firstCohort with
    | some (_, co, _) => [.event .admissionPlacement (.plan (defaultPlan co.header ((s.turnNo / 32 + s.turnNo) % 256)))]
    | none => []) ++
  (if s.ctrl.halting.isSome then [.event .haltComplete .nothing] else []) ++
  ((s.groups.map fun g => coreOfSlot g.1) ++ (s.cores.filter fun c => 48 ≤ unitOf c.1 && c.2.chans.any fun x => !x.2.cmds.isEmpty).map
    (·.1)).eraseDups.map .cycle ++ [.tick]

/-- The next turn: the agenda's first, or one of the choices, in rotation.
DESIGN CHOICE (safe): notes/assumptions/16.md. -/
def State.nextTurn (s : State) : Turn × State :=
  let s1 := { s with turnNo := s.turnNo + 1, writer := everyone }
  match s.agenda with
  | t :: ts => (t, { s1 with agenda := ts })
  | [] => (s.choices.getD (s.turnNo % s.choices.length) .tick, s1)

end Sys2Proof.Machine
end

