-- ==== Sys2Proof/Machine/Step.lean ====
section
/-! DEFINITION. One step: the turn that is next (the agenda's first, or the model's own choice), and what surrounds the
instruction or event it runs. -/

namespace Sys2Proof.Machine

/-- One step of the package. A turn that issues an instruction runs it and settles what it completed; an event turn
runs the event's row, where it comes about (R384, R385); the other turns are the environment's. What the turn's writes replaced
is kept where the pace says so.
DESIGN CHOICE (safe): notes/assumptions/16.md. -/
def step (s : State) : Host.Outcome State Fault Refusal :=
  match s.nextTurn with
  | (.issue slot lane, s0) =>
    match s0.prepare slot lane with
    | .inl s1 => .next (s.remember s1)
    | .inr (i, s1) =>
      match exec i s1 with
      | .next s2 => .next (s.remember (s1.settle s2 i slot))
      | .fault r => .fault r
      | .refused r => .refused r
  | (.event i sub, s0) =>
    if isEvent i && subjectOk sub && s.comes i then
      match exec i { s0 with subject := sub, issuer := none } with
      | .next s1 => .next (s.remember s1.settleAll)
      | .fault r => .fault r
      | .refused r => .refused r
    else .next s0
  | (t, s0) => .next (s.remember (s0.environment t))

/-- `s` with an instruction's bytes (the first in its lowest bits, every bit above `nbits` zero) where the next step
fetches: a program loaded, verified and booted from outside (R331, R332; notes/assumptions/6.md).
DESIGN CHOICE (safe): notes/assumptions/6.md. -/
def State.withFetchWord (s : State) (_nbits w : Nat) : State := s.place (leBytes 8 w)

end Sys2Proof.Machine
end

