-- ==== Sys2Proof/Safety.lean ====
section
/-! DEFINITION. The words that statements about the machine are written in: when an instruction is at issue for a subset,
what a lane's thread holds afterwards, what stands, and what an exact result rounded once is. -/

namespace Sys2Proof.Claims
open Machine

abbrev Answer := Host.Outcome State Fault Refusal

/-- Instruction `i` is at issue for the subset of `u` in group `g`: it passes the checks of R97, R26 and R122 that depend
on the thread, and no register it names has a producer outstanding (R34). -/
structure AtIssue (s : State) (i : Instr) (u : Issuer) (g : Group) : Prop where
  issuer : s.issuer = some u
  group : s.group? u.slot = some g
  legal : gate i (formOf ⟨u.g, 0, i⟩) u.sup (isLatency u.slot) g.footprint = none
  ready : s.outstanding u.slot (g.activeAt u.pc) (formOf ⟨u.g, 0, i⟩) = false

/-- The state whose registers the instruction reads: q is undefined first where a source was last written by a load
(R88). -/
def entry (s : State) (i : Instr) (u : Issuer) (g : Group) : State :=
  s.dropQs u.slot (volatileLanes g u.g (g.activeAt u.pc) (formOf ⟨u.g, 0, i⟩))

/-- The group as the instruction finds it (its members' q apart, it is `g`). -/
def groupAt (s : State) (i : Instr) (u : Issuer) (g : Group) : Group := ((entry s i u g).group? u.slot).getD g

/-- Lane `l` issues the instruction with thread `t`. -/
structure LaneAt (s : State) (i : Instr) (u : Issuer) (g : Group) (l : Nat) (t : Thread) : Prop where
  mem : l ∈ g.activeAt u.pc
  thread : (entry s i u g).thread? ⟨u.slot, l⟩ = some t

/-- Nothing but threads of the issuing lanes changed: memory, scratchpads, registers of cores and dies, requests and
every other group stand, and so does all of the group but those members. -/
structure OnlyLanes (s s' : State) (u : Issuer) (g : Group) : Prop where
  rest : s' = { s with groups := s'.groups, freeNo := s'.freeNo }
  others : ∀ k, k ≠ u.slot → s'.group? k = s.group? k
  same : ∃ m, s'.group? u.slot = some { g with members := m }
  members : ∀ l, l ∉ g.activeAt u.pc → s'.thread? ⟨u.slot, l⟩ = s.thread? ⟨u.slot, l⟩

/-- What register `j` of a thread holds: a known value, or none that is defined (R88, R89). -/
def holds (t : Thread) (j : Nat) : Val 32 := get t.regs j (.known 0)

/-- What s-register `j` of a group holds. -/
def sholds (g : Group) (j : Nat) : Val 64 := get g.sregs j (.known 0)

/-- A thread that went on: its registers, with the values they held before (R89), the marks of what a load wrote, its PC with
loop contexts and hold may differ; its guards, its CSRs and everything else stand. -/
def WentOn (t t' : Thread) : Prop :=
  t' = { t with regs := t'.regs, loaded := t'.loaded, pc := t'.pc, run := t'.run, lc0 := t'.lc0, lc1 := t'.lc1,
                held := t'.held }

/-- The thread went on to the PC that R131 gives. -/
def NextPc (t t' : Thread) : Prop := t'.pc = t.loopNext.2

/-- The only register written is `d`, with `v`; index 0 discards it (R84, R85). -/
def Wrote32 (d : BitVec 9) (v : Word) (t t' : Thread) : Prop :=
  (∀ j, holds t' j = if d ≠ 0 ∧ j = d.toNat then .known v else holds t j) ∧ WentOn t t' ∧ NextPc t t'

/-- The only registers written are the pair at `d`, low half first; index 0 discards both (R86). -/
def Wrote64 (d : BitVec 9) (v : DWord) (t t' : Thread) : Prop :=
  (∀ j, holds t' j = if d ≠ 0 ∧ j = d.toNat then .known (v.setWidth 32)
    else if d ≠ 0 ∧ j = d.toNat + 1 then .known ((v >>> 32).setWidth 32) else holds t j) ∧ WentOn t t' ∧ NextPc t t'

/-- Every lane of the subset whose guard holds ends as `P` says, every other completes without effect (R6). -/
def EachLane (s : State) (i : Instr) (u : Issuer) (g : Group) (s' : State) (P : Nat → Thread → Thread → Prop) :
    Prop :=
  ∀ l t, LaneAt s i u g l t → ∃ t', s'.thread? ⟨u.slot, l⟩ = some t' ∧
    if t.guardHolds u.g then P l t t' else t' = t.advance (isLatency u.slot)

/-- Instruction `i` completes wherever it is at issue, writes `v` to the 32-bit register `d` in every lane whose guard
holds, and changes nothing else. -/
def Gives32 (i : Instr) (d : BitVec 9) (v : Group → Thread → Word) : Prop :=
  ∀ s u g, AtIssue s i u g → ∃ s', exec i s = .next s' ∧ OnlyLanes s s' u g ∧
    EachLane s i u g s' fun _ t t' => Wrote32 d (v (groupAt s i u g) t) t t'

/-- As `Gives32`, for a pair. -/
def Gives64 (i : Instr) (d : BitVec 9) (v : Group → Thread → DWord) : Prop :=
  ∀ s u g, AtIssue s i u g → ∃ s', exec i s = .next s' ∧ OnlyLanes s s' u g ∧
    EachLane s i u g s' fun _ t t' => Wrote64 d (v (groupAt s i u g) t) t t'

/-- A two-source instruction of width W: at 32 bits on registers, at 64 on pairs (R156). -/
def GivesBin (i : FmtA → Instr) (f32 : Word → Word → Word) (f64 : DWord → DWord → DWord) : Prop :=
  ∀ f : FmtA, (f.var = 0 → Gives32 (i f) f.d fun g t => f32 (src32 g t f.sA f.a) (src32 g t f.sB f.b)) ∧
    (f.var = 1 → Gives64 (i f) f.d fun g t => f64 (src64 g t f.sA f.a) (src64 g t f.sB f.b))

/-- A one-source instruction of width W. -/
def GivesUn (i : FmtA → Instr) (f32 : Word → Word) (f64 : DWord → DWord) : Prop :=
  ∀ f : FmtA, (f.var = 0 → Gives32 (i f) f.d fun g t => f32 (src32 g t f.sA f.a)) ∧
    (f.var = 1 → Gives64 (i f) f.d fun g t => f64 (src64 g t f.sA f.a))

/-- The only guard written is `d`, with `x`; g0 discards it (R84). -/
def WroteGuard (d : Nat) (x : Bool) (t t' : Thread) : Prop :=
  (∀ k < 8, t'.guard k = if k ≠ 0 ∧ k = d then x else t.guard k) ∧
  t' = { t with guards := t'.guards, loaded := t'.loaded, pc := t'.pc, run := t'.run, lc0 := t'.lc0, lc1 := t'.lc1 } ∧
  NextPc t t'

/-- P of R167 and R170: the lanes of Active(G) whose guard holds, in order. -/
def pSet (s : State) (i : Instr) (u : Issuer) (g : Group) : List Nat :=
  (g.activeAt u.pc).filter fun l => ((entry s i u g).thread? ⟨u.slot, l⟩).any (·.guardHolds u.g)

/-- A source as lane `k` reads it, at 32 or 64 bits. -/
def valueIn (s : State) (i : Instr) (u : Issuer) (g : Group) (wide sf : Bool) (r : BitVec 9) (k : Nat) : DWord :=
  ((entry s i u g).thread? ⟨u.slot, k⟩).elim 0 fun t => srcW wide (groupAt s i u g) t sf r

/-- A guard as lane `k` reads it. -/
def guardIn (s : State) (i : Instr) (u : Issuer) (g : Group) (r k : Nat) : Bool :=
  ((entry s i u g).thread? ⟨u.slot, k⟩).any (·.guard r)

/-- A mask with a bit for each lane of a list. -/
def maskOf (ls : List Nat) : Word := BitVec.ofNat 32 ((ls.map fun l => 2 ^ l).sum)

/-- A result of one register or of a pair. -/
def WroteW (wide : Bool) (d : BitVec 9) (v : DWord) (t t' : Thread) : Prop :=
  if wide then Wrote64 d v t t' else Wrote32 d (v.setWidth 32) t t'

/-- R14: Active(G) is Members(G) and every guard holds. -/
def Whole (s : State) (i : Instr) (u : Issuer) (g : Group) : Prop :=
  g.activeAt u.pc ≠ [] ∧ g.activeAt u.pc = g.members.map (·.1) ∧ pSet s i u g = g.activeAt u.pc

/-- A shared write by a whole group: s-register `d` takes `v` of the lowest lane's thread, every lane goes on, nothing
else changes (R14, R173). -/
def GivesShared (i : Instr) (d : BitVec 9) (v : State → Issuer → Group → Thread → DWord) : Prop :=
  ∀ s u g l t, AtIssue s i u g → Whole s i u g → (g.activeAt u.pc).head? = some l → LaneAt s i u g l t →
    ∃ s' g', exec i s = .next s' ∧ s' = { s with groups := s'.groups, freeNo := s'.freeNo } ∧
      (∀ k, k ≠ u.slot → s'.group? k = s.group? k) ∧ s'.group? u.slot = some g' ∧
      g' = { g with members := g'.members, sregs := g'.sregs, sLoaded := g'.sLoaded, sHeld := g'.sHeld } ∧
      (∀ j, sholds g' j = if d ≠ 0 ∧ j = d.toNat then .known (v s u (groupAt s i u g) t) else sholds g j) ∧
      ∀ k x, LaneAt s i u g k x → lookup k g'.members = some (x.advance (isLatency u.slot))

/-- The subset is the one lane `l`, whose thread is `t` and whose guard holds. -/
structure Solo (s : State) (i : Instr) (u : Issuer) (g : Group) (l : Nat) (t : Thread) : Prop extends AtIssue s i u g where
  lanes : g.activeAt u.pc = [l]
  thread : (entry s i u g).thread? ⟨u.slot, l⟩ = some t
  holds : t.guardHolds u.g = true

/-- The thread has nothing on its way: no cause owed, no write-combining entry, no request in flight (R67, R69, R70). -/
structure Settled (s : State) (w : Who) (t : Thread) : Prop where
  owed : t.owed = none
  entries : s.ownsEntry w = false
  writes : s.writesOut w = false
  reads : s.readsOut w = false

/-- Accesses are performed promptly and in issue order: the model's own fields for the other orders of R45 to R50
(notes/assumptions/79.md) are at rest, as they are at reset. -/
structure Prompt (s : State) : Prop where
  pace : s.pace = .prompt
  past : s.past = []
  guards : s.guards = []

/-- A group but for its matrix commands: those queued, and follow-ons not triggered yet. -/
def queuesApart (g : Option Group) : Option Group := g.map fun g => { g with queue := [], follows := [] }

/-- The keys of a map rise strictly. -/
def KeysRise {α : Type} (m : Map α) : Prop := (m.map (·.1)).Pairwise (· < ·)

/-- Only groups, and the counter of free values, changed. -/
def OnlyGroups (s s' : State) : Prop := s' = { s with groups := s'.groups, freeNo := s'.freeNo }

/-- The thread goes to `pc`: ready there, or, on a SIMT core at its meeting value with no trap or signal pending that it
takes first, held (R17). -/
def WentTo (slot : Nat) (pc : DWord) (t t' : Thread) : Prop :=
  t'.pc = pc ∧ (isLatency slot = true ∨ pc ≠ t.meet → t'.run = .ready) ∧
    (isLatency slot = false → pc = t.meet → t'.trapDue = false → t'.run = .held 0)

/-! ## Real arithmetic (R176, R251) -/

/-- The value of a finite number. -/
def ratOf : Machine.Num → ℚ
  | .fin n m e => (if n then -1 else 1) * m * (2 : ℚ) ^ e
  | _ => 0

/-- A nonzero exact value `x` rounded once into a format by the model's Round, from a magnitude that is exactly |x|, or,
marked sticky, just below it with at least two digits more than the format has. Zero takes the sign `zneg`. -/
def Exact (f : FpFmt) (mode : RMode) (ftz : Bool) (x : ℚ) (zneg : Bool) (out : Nat × Flags) : Prop :=
  if x = 0 then out = (f.signed zneg 0, {})
  else ∃ (m : Nat) (e : Int) (st : Bool), out = f.round mode ftz (decide (x < 0)) m e st ∧
    (st = false → |x| = m * (2 : ℚ) ^ e) ∧
    (st = true → 2 ^ (f.fw + 2) ≤ m ∧ m * (2 : ℚ) ^ e < |x| ∧ |x| < (m + 1) * (2 : ℚ) ^ e)

/-- a + b: NaN if either is, invalid for opposite infinities, else the exact sum; a zero sum is negative if both are,
or in rounding down if one is (R251). -/
def SumOf (f : FpFmt) (mode : RMode) (z : Bool) (a b : Machine.Num) (out : Nat × Flags) : Prop :=
  if a.isNan ∨ b.isNan then out = (f.nan, {})
  else if a.isInf ∧ b.isInf ∧ a.neg? ≠ b.neg? then out = (f.nan, { nv := true })
  else if a.isInf then out = (f.signed a.neg? f.infBits, {})
  else if b.isInf then out = (f.signed b.neg? f.infBits, {})
  else Exact f mode z (ratOf a + ratOf b) (if a.neg? = b.neg? then a.neg? else mode == .rdn) out

/-- a × b: invalid for ∞ × 0. -/
def ProductOf (f : FpFmt) (mode : RMode) (z : Bool) (a b : Machine.Num) (out : Nat × Flags) : Prop :=
  if a.isNan ∨ b.isNan then out = (f.nan, {})
  else if (a.isInf ∧ b.isZero) ∨ (a.isZero ∧ b.isInf) then out = (f.nan, { nv := true })
  else if a.isInf ∨ b.isInf then out = (f.signed (a.neg? != b.neg?) f.infBits, {})
  else Exact f mode z (ratOf a * ratOf b) (a.neg? != b.neg?) out

/-- a × b + c, rounded once; ∞ × 0 is invalid whatever c holds (R176). -/
def FusedOf (f : FpFmt) (mode : RMode) (z : Bool) (a b c : Machine.Num) (out : Nat × Flags) : Prop :=
  let n := a.neg? != b.neg?
  if ¬ a.isNan ∧ ¬ b.isNan ∧ ((a.isInf ∧ b.isZero) ∨ (a.isZero ∧ b.isInf)) then out = (f.nan, { nv := true })
  else if a.isNan ∨ b.isNan ∨ c.isNan then out = (f.nan, {})
  else if a.isInf ∨ b.isInf then
    out = if c.isInf ∧ c.neg? ≠ n then (f.nan, { nv := true }) else (f.signed n f.infBits, {})
  else if c.isInf then out = (f.signed c.neg? f.infBits, {})
  else Exact f mode z (ratOf a * ratOf b + ratOf c) (if n = c.neg? then n else mode == .rdn) out

/-- a ÷ b (R178). -/
def QuotientOf (f : FpFmt) (mode : RMode) (z : Bool) (a b : Machine.Num) (out : Nat × Flags) : Prop :=
  let n := a.neg? != b.neg?
  if a.isNan ∨ b.isNan then out = (f.nan, {})
  else if (a.isInf ∧ b.isInf) ∨ (a.isZero ∧ b.isZero) then out = (f.nan, { nv := true })
  else if a.isInf then out = (f.signed n f.infBits, {})
  else if b.isInf then out = (f.signed n 0, {})
  else if b.isZero then out = (f.signed n f.infBits, { dz := true })
  else Exact f mode z (ratOf a / ratOf b) n out

/-- √a (R178): the magnitude handed to Round is the root's, exact or sticky. -/
def RootOf (f : FpFmt) (mode : RMode) (z : Bool) (a : Machine.Num) (out : Nat × Flags) : Prop :=
  if a.isNan then out = (f.nan, {})
  else if a.isZero then out = (f.signed a.neg? 0, {})
  else if a.neg? then out = (f.nan, { nv := true })
  else if a.isInf then out = (f.infBits, {})
  else ∃ (m : Nat) (e : Int) (st : Bool), out = f.round mode z false m e st ∧
    (st = false → ratOf a = (m * (2 : ℚ) ^ e) ^ 2) ∧
    (st = true → 2 ^ (f.fw + 2) ≤ m ∧ (m * (2 : ℚ) ^ e) ^ 2 < ratOf a ∧ ratOf a < ((m + 1) * (2 : ℚ) ^ e) ^ 2)

/-- An input as arithmetic reads it: flushed under FTZ, then decoded (R176). -/
def inputOf (f : FpFmt) (t : Thread) (x : Nat) : Machine.Num := f.decode (f.flush (ftzOf t.fpcr) x).1

/-- The flags of reading inputs: NV for a signalling NaN, UF for a flush (R176). -/
def readFlags (f : FpFmt) (t : Thread) (xs : List Nat) : Flags :=
  { nv := xs.any fun x => (inputOf f t x).isSnan, uf := ftzOf t.fpcr && xs.any f.subnormal }

/-- A numeric instruction changes threads of the issuing lanes and, through counted events (R262 to R264), the numeric
counters of the core, the die's interrupt bit and the event queue: nothing else. -/
structure OnlyNumeric (s s' : State) (u : Issuer) (g : Group) : Prop where
  rest : s' = { s with groups := s'.groups, freeNo := s'.freeNo, cores := s'.cores, dies := s'.dies, ctrl := s'.ctrl }
  others : ∀ k, k ≠ u.slot → s'.group? k = s.group? k
  same : ∃ m, s'.group? u.slot = some { g with members := m }
  members : ∀ l, l ∉ g.activeAt u.pc → s'.thread? ⟨u.slot, l⟩ = s.thread? ⟨u.slot, l⟩

/-- A numeric result written: the register or pair, its flags ORed into FPSR (R95), SRSEED as given. -/
def WroteNum (wide : Bool) (d : BitVec 9) (r : Nat) (fl : Flags) (seed : Word) (t t' : Thread) : Prop :=
  (∀ j, holds t' j = if d ≠ 0 ∧ j = d.toNat then .known (BitVec.ofNat 32 r)
    else if wide ∧ d ≠ 0 ∧ j = d.toNat + 1 then .known (BitVec.ofNat 32 (r / 2 ^ 32)) else holds t j) ∧
  t'.fpsr = t.fpsr ||| fl.bits ∧ t'.srseed = seed ∧ NextPc t t' ∧
  t' = { t with regs := t'.regs, loaded := t'.loaded, pc := t'.pc, run := t'.run, lc0 := t'.lc0, lc1 := t'.lc1,
                fpsr := t'.fpsr, srseed := t'.srseed, numTraps := t'.numTraps, held := t'.held }

/-- Numeric instruction `i` completes wherever it is at issue; in every lane whose guard holds, D takes a result and FPSR
the flags that `P` allows. -/
def GivesNum (i : Instr) (wide : Bool) (d : BitVec 9) (P : Group → Thread → Nat × Flags → Prop) : Prop :=
  ∀ s u g, AtIssue s i u g → ∃ s', exec i s = .next s' ∧ OnlyNumeric s s' u g ∧
    EachLane s i u g s' fun _ t t' => ∃ out, P (groupAt s i u g) t out ∧ WroteNum wide d out.1 out.2 t.srseed t t'

/-- The result and flags of an operation on flushed inputs: the operation's and those of reading. -/
def OnInputs (f : FpFmt) (t : Thread) (xs : List Nat) (op : Nat × Flags → Prop) (out : Nat × Flags) : Prop :=
  ∃ o, op o ∧ out = (o.1, (readFlags f t xs).or o.2)

end Sys2Proof.Claims
end

