-- ==== Sys2Proof/Certificates/Slice0/Obligations.lean ====
section
/-! DEFINITION. The statements for the provers, from the numbered rules of spec/, in the words of Sys2Proof/Safety.lean. -/

open Sys2Proof Sys2Proof.Machine Sys2Proof.Claims

/-! ## Integer instructions -/

/-- spec/06_instr_integer_scalar.md R156, R157: every two-source form of width W, at both widths. The state's only
change is the destination and the thread's going on. -/
def Obligations.IntegerTwoSourceForms : Prop :=
  GivesBin .add (· + ·) (· + ·) ∧ GivesBin .sub (· - ·) (· - ·) ∧ GivesBin .mul (· * ·) (· * ·) ∧
  GivesBin .mulh (fun a b => BitVec.ofInt 32 (a.toInt * b.toInt / 2 ^ 32))
    (fun a b => BitVec.ofInt 64 (a.toInt * b.toInt / 2 ^ 64)) ∧
  GivesBin .mulhu (fun a b => BitVec.ofNat 32 (a.toNat * b.toNat / 2 ^ 32))
    (fun a b => BitVec.ofNat 64 (a.toNat * b.toNat / 2 ^ 64)) ∧
  GivesBin .min (fun a b => if b.toInt < a.toInt then b else a) (fun a b => if b.toInt < a.toInt then b else a) ∧
  GivesBin .max (fun a b => if a.toInt ≤ b.toInt then b else a) (fun a b => if a.toInt ≤ b.toInt then b else a) ∧
  GivesBin .minu (fun a b => if b < a then b else a) (fun a b => if b < a then b else a) ∧
  GivesBin .maxu (fun a b => if a ≤ b then b else a) (fun a b => if a ≤ b then b else a) ∧
  GivesBin .and (· &&& ·) (· &&& ·) ∧ GivesBin .or (· ||| ·) (· ||| ·) ∧ GivesBin .xor (· ^^^ ·) (· ^^^ ·) ∧
  GivesBin .andn (fun a b => a &&& ~~~b) (fun a b => a &&& ~~~b) ∧
  GivesBin .shl (fun a b => a <<< (b.toNat % 32)) (fun a b => a <<< (b.toNat % 64)) ∧
  GivesBin .shr (fun a b => a >>> (b.toNat % 32)) (fun a b => a >>> (b.toNat % 64)) ∧
  GivesBin .sar (fun a b => a.sshiftRight (b.toNat % 32)) (fun a b => a.sshiftRight (b.toNat % 64)) ∧
  GivesBin .rol (fun a b => a.rotateLeft (b.toNat % 32)) (fun a b => a.rotateLeft (b.toNat % 64)) ∧
  GivesBin .ror (fun a b => a.rotateRight (b.toNat % 32)) (fun a b => a.rotateRight (b.toNat % 64))

/-- spec/06_instr_integer_scalar.md R156: the one-source forms of width W, and MAD, MADW, SEL and LEA. CLZ counts the
zeros above the highest set bit and CTZ those below the lowest; both give w for 0. -/
def Sys2Proof.Claims.IntegerOtherForms : Prop :=
  GivesUn .abs (fun a => if a.toInt < 0 then 0 - a else a) (fun a => if a.toInt < 0 then 0 - a else a) ∧
  GivesUn .neg (fun a => 0 - a) (fun a => 0 - a) ∧ GivesUn .not (fun a => ~~~a) (fun a => ~~~a) ∧
  GivesUn .popc (fun a => BitVec.ofNat 32 ((List.range 32).countP a.getLsbD))
    (fun a => BitVec.ofNat 64 ((List.range 64).countP a.getLsbD)) ∧
  GivesUn .clz (fun a => if a = 0 then 32 else 31 - BitVec.ofNat 32 a.toNat.log2)
    (fun a => if a = 0 then 64 else 63 - BitVec.ofNat 64 a.toNat.log2) ∧
  GivesUn .ctz (fun a => if a = 0 then 32 else BitVec.ofNat 32 (a &&& (0 - a)).toNat.log2)
    (fun a => if a = 0 then 64 else BitVec.ofNat 64 (a &&& (0 - a)).toNat.log2) ∧
  GivesUn .brev BitVec.reverse BitVec.reverse ∧
  (∀ f : FmtA, (f.var = 0 → Gives32 (.mad f) f.d fun g t =>
      src32 g t f.sA f.a * src32 g t f.sB f.b + src32 g t f.sC f.c) ∧
    (f.var = 1 → Gives64 (.mad f) f.d fun g t => src64 g t f.sA f.a * src64 g t f.sB f.b + src64 g t f.sC f.c) ∧
    (f.var = 0 → Gives64 (.madw f) f.d fun g t =>
      (src32 g t f.sA f.a).setWidth 64 * (src32 g t f.sB f.b).setWidth 64 + src64 g t f.sC f.c) ∧
    (f.var = 1 → Gives64 (.madw f) f.d fun g t =>
      (src32 g t f.sA f.a).signExtend 64 * (src32 g t f.sB f.b).signExtend 64 + src64 g t f.sC f.c) ∧
    (f.var = 0 → Gives32 (.sel f) f.d fun g t => if t.guard f.c.toNat then src32 g t f.sA f.a else src32 g t f.sB f.b) ∧
    (f.var = 1 → Gives64 (.sel f) f.d fun g t => if t.guard f.c.toNat then src64 g t f.sA f.a else src64 g t f.sB f.b) ∧
    (f.var.toNat ≤ 4 → Gives32 (.lea f) f.d fun g t => src32 g t f.sA f.a + src32 g t f.sB f.b <<< f.var.toNat))

/-- spec/06_instr_integer_scalar.md R158: DIV, DIVU, REM and REMU of a divisor other than 0; the quotient truncates
toward zero, the remainder is a − q × b, and the most negative value by −1 gives itself and 0. -/
def Sys2Proof.Claims.DivisionResults : Prop :=
  ∀ (s : State) (u : Issuer) (g : Group) (f : FmtA),
    (∀ i ∈ [Instr.div f, .divu f, .rem f, .remu f], AtIssue s i u g → f.var.toNat ≤ 1 →
      (∀ l t, LaneAt s i u g l t → t.guardHolds u.g = true → srcW (f.var == 1) (groupAt s i u g) t f.sB f.b ≠ 0) →
      ∃ s', exec i s = .next s' ∧ OnlyLanes s s' u g ∧ EachLane s i u g s' fun _ t t' =>
        let gr := groupAt s i u g
        let q32 (i : Instr) (a b : Word) : Word := match i with
          | .div _ => BitVec.ofInt 32 (a.toInt.tdiv b.toInt)
          | .divu _ => BitVec.ofNat 32 (a.toNat / b.toNat)
          | .rem _ => BitVec.ofInt 32 (a.toInt - a.toInt.tdiv b.toInt * b.toInt)
          | _ => BitVec.ofNat 32 (a.toNat % b.toNat)
        let q64 (i : Instr) (a b : DWord) : DWord := match i with
          | .div _ => BitVec.ofInt 64 (a.toInt.tdiv b.toInt)
          | .divu _ => BitVec.ofNat 64 (a.toNat / b.toNat)
          | .rem _ => BitVec.ofInt 64 (a.toInt - a.toInt.tdiv b.toInt * b.toInt)
          | _ => BitVec.ofNat 64 (a.toNat % b.toNat)
        (f.var = 0 → Wrote32 f.d (q32 i (src32 gr t f.sA f.a) (src32 gr t f.sB f.b)) t t') ∧
        (f.var = 1 → Wrote64 f.d (q64 i (src64 gr t f.sA f.a) (src64 gr t f.sB f.b)) t t'))

/-- spec/06_instr_integer_scalar.md R158, first bullet: a divisor of 0 is a fault of cause 0x10, detail 0, in that lane: the
thread is parked on a SIMT core (R37) and traps to the operating system on a latency core; every register is kept, and the
PC is still the instruction's. -/
def Sys2Proof.Claims.DivisionByZeroFaults : Prop :=
  ∀ (s : State) (u : Issuer) (g : Group) (f : FmtA),
    ∀ i ∈ [Instr.div f, .divu f, .rem f, .remu f], AtIssue s i u g → f.var.toNat ≤ 1 →
      let zero (t : Thread) : Prop := t.guardHolds u.g = true ∧ srcW (f.var == 1) (groupAt s i u g) t f.sB f.b = 0
      (isLatency u.slot = false → ∃ s', exec i s = .next s' ∧ ∀ l t, LaneAt s i u g l t → zero t →
        ∃ t', s'.thread? ⟨u.slot, l⟩ = some t' ∧ t' = { t with run := .parked (causeWord 0x10 0) 0 false }) ∧
      ∀ t, isLatency u.slot = true → g.activeAt u.pc = [0] → LaneAt s i u g 0 t → zero t →
        exec i s = .next ((entry s i u g).takeFault ⟨u.slot, 0⟩ (causeWord 0x10 0) 0 t.pc false)

/-- DivisionResults and DivisionByZeroFaults, together. -/
def Obligations.DivisionForms : Prop := Claims.DivisionResults ∧ Claims.DivisionByZeroFaults

/-- spec/06_instr_integer_scalar.md R159: ADDSAT and SUBSAT clamp the exact sum or difference of the low m bits, m = 8, 16
and 32 on registers and 64 on pairs; DP4 and DP2 add their exact products to c, wrapped or clamped. -/
def Sys2Proof.Claims.SaturatingForms : Prop :=
  (∀ (f : FmtA) (i : Instr) (op : Int → Int → Int), f.var.toNat < 8 →
    (i = .addsat f ∧ op = (fun a b => a + b)) ∨ (i = .subsat f ∧ op = (fun a b => a - b)) →
    let m := 8 * 2 ^ (f.var.toNat % 4)
    let sg := 4 ≤ f.var.toNat
    let num (x : Nat) : Int := if sg ∧ 2 ^ (m - 1) ≤ x % 2 ^ m then (x % 2 ^ m : Nat) - 2 ^ m else (x % 2 ^ m : Nat)
    let clamp (x : Int) : Int :=
      if sg then max (-(2 ^ (m - 1))) (min x (2 ^ (m - 1) - 1)) else max 0 (min x (2 ^ m - 1))
    (m < 64 → Gives32 i f.d fun g t =>
      BitVec.ofInt 32 (clamp (op (num (src32 g t f.sA f.a).toNat) (num (src32 g t f.sB f.b).toNat)))) ∧
    (m = 64 → Gives64 i f.d fun g t =>
      BitVec.ofInt 64 (clamp (op (num (src64 g t f.sA f.a).toNat) (num (src64 g t f.sB f.b).toNat))))) ∧
  (∀ (f : FmtA) (i : Instr) (n w : Nat), f.var.toNat < 8 → (i = .dp4 f ∧ n = 4 ∧ w = 8) ∨ (i = .dp2 f ∧ n = 2 ∧ w = 16) →
    let part (sg : Bool) (x : Word) (k : Nat) : Int :=
      if sg then ((x.extractLsb' (w * k) w).toInt) else ((x.extractLsb' (w * k) w).toNat : Int)
    let sa := f.var.getLsbD 0
    let sb := f.var.getLsbD 1
    Gives32 i f.d fun g t =>
      let a := src32 g t f.sA f.a
      let b := src32 g t f.sB f.b
      let c := src32 g t f.sC f.c
      let sum := (if sa || sb then c.toInt else c.toNat) + ((List.range n).map fun k => part sa a k * part sb b k).sum
      BitVec.ofInt 32 (if !f.var.getLsbD 2 then sum
        else if sa || sb then max (-(2 ^ 31)) (min sum (2 ^ 31 - 1)) else max 0 (min sum (2 ^ 32 - 1))))

/-- IntegerOtherForms and SaturatingForms, together. -/
def Obligations.OneSourceAndSaturatingForms : Prop := Claims.IntegerOtherForms ∧ Claims.SaturatingForms

/-- spec/06_instr_integer_scalar.md R160: ADDX writes a + b + cin modulo 2^w and gE := carry out, gE being the guard of
C[6:4], cin 1 where C[3] is clear and the guard of C[2:0] is true; a write of g0 is discarded, and C[8:7] is zero. -/
def Obligations.AddWithCarry : Prop :=
  (∀ f : FmtA, 128 ≤ f.c.toNat → ∀ g k w, decode w ≠ .ok ⟨g, k, .addx f⟩) ∧
  ∀ (f : FmtA) (s : State) (u : Issuer) (g : Group), AtIssue s (.addx f) u g → f.var.toNat ≤ 1 →
    ∃ s', exec (.addx f) s = .next s' ∧ OnlyLanes s s' u g ∧ EachLane s (.addx f) u g s' fun _ t t' =>
      let gr := groupAt s (.addx f) u g
      let w := if f.var = 1 then 64 else 32
      let cin := if f.c.getLsbD 3 = false ∧ t.guard (f.c.toNat % 8) = true then 1 else 0
      let a := if f.var = 1 then (src64 gr t f.sA f.a).toNat else (src32 gr t f.sA f.a).toNat
      let b := if f.var = 1 then (src64 gr t f.sB f.b).toNat else (src32 gr t f.sB f.b).toNat
      let sum := a + b + cin
      let e := f.c.toNat / 16 % 8
      (∀ k < 8, t'.guard k = if k ≠ 0 ∧ k = e then decide (2 ^ w ≤ sum) else t.guard k) ∧
      (f.var = 0 → Wrote32 f.d (BitVec.ofNat 32 sum) { t with guards := t'.guards } t') ∧
      (f.var = 1 → Wrote64 f.d (BitVec.ofNat 64 sum) { t with guards := t'.guards } t')

/-- spec/06_instr_integer_scalar.md R161, bit by bit: BFX, BFI and PRMT at every width and operand. -/
def Obligations.BitFieldForms : Prop :=
  (∀ f : FmtA, f.var.toNat < 4 →
    let len (w p n : Nat) := if p < w then min n (w - p) else 0
    let bfx (w : Nat) (a b c : BitVec w) : BitVec w :=
      let p := b.toNat % 256
      let m := len w p (c.toNat % 256)
      BitVec.ofNat w ((List.range w).foldl (fun x k => x + 2 ^ k *
        (if k < m then a.getLsbD (p + k) else m ≠ 0 ∧ f.var.getLsbD 1 ∧ a.getLsbD (p + m - 1)).toNat) 0)
    let bfi (w : Nat) (old a b c : BitVec w) : BitVec w :=
      let p := b.toNat % 256
      let m := len w p (c.toNat % 256)
      BitVec.ofNat w ((List.range w).foldl (fun x k => x + 2 ^ k *
        (if p ≤ k ∧ k < p + m then a.getLsbD (k - p) else old.getLsbD k).toNat) 0)
    (f.var.getLsbD 0 = false → Gives32 (.bfx f) f.d fun g t =>
      bfx 32 (src32 g t f.sA f.a) (src32 g t f.sB f.b) (src32 g t f.sC f.c)) ∧
    (f.var.getLsbD 0 = true → Gives64 (.bfx f) f.d fun g t =>
      bfx 64 (src64 g t f.sA f.a) (src64 g t f.sB f.b) (src64 g t f.sC f.c)) ∧
    (f.var = 0 → Gives32 (.bfi f) f.d fun g t =>
      bfi 32 (t.reg f.d.toNat) (src32 g t f.sA f.a) (src32 g t f.sB f.b) (src32 g t f.sC f.c)) ∧
    (f.var = 1 → Gives64 (.bfi f) f.d fun g t =>
      bfi 64 (t.pair f.d.toNat) (src64 g t f.sA f.a) (src64 g t f.sB f.b) (src64 g t f.sC f.c))) ∧
  (∀ f : FmtA, Gives32 (.prmt f) f.d fun g t =>
    let x : DWord := src32 g t f.sB f.b ++ src32 g t f.sA f.a
    let k (i : Nat) := (src32 g t f.sC f.c).extractLsb' (4 * i) 4
    let byte (i : Nat) : Byte :=
      let y := x.extractLsb' (8 * ((k i).toNat % 8)) 8
      if (k i).getLsbD 3 then (if y.getLsbD 7 then 0xFF else 0x00) else y
    byte 3 ++ byte 2 ++ byte 1 ++ byte 0)

/-- spec/06_instr_integer_scalar.md R162: the immediate forms at 32 bits. -/
def Obligations.IntegerImmediateForms : Prop :=
  ∀ f : FmtI,
    let of (i : FmtI → Instr) (op : Word → Word) : Prop := Gives32 (i f) f.d fun _ t => op (t.reg f.a.toNat)
    let n := f.imm.toNat
    of .addImm (· + f.imm) ∧ of .mulImm (· * f.imm) ∧
    of .minImm (fun a => if f.imm.toInt < a.toInt then f.imm else a) ∧
    of .maxImm (fun a => if a.toInt ≤ f.imm.toInt then f.imm else a) ∧
    of .minuImm (fun a => if f.imm < a then f.imm else a) ∧ of .maxuImm (fun a => if a ≤ f.imm then f.imm else a) ∧
    of .andImm (· &&& f.imm) ∧ of .orImm (· ||| f.imm) ∧ of .xorImm (· ^^^ f.imm) ∧
    of .shlImm (· <<< (n % 32)) ∧ of .shrImm (· >>> (n % 32)) ∧ of .sarImm (·.sshiftRight (n % 32)) ∧
    of .rolImm (·.rotateLeft (n % 32)) ∧ of .rorImm (·.rotateRight (n % 32)) ∧ of .movi (fun _ => f.imm) ∧
    of .bfxImm (fun a =>
      let p := n % 32
      let m := min (n / 32 % 64) (32 - p)
      let x := a.toNat / 2 ^ p % 2 ^ m
      if f.imm.getLsbD 11 ∧ m ≠ 0 ∧ 2 ^ (m - 1) ≤ x then BitVec.ofNat 32 (x + (2 ^ 32 - 2 ^ m)) else BitVec.ofNat 32 x)

/-- spec/06_instr_integer_scalar.md R163, R164: the address-pair forms; ext(b) zero-extends a 32-bit b in variant 0,
sign-extends it in variant 1, and is a pair in variant 2. -/
def Obligations.AddressPairForms : Prop :=
  (∀ f : FmtA,
    let ext (g : Group) (t : Thread) : DWord :=
      if f.var = 0 then (src32 g t f.sB f.b).setWidth 64
      else if f.var = 1 then (src32 g t f.sB f.b).signExtend 64 else src64 g t f.sB f.b
    let wide (x : Word) : DWord := if f.var = 1 then x.signExtend 64 else x.setWidth 64
    (f.var.toNat ≤ 2 → Gives64 (.addd f) f.d fun g t => src64 g t f.sA f.a + ext g t) ∧
    (f.var.toNat ≤ 2 → Gives64 (.subd f) f.d fun g t => src64 g t f.sA f.a - ext g t) ∧
    (f.var.toNat ≤ 2 → Gives64 (.lead f) f.d fun g t => src64 g t f.sA f.a + ext g t <<< f.mode.toNat) ∧
    (f.var = 0 → Gives64 (.shld f) f.d fun g t => src64 g t f.sA f.a <<< ((src32 g t f.sB f.b).toNat % 64)) ∧
    (f.var = 0 → Gives64 (.shrd f) f.d fun g t => src64 g t f.sA f.a >>> ((src32 g t f.sB f.b).toNat % 64)) ∧
    (f.var.toNat ≤ 1 → Gives64 (.mulwd f) f.d fun g t => wide (src32 g t f.sA f.a) * wide (src32 g t f.sB f.b)) ∧
    (f.var.toNat ≤ 1 → Gives64 (.madwd f) f.d fun g t =>
      wide (src32 g t f.sA f.a) * wide (src32 g t f.sB f.b) + src64 g t f.sC f.c)) ∧
  (∀ f : FmtI,
    Gives64 (.adddImm f) f.d (fun _ t => t.pair f.a.toNat + f.imm.signExtend 64) ∧
    Gives64 (.subdImm f) f.d (fun _ t => t.pair f.a.toNat - f.imm.signExtend 64) ∧
    Gives64 (.shldImm f) f.d (fun _ t => t.pair f.a.toNat <<< (f.imm.toNat % 64)) ∧
    Gives64 (.shrdImm f) f.d (fun _ t => t.pair f.a.toNat >>> (f.imm.toNat % 64)) ∧
    Gives64 (.mulwdImm f) f.d (fun _ t => (t.reg f.a.toNat).signExtend 64 * f.imm.signExtend 64) ∧
    Gives64 (.leadImm f) f.d (fun _ t =>
      t.pair f.a.toNat + (f.imm.extractLsb' 0 29).signExtend 64 <<< (f.imm.extractLsb' 29 3).toNat) ∧
    ∀ s u g, AtIssue s (.leapc f) u g → ∃ s', exec (.leapc f) s = .next s' ∧ OnlyLanes s s' u g ∧
      EachLane s (.leapc f) u g s' fun _ t t' => Wrote64 f.d (u.pc + f.imm.signExtend 64) t t')

/-! ## Shared registers, lanes and predicates -/

/-- spec/06_instr_integer_scalar.md R172, R173: every shared-register instruction but SLD, and RDFL.s and BALLOT.s (R171),
by a group that is whole: one write for the group, from the lowest lane. -/
def Sys2Proof.Claims.SharedRegisterResults : Prop :=
  (∀ f : FmtA,
    let a (g : Group) (t : Thread) : DWord := if f.sA then g.sreg f.a.toNat else (t.reg f.a.toNat).setWidth 64
    let b (g : Group) (t : Thread) : DWord := if f.sB then g.sreg f.b.toNat else (t.reg f.b.toNat).setWidth 64
    let of (i : FmtA → Instr) (op : DWord → DWord → DWord) : Prop :=
      GivesShared (i f) f.d fun _ _ g t => op (a g t) (b g t)
    of .sadd (· + ·) ∧ of .ssub (· - ·) ∧ of .smul (· * ·) ∧ of .sand (· &&& ·) ∧ of .sor (· ||| ·) ∧
    of .sxor (· ^^^ ·) ∧ of .sshl (fun a b => a <<< (b.toNat % 64)) ∧ of .sshr (fun a b => a >>> (b.toNat % 64)) ∧
    of .ssar (fun a b => a.sshiftRight (b.toNat % 64)) ∧ of .smin (fun a b => if b.toInt < a.toInt then b else a) ∧
    of .smax (fun a b => if a.toInt ≤ b.toInt then b else a) ∧ of .smov (fun a _ => a) ∧
    (f.var = 0 → GivesShared (.rdflS f) f.d fun _ _ g t => (src32 g t f.sA f.a).setWidth 64) ∧
    (f.var = 1 → GivesShared (.rdflS f) f.d fun _ _ g t => src64 g t f.sA f.a) ∧
    GivesShared (.ballotS f) f.d fun s u g _ =>
      (maskOf ((pSet s (.ballotS f) u g).filter (guardIn s (.ballotS f) u g f.a.toNat))).setWidth 64) ∧
  (∀ f : FmtI,
    let of (i : FmtI → Instr) (op : DWord → DWord) : Prop := GivesShared (i f) f.d fun _ _ g _ => op (g.sreg f.a.toNat)
    let b := f.imm.signExtend 64
    of .saddImm (· + b) ∧ of .smulImm (· * b) ∧ of .sandImm (· &&& b) ∧ of .sorImm (· ||| b) ∧ of .sxorImm (· ^^^ b) ∧
    of .sshlImm (· <<< (b.toNat % 64)) ∧ of .sshrImm (· >>> (b.toNat % 64)) ∧ of .ssarImm (·.sshiftRight (b.toNat % 64)) ∧
    of .sminImm (fun a => if b.toInt < a.toInt then b else a) ∧ of .smaxImm (fun a => if a.toInt ≤ b.toInt then b else a) ∧
    of .smovi (fun _ => b))

/-- spec/01_execution_model.md R14, for every shared-register instruction: with no guard true nothing is written
and every lane completes; with some guard true and the group not whole, nothing is written and, on a SIMT core, every
issuing thread is parked with cause 0x0B, whatever its guard. -/
def Obligations.SharedPartialWrite : Prop :=
  ∀ (s : State) (u : Issuer) (g : Group) (f : FmtA) (h : FmtI),
    ∀ i ∈ [Instr.sadd f, .ssub f, .smul f, .sand f, .sor f, .sxor f, .sshl f, .sshr f, .ssar f, .smin f, .smax f, .smov f,
      .rdflS f, .ballotS f, .saddImm h, .smulImm h, .sandImm h, .sorImm h, .sxorImm h, .sshlImm h, .sshrImm h, .ssarImm h,
      .sminImm h, .smaxImm h, .smovi h, .sld f, .sldImm h], AtIssue s i u g →
      (pSet s i u g = [] → ∃ s', exec i s = .next s' ∧ OnlyLanes s s' u g ∧ EachLane s i u g s' fun _ _ _ => False) ∧
      (pSet s i u g ≠ [] → ¬ Whole s i u g → isLatency u.slot = false →
        ∃ s' g', exec i s = .next s' ∧ s'.group? u.slot = some g' ∧ g'.sregs = g.sregs ∧
          ∀ l t, LaneAt s i u g l t →
            lookup l g'.members = some { t with run := .parked (causeWord 0x0B 0) u.word false })

/-- spec/06_instr_integer_scalar.md R170, R171: MOV and the lane instructions. Src(j) is A in lane j where j is in
Active(G), whatever its guard, and else the lane's own A. -/
def Obligations.LaneForms : Prop :=
  ∀ (f : FmtA) (s : State) (u : Issuer) (g : Group),
    let act := g.activeAt u.pc
    let src (i : Instr) (wide : Bool) (l : Nat) (j : Int) : DWord :=
      valueIn s i u g wide f.sA f.a (if 0 ≤ j ∧ j.toNat ∈ act then j.toNat else l)
    let first (i : Instr) : Nat := (pSet s i u g).headD 0
    let ends (i : Instr) (P : Nat → Thread → Thread → Prop) : Prop :=
      AtIssue s i u g → ∃ s', exec i s = .next s' ∧ OnlyLanes s s' u g ∧ EachLane s i u g s' P
    let w := f.var == 1
    (f.var.toNat ≤ 1 →
      ends (.mov f) (fun l t t' => WroteW w f.d (valueIn s (.mov f) u g w f.sA f.a l) t t') ∧
      ends (.rdfl f) (fun _ t t' => WroteW w f.d (valueIn s (.rdfl f) u g w f.sA f.a (first (.rdfl f))) t t') ∧
      ends (.rdln f) (fun l t t' => WroteW w f.d (src (.rdln f) w l f.b.toNat) t t') ∧
      ends (.bcast f) (fun l t t' => WroteW w f.d (src (.bcast f) w l
        ((valueIn s (.bcast f) u g false f.sB f.b (first (.bcast f))).toNat % 32 : Nat)) t t') ∧
      ends (.matchEq f) (fun l t t' => Wrote32 f.d (maskOf ((pSet s (.matchEq f) u g).filter fun k =>
        valueIn s (.matchEq f) u g w f.sA f.a k == valueIn s (.matchEq f) u g w f.sA f.a l)) t t')) ∧
    (f.var.toNat < 8 → f.c.toNat < 8 → ends (.shfl f) (fun l t t' =>
      let wide := f.var.getLsbD 2
      let b := src32 (groupAt s (.shfl f) u g) t f.sB f.b
      let m := f.var.toNat % 4
      let j : Int := if m = 0 then ((b.toNat % 32 : Nat) : Int) else if m = 1 then (l : Int) - b.toInt
        else if m = 2 then (l : Int) + b.toInt else ((l ^^^ (b.toNat % 32) : Nat) : Int)
      let ok : Bool := decide (0 ≤ j) && act.contains j.toNat
      (∀ k < 8, t'.guard k = if k ≠ 0 ∧ k = f.c.toNat then ok else t.guard k) ∧
      WroteW wide f.d (src (.shfl f) wide l j) { t with guards := t'.guards } t')) ∧
    ends (.elect f) (fun l t t' => WroteGuard f.d.toNat (l == first (.elect f)) t t') ∧
    ends (.ballot f) (fun _ t t' => Wrote32 f.d
      (maskOf ((pSet s (.ballot f) u g).filter (guardIn s (.ballot f) u g f.a.toNat))) t t') ∧
    ends (.pmov f) (fun _ t t' => Wrote32 f.d
      (BitVec.ofNat 32 (1 + ((List.range 7).map fun k => 2 ^ (k + 1) * (t.guard (k + 1)).toNat).sum)) t t') ∧
    ends (.pmovToGuards f) (fun _ t t' =>
      let a := src32 (groupAt s (.pmovToGuards f) u g) t f.sA f.a
      (∀ k < 8, t'.guard k = if k = 0 then true else a.getLsbD k) ∧ NextPc t t' ∧
      t' = { t with guards := t'.guards, loaded := t'.loaded, pc := t'.pc, run := t'.run, lc0 := t'.lc0, lc1 := t'.lc1 })

/-- ALW(a) of R283: no bound towards the own package, none towards a peer that is not up, else what the write-combining entries
and the peer's egress units leave. -/
def Sys2Proof.Claims.allowance (s : State) (core a : Nat) : Nat :=
  if a = s.pkg then 0xFFFFFFFF
  else if s.domain ≤ a ∨ s.peerState a ≠ 1 then 0
  else min (256 - (s.core core).wc.length) (128 - get (s.core core).egress a 0)

/-- ALWD(a) of R283. -/
def Sys2Proof.Claims.dieAllowance (s : State) (core a : Nat) : Nat :=
  if 6 ≤ a then 0 else if a = dieOfCore core then 0xFFFFFFFF else 256 - get (s.core core).ucie a 0

/-- spec/06_instr_integer_scalar.md R165 to R168: the predicate instructions but FSETP. -/
def Obligations.PredicateForms : Prop :=
  ∀ (f : FmtA) (s : State) (u : Issuer) (g : Group),
    let gives (i : Instr) (x : Group → Thread → Bool) : Prop :=
      AtIssue s i u g → ∃ s', exec i s = .next s' ∧ OnlyLanes s s' u g ∧
        EachLane s i u g s' fun _ t t' => WroteGuard f.d.toNat (x (groupAt s i u g) t) t t'
    let test {w : Nat} (a b : BitVec w) : Bool :=
      let x : Int := if f.var.getLsbD 3 then a.toInt else a.toNat
      let y : Int := if f.var.getLsbD 3 then b.toInt else b.toNat
      match f.var.toNat % 8 with
      | 0 => x == y
      | 1 => x != y
      | 2 => decide (x < y)
      | 3 => decide (x ≤ y)
      | 4 => decide (y < x)
      | _ => decide (y ≤ x)
    let join (t : Thread) (r : Bool) : Bool := match f.mode.toNat / 2 with
      | 0 => r
      | 1 => r && t.guard f.c.toNat
      | 2 => r || t.guard f.c.toNat
      | _ => r ^^ t.guard f.c.toNat
    (f.c.toNat < 8 → f.var.toNat % 8 < 6 →
      gives (.setp f) (fun g t => join t (if f.mode.getLsbD 0 then test (src64 g t f.sA f.a) (src64 g t f.sB f.b)
        else test (src32 g t f.sA f.a) (src32 g t f.sB f.b))) ∧
      gives (.ssetp f) (fun g t => join t (test (g.sreg f.a.toNat) (g.sreg f.b.toNat)))) ∧
    gives (.pand f) (fun _ t => t.guard f.a.toNat && t.guard f.b.toNat) ∧
    gives (.por f) (fun _ t => t.guard f.a.toNat || t.guard f.b.toNat) ∧
    gives (.pxor f) (fun _ t => t.guard f.a.toNat ^^ t.guard f.b.toNat) ∧
    gives (.pnot f) (fun _ t => !t.guard f.a.toNat) ∧
    (f.var.toNat < 3 → gives (.vote f) fun _ _ =>
      let vs := (pSet s (.vote f) u g).map (guardIn s (.vote f) u g f.a.toNat)
      match f.var.toNat with
      | 0 => vs.any id
      | 1 => vs.all id
      | _ => vs.all id || !vs.any id) ∧
    (f.var.toNat < 2 → gives (.alwp f) fun g t =>
      let a := (src32 g t f.sA f.a).toNat
      let b := (src32 g t f.sB f.b).toNat
      let core := coreOfSlot u.slot
      if f.var = 0 then decide (a < 64 ∧ b ≤ allowance s core a) else decide (a < 8 ∧ b ≤ dieAllowance s core a))

/-! ## Numeric instructions -/

/-- spec/10_number_formats_arithmetic.md R251 with R176: Round of a magnitude x, for the four IEEE formats and the arrays'
(R254), and every mode, without flushing. Where the magnitude rounded without a bound on the exponent exceeds the largest finite one, the result is
the mode's of R251's last column, with OF and NX. Otherwise it is a finite value: RTZ, RDN and RUP give the nearest on
their side, RNE one that no other is nearer to and, on a tie, the one with an even last bit; NX says that it is not x, and UF
that it is also tiny: below the normal range once rounded to the format's digits (R176). -/
def Obligations.RoundIsCorrect : Prop :=
  ∀ f ∈ [f16, b16, f32, f64, fAcc], ∀ (mode : RMode) (neg : Bool) (m : Nat) (e : Int) (sticky : Bool) (x : ℚ),
    m ≠ 0 → (sticky = false → x = m * (2 : ℚ) ^ e) →
    (sticky = true → 2 ^ (f.fw + 2) ≤ m ∧ m * (2 : ℚ) ^ e < x ∧ x < (m + 1) * (2 : ℚ) ^ e) →
    let y := if neg then -x else x
    let out := f.round mode false neg m e sticky
    let away := (mode == .rdn && neg) || (mode == .rup && !neg)
    let big := (2 : ℚ) ^ (f.bias + 1)
    let last := (2 : ℚ) ^ (f.bias - f.fw)
    let low := (2 : ℚ) ^ (1 - f.bias)
    let step := (2 : ℚ) ^ f.emin
    let high : Prop := big ≤ x ∨ (mode = .rne ∧ big - last / 2 ≤ x) ∨ (away = true ∧ big - last < x)
    (high → out = (f.signed neg (if mode == .rne || away then f.infBits else f.maxBits), { of := true, nx := true })) ∧
    (¬ high → out.2.of = false ∧ ∃ n k, f.decode out.1 = .fin neg n k ∧
      let v := ratOf (.fin neg n k)
      let finite (w : ℚ) : Prop := ∃ b < 2 * f.signBit, ∃ n' m' e', f.decode b = .fin n' m' e' ∧ w = ratOf (.fin n' m' e')
      (out.2.nx = true ↔ v ≠ y) ∧
      (out.2.uf = true ↔ v ≠ y ∧ x < low ∧
        (|v| < low ∨ if mode = .rne then x < low - step / 4 else x ≤ low - step / 2)) ∧
      (mode = .rtz → |v| ≤ |y| ∧ ∀ w, finite w → |w| ≤ |y| → |w| ≤ |v|) ∧
      (mode = .rdn → v ≤ y ∧ ∀ w, finite w → w ≤ y → w ≤ v) ∧
      (mode = .rup → y ≤ v ∧ ∀ w, finite w → y ≤ w → v ≤ w) ∧
      (mode = .rne → ∀ w, finite w → |v - y| ≤ |w - y| ∧ (w ≠ v → |w - y| = |v - y| → n % 2 = 0)))

/-- spec/07_instr_float_convert_blockfp.md R177, R178, R180 with R176: the instructions that round, in binary32 and
binary64: the exact result rounded once by the selected mode (`Round` is the subject of RoundIsCorrect), NaN and infinity
cases, flags into FPSR. -/
def Sys2Proof.Claims.RealArithmetic : Prop :=
  ∀ (f : FmtA) (fmt : FpFmt) (wide : Bool), (fmt = f32 ∧ wide = false) ∨ (fmt = f64 ∧ wide = true) →
    let a (g : Group) (t : Thread) : Nat := (srcW wide g t f.sA f.a).toNat
    let b (g : Group) (t : Thread) : Nat := (srcW wide g t f.sB f.b).toNat
    let c (g : Group) (t : Thread) : Nat := (srcW wide g t f.sC f.c).toNat
    let mode (t : Thread) : RMode := roundMode f.mode t.fpcr
    let n (t : Thread) (x : Nat) : Machine.Num := inputOf fmt t x
    let z (t : Thread) : Bool := ftzOf t.fpcr
    let pick (i32 i64 : FmtA → Instr) : Instr := if wide then i64 f else i32 f
    GivesNum (pick .fadd .dadd) wide f.d (fun g t => OnInputs fmt t [a g t, b g t]
      (SumOf fmt (mode t) (z t) (n t (a g t)) (n t (b g t)))) ∧
    (wide = false → GivesNum (.fsub f) wide f.d fun g t => OnInputs fmt t [a g t, b g t]
      (SumOf fmt (mode t) (z t) (n t (a g t)) (n t (b g t)).negate)) ∧
    GivesNum (pick .fmul .dmul) wide f.d (fun g t => OnInputs fmt t [a g t, b g t]
      (ProductOf fmt (mode t) (z t) (n t (a g t)) (n t (b g t)))) ∧
    GivesNum (pick .ffma .dfma) wide f.d (fun g t => OnInputs fmt t [a g t, b g t, c g t]
      (FusedOf fmt (mode t) (z t) (n t (a g t)) (n t (b g t)) (n t (c g t)))) ∧
    GivesNum (pick .fdiv .ddiv) wide f.d (fun g t => OnInputs fmt t [a g t, b g t]
      (QuotientOf fmt (mode t) (z t) (n t (a g t)) (n t (b g t)))) ∧
    GivesNum (pick .fsqrt .dsqrt) wide f.d (fun g t => OnInputs fmt t [a g t]
      (RootOf fmt (mode t) (z t) (n t (a g t))))

/-- One number lies below another: −∞, the finite values with −0 below +0, +∞. -/
def Sys2Proof.Claims.Less (a b : Machine.Num) : Prop :=
  (a.isInf ∧ a.neg? ∧ ¬ (b.isInf ∧ b.neg?)) ∨ (b.isInf ∧ ¬ b.neg? ∧ ¬ (a.isInf ∧ ¬ a.neg?)) ∨
  (¬ a.isInf ∧ ¬ b.isInf ∧ (ratOf a < ratOf b ∨ (ratOf a = 0 ∧ ratOf b = 0 ∧ a.neg? ∧ ¬ b.neg?)))

/-- `r` is minimumNumber, or maximumNumber, of the flushed inputs: a NaN is ignored beside a number (R178). -/
def Sys2Proof.Claims.Best (mx : Bool) (fmt : FpFmt) (t : Thread) (x y r : Nat) : Prop :=
  let x' := (fmt.flush (ftzOf t.fpcr) x).1
  let y' := (fmt.flush (ftzOf t.fpcr) y).1
  let a := fmt.decode x'
  let b := fmt.decode y'
  if a.isNan ∧ b.isNan then r = fmt.nan else if a.isNan then r = y' else if b.isNan then r = x'
  else (r = x' ∨ r = y') ∧ (Less a b → r = if mx then y' else x') ∧ (Less b a → r = if mx then x' else y')

/-- spec/07_instr_float_convert_blockfp.md R178, R180: FMIN, FMAX, DMIN and DMAX (−0 below +0, a NaN ignored, a signalling
one sets NV), FCLAMP by its composition, FABSNEG on bit 31 alone, FRINT to the integral value its mode selects, FSCALE by
any power of two, rounded once. -/
def Sys2Proof.Claims.RealOrderForms : Prop :=
  ∀ f : FmtA,
    let takes (mx : Bool) (fmt : FpFmt) (wide : Bool) (g : Group) (t : Thread) (out : Nat × Flags) : Prop :=
      let x := (srcW wide g t f.sA f.a).toNat
      let y := (srcW wide g t f.sB f.b).toNat
      Best mx fmt t x y out.1 ∧ out.2 = readFlags fmt t [x, y]
    GivesNum (.fmin f) false f.d (takes false f32 false) ∧ GivesNum (.fmax f) false f.d (takes true f32 false) ∧
    GivesNum (.dmin f) true f.d (takes false f64 true) ∧ GivesNum (.dmax f) true f.d (takes true f64 true) ∧
    GivesNum (.fclamp f) false f.d (fun g t out =>
      let x := (src32 g t f.sA f.a).toNat
      let y := (src32 g t f.sB f.b).toNat
      let z := (src32 g t f.sC f.c).toNat
      (∃ r, Best true f32 t x y r ∧ Best false f32 t r z out.1) ∧ out.2 = readFlags f32 t [x, y, z]) ∧
    (f.var.toNat < 4 → Gives32 (.fabsneg f) f.d fun g t =>
      let a := src32 g t f.sA f.a
      let b := src32 g t f.sB f.b
      match f.var.toNat with
      | 0 => a &&& 0x7FFFFFFF
      | 1 => a ^^^ 0x80000000
      | 2 => a ||| 0x80000000
      | _ => (a &&& 0x7FFFFFFF) ||| (b &&& 0x80000000)) ∧
    GivesNum (.frint f) false f.d (fun g t out =>
      let x := (src32 g t f.sA f.a).toNat
      out.2 = readFlags f32 t [x] ∧ match inputOf f32 t x with
        | .nan _ => out.1 = f32.nan
        | .inf neg => out.1 = f32.signed neg f32.infBits
        | .fin neg m e => ∃ (k : Nat) (m' : Nat) (e' : Int), f32.decode out.1 = .fin neg m' e' ∧ (m' : ℚ) * (2 : ℚ) ^ e' = k ∧
            let v := (m : ℚ) * (2 : ℚ) ^ e
            match roundMode f.mode t.fpcr with
            | .rtz => k = ⌊v⌋₊
            | .rdn => k = if neg then ⌈v⌉₊ else ⌊v⌋₊
            | .rup => k = if neg then ⌊v⌋₊ else ⌈v⌉₊
            | .rne => |v - k| ≤ 1 / 2 ∧ (|v - k| = 1 / 2 → k % 2 = 0)) ∧
    GivesNum (.fscale f) false f.d (fun g t =>
      let x := (src32 g t f.sA f.a).toNat
      OnInputs f32 t [x] fun o => match inputOf f32 t x with
        | .nan _ => o = (f32.nan, {})
        | .inf neg => o = (f32.signed neg f32.infBits, {})
        | .fin neg m e => Exact f32 (roundMode f.mode t.fpcr) (ftzOf t.fpcr)
            (ratOf (.fin neg m e) * (2 : ℚ) ^ (src32 g t f.sB f.b).toInt) neg o)

/-- spec/07_instr_float_convert_blockfp.md R178, R180 and spec/06_instr_integer_scalar.md R166: each of these forms completes
wherever it is at issue: the subset goes on, and of the registers at most the destination's change. -/
def Sys2Proof.Claims.RealOrderCompletes : Prop :=
  ∀ (f : FmtA) (s : State) (u : Issuer) (g : Group),
    ∀ i ∈ [Instr.fmin f, .fmax f, .fclamp f, .frint f, .fscale f, .fabsneg f, .dmin f, .dmax f, .fsetp f], AtIssue s i u g →
      ∃ s', exec i s = .next s' ∧ OnlyNumeric s s' u g ∧ EachLane s i u g s' fun _ t t' => NextPc t t' ∧
        ∀ j, j ≠ f.d.toNat → j ≠ f.d.toNat + 1 → holds t' j = holds t j

/-- spec/06_instr_integer_scalar.md R166: FSETP compares under IEEE rules after the flush; NV is set by lt, le, gt and ge
for any NaN, by the other conditions for a signalling one; nothing else is set. -/
def Sys2Proof.Claims.RealComparison : Prop :=
  ∀ (f : FmtA) (s : State) (u : Issuer) (g : Group), AtIssue s (.fsetp f) u g → f.var.toNat < 8 → f.c.toNat < 8 →
    ∃ s', exec (.fsetp f) s = .next s' ∧ OnlyNumeric s s' u g ∧ EachLane s (.fsetp f) u g s' fun _ t t' =>
      let wide := f.mode.getLsbD 0
      let fmt := if wide then f64 else f32
      let gr := groupAt s (.fsetp f) u g
      let a := inputOf fmt t (srcW wide gr t f.sA f.a).toNat
      let b := inputOf fmt t (srcW wide gr t f.sB f.b).toNat
      let nan := a.isNan || b.isNan
      let k := f.var.toNat
      let join (r : Bool) : Bool := match f.mode.toNat / 2 with
        | 0 => r
        | 1 => r && t.guard f.c.toNat
        | 2 => r || t.guard f.c.toNat
        | _ => r ^^ t.guard f.c.toNat
      let below (x y : Machine.Num) : Prop := x.isNan = false ∧ y.isNan = false ∧
        ((x.isInf ∧ x.neg? ∧ ¬ (y.isInf ∧ y.neg?)) ∨ (y.isInf ∧ ¬ y.neg? ∧ ¬ (x.isInf ∧ ¬ x.neg?)) ∨
         (¬ x.isInf ∧ ¬ y.isInf ∧ ratOf x < ratOf y))
      (∃ r, (∀ j < 8, t'.guard j = if j ≠ 0 ∧ j = f.d.toNat then join r else t.guard j) ∧
        (nan = true → r = (k == 1 || k == 7)) ∧
        (nan = false → (r = true ↔ match k with
          | 0 => ¬ below a b ∧ ¬ below b a
          | 1 => below a b ∨ below b a
          | 2 => below a b
          | 3 => ¬ below b a
          | 4 => below b a
          | 5 => ¬ below a b
          | 6 => True
          | _ => False))) ∧
      t'.fpsr = t.fpsr ||| (if (2 ≤ k ∧ k < 6 ∧ nan = true) ∨ a.isSnan = true ∨ b.isSnan = true then 1 else 0) ∧
      (∀ j, holds t' j = holds t j) ∧ NextPc t t'

/-- RealOrderForms, RealComparison and RealOrderCompletes, together. -/
def Obligations.RealOrderAndComparison : Prop :=
  Claims.RealOrderForms ∧ Claims.RealComparison ∧ Claims.RealOrderCompletes

/-- spec/07_instr_float_convert_blockfp.md R179: each packed-half instruction does on each 16-bit element what R177 and
R178 say in the element format; HDOT2 gives c + a0 × b0 + a1 × b1 in binary32, rounded once; an ∞ × 0 product, or infinite
terms of opposite sign with no NaN, give the canonical NaN and NV, and infinite terms of one sign that infinity. -/
def Sys2Proof.Claims.PackedHalfForms : Prop :=
  ∀ f : FmtA, f.var.toNat ≤ 1 →
    let h := if f.var = 1 then b16 else f16
    let lo (x : Word) : Nat := x.toNat % 65536
    let hi (x : Word) : Nat := x.toNat / 65536
    let a (g : Group) (t : Thread) : Word := src32 g t f.sA f.a
    let b (g : Group) (t : Thread) : Word := src32 g t f.sB f.b
    let c (g : Group) (t : Thread) : Word := src32 g t f.sC f.c
    let mode (t : Thread) : RMode := roundMode f.mode t.fpcr
    let both (op : (Word → Nat) → Nat × Flags → Prop) (out : Nat × Flags) : Prop :=
      ∃ o0 o1, op lo o0 ∧ op hi o1 ∧ out = (o0.1 + 65536 * o1.1, o0.2.or o1.2)
    let n (t : Thread) (x : Nat) : Machine.Num := inputOf h t x
    let z (t : Thread) : Bool := ftzOf t.fpcr
    GivesNum (.hadd2 f) false f.d (fun g t => both fun e => OnInputs h t [e (a g t), e (b g t)]
      (SumOf h (mode t) (z t) (n t (e (a g t))) (n t (e (b g t))))) ∧
    GivesNum (.hsub2 f) false f.d (fun g t => both fun e => OnInputs h t [e (a g t), e (b g t)]
      (SumOf h (mode t) (z t) (n t (e (a g t))) (n t (e (b g t))).negate)) ∧
    GivesNum (.hmul2 f) false f.d (fun g t => both fun e => OnInputs h t [e (a g t), e (b g t)]
      (ProductOf h (mode t) (z t) (n t (e (a g t))) (n t (e (b g t))))) ∧
    GivesNum (.hfma2 f) false f.d (fun g t => both fun e => OnInputs h t [e (a g t), e (b g t), e (c g t)]
      (FusedOf h (mode t) (z t) (n t (e (a g t))) (n t (e (b g t))) (n t (e (c g t))))) ∧
    let takes (mx : Bool) (g : Group) (t : Thread) : Nat × Flags → Prop := both fun e o =>
      o.2 = readFlags h t [e (a g t), e (b g t)] ∧
      Best mx h t (e (a g t)) (e (b g t)) o.1
    GivesNum (.hmin2 f) false f.d (takes false) ∧ GivesNum (.hmax2 f) false f.d (takes true) ∧
    GivesNum (.hdot2 f) false f.d (fun g t out =>
      let xs := [lo (a g t), lo (b g t), hi (a g t), hi (b g t)]
      let fl := (readFlags h t xs).or (readFlags f32 t [(c g t).toNat])
      let a0 := n t (lo (a g t))
      let b0 := n t (lo (b g t))
      let a1 := n t (hi (a g t))
      let b1 := n t (hi (b g t))
      let k := inputOf f32 t (c g t).toNat
      let bad := (a0.isInf && b0.isZero) || (a0.isZero && b0.isInf) || (a1.isInf && b1.isZero) || (a1.isZero && b1.isInf)
      let nan := [a0, b0, a1, b1, k].any Machine.Num.isNan
      let inf (neg : Bool) : Bool := k == .inf neg || ((a0.isInf || b0.isInf) && (a0.neg? != b0.neg?) == neg) ||
        ((a1.isInf || b1.isInf) && (a1.neg? != b1.neg?) == neg)
      ([a0, b0, a1, b1, k].all (fun x => !x.isNan && !x.isInf) = true →
        ∃ zneg o, Exact f32 (mode t) (z t) (ratOf k + ratOf a0 * ratOf b0 + ratOf a1 * ratOf b1) zneg o ∧
          out = (o.1, fl.or o.2)) ∧
      (bad = true → out = (f32.nan, fl.or { nv := true })) ∧
      (nan = true → bad = false → out = (f32.nan, fl)) ∧
      (nan = false → bad = false → inf true = true → inf false = true → out = (f32.nan, fl.or { nv := true })) ∧
      (nan = false → bad = false → ∀ neg, inf neg = true → inf (!neg) = false → out = (f32.signed neg f32.infBits, fl)))

/-- RealArithmetic and PackedHalfForms, together. -/
def Obligations.RealArithmeticForms : Prop := Claims.RealArithmetic ∧ Claims.PackedHalfForms

/-- As GivesNum, with the seed that the lane's thread ends with. -/
def Sys2Proof.Claims.GivesSeed (i : Instr) (wide : Bool) (d : BitVec 9)
    (P : Group → Thread → (Nat × Flags) × Word → Prop) : Prop :=
  ∀ s u g, AtIssue s i u g → ∃ s', exec i s = .next s' ∧ OnlyNumeric s s' u g ∧
    EachLane s i u g s' fun _ t t' => ∃ out, P (groupAt s i u g) t out ∧ WroteNum wide d out.1.1 out.1.2 out.2 t t'

/-- One step of SRSEED (R184). -/
def Sys2Proof.Claims.nextSeed (x : Word) : Word :=
  let bit := x.getLsbD 31 ^^ x.getLsbD 21 ^^ x.getLsbD 1 ^^ x.getLsbD 0
  BitVec.ofNat 32 (2 * x.toNat + bit.toNat)

/-- A magnitude `x` rounded to `r` places of 2^q, the last place a format has there, its exponent unbounded above: by mode, or
stochastically with random value `z`: truncated, and raised by one when F + z reaches 2^32 (R184). -/
def Sys2Proof.Claims.RoundedMag (f : FpFmt) (mode : RMode) (sr : Option Word) (neg : Bool) (x : ℚ) (r : Nat) (q : Int)
    (inexact : Bool) : Prop :=
  ∃ (k : Nat) (fr : ℚ), x = (k + fr) * (2 : ℚ) ^ q ∧ 0 ≤ fr ∧ fr < 1 ∧ (inexact = true ↔ fr ≠ 0) ∧
    (q = f.emin ∧ k < 2 ^ (f.fw + 1) ∨ f.emin ≤ q ∧ 2 ^ f.fw ≤ k ∧ k < 2 ^ (f.fw + 1)) ∧
    r = match sr, mode with
      | some z, _ => if 2 ^ 32 ≤ ⌊fr * 2 ^ 32⌋₊ + z.toNat then k + 1 else k
      | none, .rtz => k
      | none, .rdn => if neg = true ∧ fr ≠ 0 then k + 1 else k
      | none, .rup => if neg = false ∧ fr ≠ 0 then k + 1 else k
      | none, .rne => if 1 / 2 < fr ∨ (fr = 1 / 2 ∧ k % 2 = 1) then k + 1 else k

/-- The flags of a rounded result that is delivered: NX where it is inexact, UF where it is also tiny (R176); `x` is the
exact magnitude, `v` the delivered one. -/
def Sys2Proof.Claims.RoundedFlags (f : FpFmt) (inexact : Bool) (x v : ℚ) (fl : Flags) : Prop :=
  fl = { nx := inexact, uf := fl.uf } ∧ (fl.uf = true → inexact = true ∧ x < (2 : ℚ) ^ (1 - f.bias)) ∧
    (inexact = true → v < (2 : ℚ) ^ (1 - f.bias) → fl.uf = true)

/-- A value converted into a float format (R186): NaN and infinities kept; by mode, rounded once, or saturated with SAT;
stochastically, rounded as RoundedMag says and then saturated, overflowed to infinity, flushed or delivered. -/
def Sys2Proof.Claims.ConvertedTo (f : FpFmt) (mode : RMode) (sr : Option Word) (sat ftz : Bool) (x : Machine.Num)
    (out : Nat × Flags) : Prop :=
  match x, sr with
  | .nan _, _ => out = (f.nan, {})
  | .inf n, _ => out = (f.signed n f.infBits, {})
  | .fin n m e, none => ∃ o, Exact f mode ftz (ratOf (.fin n m e)) n o ∧
      out = if sat && o.2.of then (f.signed n f.maxBits, { ns := true, nx := true }) else o
  | .fin n m e, some z => ∃ (r : Nat) (q : Int) (inexact : Bool), let x := (m : ℚ) * (2 : ℚ) ^ e
      let v := (r : ℚ) * (2 : ℚ) ^ q
      RoundedMag f mode (some z) n x r q inexact ∧
      if (2 : ℚ) ^ (f.bias + 1) ≤ v then
        out = if sat then (f.signed n f.maxBits, { ns := true, nx := true })
          else (f.signed n f.infBits, { of := true, nx := true })
      else if ftz = true ∧ v ≠ 0 ∧ v < (2 : ℚ) ^ (1 - f.bias) then out = (f.signed n 0, { uf := true, nx := true })
      else (∃ m' e', f.decode out.1 = .fin n m' e' ∧ (m' : ℚ) * (2 : ℚ) ^ e' = v) ∧ out.1 < 2 * f.signBit ∧
        RoundedFlags f inexact x v out.2

/-- spec/07_instr_float_convert_blockfp.md R183 to R187: CVTIF, CVTFI, CVTFF and PKH at every type, mode and option.
(Stochastic rounding above the largest finite value is the model's reading of notes/assumptions/19.md.) -/
def Sys2Proof.Claims.ConversionForms : Prop :=
  ∀ f : FmtA,
    let v := f.var.toNat
    let fty (n : Nat) : FpFmt := if n = 0 then f16 else if n = 1 then b16 else if n = 2 then f32 else f64
    let low (n : Nat) (x : Nat) : Nat := if n < 2 then x % 65536 else x
    let next (x : Word) : Word := if f.mode = 5 then nextSeed x else x
    let rnd (x : Word) : Option Word := if f.mode = 5 then some (nextSeed x) else none
    (GivesNum (.cvtif f) (v / 4 == 3) f.d fun g t out =>
      let w := srcW (decide (2 ≤ v % 4)) g t f.sA f.a
      let x : Int := if v % 4 = 0 then (w.setWidth 32).toInt else if v % 4 = 2 then w.toInt else w.toNat
      Exact (fty (v / 4)) (roundMode f.mode t.fpcr) false x false out) ∧
    (GivesNum (.cvtfi f) (decide (2 ≤ v / 4)) f.d fun g t out =>
      let ft := fty (v % 4)
      let raw := low (v % 4) (srcW (v % 4 == 3) g t f.sA f.a).toNat
      let w := if v / 4 < 2 then 32 else 64
      let lo : Int := if v / 4 % 2 = 0 then -(2 ^ (w - 1)) else 0
      let hi : Int := if v / 4 % 2 = 0 then 2 ^ (w - 1) - 1 else 2 ^ w - 1
      ∃ (r : Int) (fl : Flags), out = ((r % 2 ^ 64).toNat, (readFlags ft t [raw]).or fl) ∧
        match inputOf ft t raw with
        | .nan _ => r = 0 ∧ fl = { nv := true }
        | .inf n => r = (if n then lo else hi) ∧ fl = { ns := true }
        | .fin n m e => ∃ k : Int,
            let x := ratOf (.fin n m e)
            (match roundMode f.mode t.fpcr with
              | .rtz => k = if n then ⌈x⌉ else ⌊x⌋
              | .rdn => k = ⌊x⌋
              | .rup => k = ⌈x⌉
              | .rne => |x - k| ≤ 1 / 2 ∧ (|x - k| = 1 / 2 → k % 2 = 0)) ∧
            (k < lo → r = lo ∧ fl = { ns := true }) ∧ (hi < k → r = hi ∧ fl = { ns := true }) ∧
            (lo ≤ k → k ≤ hi → r = k ∧ fl = { nx := decide (x ≠ k) })) ∧
    (f.mode.toNat ≤ 5 → GivesSeed (.cvtff f) (v / 4 == 3) f.d fun g t out =>
      let ft := fty (v % 4)
      let raw := low (v % 4) (srcW (v % 4 == 3) g t f.sA f.a).toNat
      out.2 = next t.srseed ∧ OnInputs ft t [raw]
        (ConvertedTo (fty (v / 4)) (roundMode f.mode t.fpcr) (rnd t.srseed) (f.c.getLsbD 0) (ftzOf t.fpcr)
          (inputOf ft t raw)) out.1) ∧
    (v ≤ 1 → f.mode.toNat ≤ 5 → GivesSeed (.pkh f) false f.d fun g t out =>
      let a := (src32 g t f.sA f.a).toNat
      let b := (src32 g t f.sB f.b).toNat
      let conv (seed : Word) (x : Nat) := ConvertedTo (fty v) (roundMode f.mode t.fpcr) (rnd seed) (f.c.getLsbD 0)
        (ftzOf t.fpcr) (inputOf f32 t x)
      out.2 = next (next t.srseed) ∧ ∃ o0 o1, conv t.srseed a o0 ∧ conv (next t.srseed) b o1 ∧
        out.1 = (o0.1 % 65536 + 65536 * (o1.1 % 65536), ((readFlags f32 t [a, b]).or o0.2).or o1.2))

/-- The magnitude of an 8-bit float's seven low bits, E4M3 or E5M2 (R248). -/
def Sys2Proof.Claims.f8Value (e5 : Bool) (mag : Nat) : ℚ :=
  let fw : Nat := if e5 then 2 else 3
  let bias : Int := if e5 then 15 else 7
  let ex := mag / 2 ^ fw
  let fr := mag % 2 ^ fw
  if ex = 0 then (fr : ℚ) * (2 : ℚ) ^ (1 - bias - fw) else ((2 : ℚ) ^ fw + fr) * (2 : ℚ) ^ ((ex : Int) - bias - fw)

/-- spec/07_instr_float_convert_blockfp.md R184, R187: PKF8, each of its four bytes by the rule's table: NaN, infinity, beyond the
largest finite value, and the rounded value by mode or stochastically with the seed stepped once a byte, with their
flags; and UPF8: every byte's value, exactly, with no flag. -/
def Sys2Proof.Claims.EightBitFloatForms : Prop :=
  (∀ f : FmtA, f.var.toNat < 8 → f.var.toNat % 4 ≠ 3 → f.mode.toNat ≤ 5 → GivesSeed (.pkf8 f) false f.d fun g t out =>
    let e5 := f.var.getLsbD 2
    let nan := f.c.getLsbD 1
    let src := if f.var.toNat % 4 = 0 then f32 else if f.var.toNat % 4 = 1 then f16 else b16
    let k := if f.var.toNat % 4 = 0 then 32 else 16
    let a := (srcW (k == 32) g t f.sA f.a).toNat
    let b := (srcW (k == 32) g t f.sB f.b).toNat
    let xs := [a % 2 ^ k, a / 2 ^ k, b % 2 ^ k, b / 2 ^ k]
    let fm : FpFmt := if e5 then fE5M2 else fE4M3
    let top := if e5 then 0x7B else 0x7E
    let sgn (n : Bool) (x : Nat) : Nat := if n then 128 + x else x
    let next (x : Word) : Word := if f.mode = 5 then nextSeed x else x
    let one (x : Nat) (seed : Word) (o : Nat × Flags) : Prop := match inputOf src t x with
      | .nan sg => o = (if e5 then 0x7E else 0x7F, { nv := sg })
      | .inf n => o = if nan then (if e5 then sgn n 0x7C else 0x7F, {}) else (sgn n top, { ns := true })
      | .fin n m e => ∃ (r : Nat) (q : Int) (inexact : Bool), let x := (m : ℚ) * (2 : ℚ) ^ e
        let v := (r : ℚ) * (2 : ℚ) ^ q
        RoundedMag fm (roundMode f.mode t.fpcr) (if f.mode = 5 then some (nextSeed seed) else none) n x r q inexact ∧
        if f8Value e5 top < v then o = if nan then (if e5 then 0x7E else 0x7F, { of := true, nx := true })
          else (sgn n top, { ns := true, nx := true })
        else ∃ mag ≤ top, o.1 = sgn n mag ∧ f8Value e5 mag = v ∧ RoundedFlags fm inexact x v o.2
    let s1 := next t.srseed
    let s2 := next s1
    let s3 := next s2
    ∃ o0 o1 o2 o3, one (xs.getD 0 0) t.srseed o0 ∧ one (xs.getD 1 0) s1 o1 ∧ one (xs.getD 2 0) s2 o2 ∧ one (xs.getD 3 0) s3 o3 ∧
      out.1.1 = o0.1 + 256 * o1.1 + 65536 * o2.1 + 16777216 * o3.1 ∧
      out.1.2 = ((((readFlags src t xs).or o0.2).or o1.2).or o2.2).or o3.2 ∧ out.2 = next s3) ∧
  (∀ f : FmtA, f.var.toNat < 6 → f.b.toNat ≤ 1 → ∃ out : Group → Thread → DWord, Gives64 (.upf8 f) f.d out ∧ ∀ g t,
    let e5 := f.var.getLsbD 0
    let w := if 4 ≤ f.var.toNat then 32 else 16
    let dst := if f.var.toNat / 2 = 0 then f16 else if f.var.toNat / 2 = 1 then b16 else f32
    let a := (src32 g t f.sA f.a).toNat
    ∀ i < 64 / w, let c := a / 256 ^ (if w = 32 then 2 * f.b.toNat + i else i) % 256
      let got := (out g t).toNat / 2 ^ (w * i) % 2 ^ w
      let mag := c % 128
      let neg := decide (128 ≤ c)
      if (if e5 then 0x7C < mag else mag = 0x7F) then got = dst.nan
      else if e5 ∧ mag = 0x7C then got = dst.signed neg dst.infBits
      else ∃ m e, dst.decode got = .fin neg m e ∧ (m : ℚ) * (2 : ℚ) ^ e = f8Value e5 mag)

/-- spec/07_instr_float_convert_blockfp.md R183 to R187: each conversion completes wherever it is at issue: the subset goes on,
and of the registers at most the destination's change. -/
def Sys2Proof.Claims.ConversionsComplete : Prop :=
  ∀ (f : FmtA) (s : State) (u : Issuer) (g : Group),
    ∀ i ∈ [Instr.cvtif f, .cvtfi f, .cvtff f, .pkf8 f, .upf8 f, .pkh f], AtIssue s i u g →
      ∃ s', exec i s = .next s' ∧ OnlyNumeric s s' u g ∧ EachLane s i u g s' fun _ t t' => NextPc t t' ∧
        ∀ j, j ≠ f.d.toNat → j ≠ f.d.toNat + 1 → holds t' j = holds t j

/-- ConversionForms, EightBitFloatForms and ConversionsComplete, together. -/
def Obligations.FormatConversions : Prop :=
  Claims.ConversionForms ∧ Claims.EightBitFloatForms ∧ Claims.ConversionsComplete

/-- spec/07_instr_float_convert_blockfp.md R182 and the exact cases of R181: the special functions complete for every
input, with the table's values and flags, and never set NX. Elsewhere the result is a free value inside R181's bound
(notes/assumptions/3.md), of which nothing is stated. -/
def Sys2Proof.Claims.SpecialFunctionValues : Prop :=
  ∀ f : FmtA,
    let one : Nat := 0x3F800000
    let inf (n : Bool) : Nat := f32.signed n f32.infBits
    let bad : Nat × Flags := (f32.nan, { nv := true })
    let of (i : Instr) (tab : Machine.Num → Nat × Flags → Prop) : Prop :=
      GivesNum i false f.d fun g t out =>
        let x := (src32 g t f.sA f.a).toNat
        ∃ o, tab (inputOf f32 t x) o ∧ out = (o.1, (readFlags f32 t [x]).or o.2) ∧ o.2.nx = false ∧
          ((inputOf f32 t x).isNan = true → out.1 = f32.nan)
    let is2 (x : Machine.Num) (k : Int) (neg : Bool) : Prop := ratOf x = (if neg then -1 else 1) * (2 : ℚ) ^ k
    let value (o : Nat × Flags) (v : ℚ) : Prop := ratOf (f32.decode o.1) = v ∧ (f32.decode o.1).isInf = false
    of (.rcp f) (fun x o => (∀ n, x = .inf n → o = (f32.signed n 0, {})) ∧
      (x.isZero → o = (inf x.neg?, { dz := true })) ∧
      ∀ k n, -127 ≤ k → k ≤ 126 → is2 x k n → value o ((if n then -1 else 1) * (2 : ℚ) ^ (-k))) ∧
    of (.rsq f) (fun x o => (x = .inf false → o = (0, {})) ∧ (x.isZero → o = (inf x.neg?, { dz := true })) ∧
      (x.neg? = true → x.isZero = false → o = bad) ∧ ∀ k, is2 x (2 * k) false → value o ((2 : ℚ) ^ (-k))) ∧
    of (.sqrta f) (fun x o => (x = .inf false → o = (inf false, {})) ∧ (x.isZero → o = (f32.signed x.neg? 0, {})) ∧
      (x.neg? = true → x.isZero = false → o = bad) ∧ ∀ k, is2 x (2 * k) false → value o ((2 : ℚ) ^ k)) ∧
    of (.exp2 f) (fun x o => (x = .inf false → o = (inf false, {})) ∧ (x = .inf true → o = (0, {})) ∧
      (x.isZero → o = (one, {})) ∧ (∀ k : Int, -126 ≤ k → k ≤ 127 → x.isInf = false → x.isNan = false →
        ratOf x = k → value o ((2 : ℚ) ^ k)) ∧
      (x.isInf = false → 128 ≤ ratOf x → o = (inf false, { of := true }))) ∧
    of (.log2 f) (fun x o => (x = .inf false → o = (inf false, {})) ∧ (x.isZero → o = (inf true, { dz := true })) ∧
      (x.neg? = true → x.isZero = false → o = bad) ∧ (∀ k : Int, is2 x k false → value o k) ∧
      (ratOf x = 1 → o.1 = 0)) ∧
    of (.sin f) (fun x o => (x.isInf → o = bad) ∧ (x.isZero → o = (f32.signed x.neg? 0, {}))) ∧
    of (.cos f) (fun x o => (x.isInf → o = bad) ∧ (x.isZero → o = (one, {}))) ∧
    of (.tanh f) (fun x o => (x.isInf → o = (f32.signed x.neg? one, {})) ∧ (x.isZero → o = (f32.signed x.neg? 0, {})))

/-- A block of 64 elements packed at width w: its exponents and codes (R189). -/
def Sys2Proof.Claims.Packed (w : Nat) (x : Nat → Machine.Num) (EA EB : Nat) (code : Nat → Nat) : Prop :=
  let mw := w - 2
  let near (v : ℚ) (n : Nat) (q : Int) : Prop := -- n is |v| in steps of 2^q, RNE, at most 2^mw − 1
    ∃ k : Nat, n = min k (2 ^ mw - 1) ∧ |(|v| / (2 : ℚ) ^ q) - k| ≤ 1 / 2 ∧
      (|(|v| / (2 : ℚ) ^ q) - k| = 1 / 2 → k % 2 = 0)
  let top (k : Int) (p : Nat → Prop) : Prop :=
    (∀ e < 64, p e → |ratOf (x e)| < (2 : ℚ) ^ (k + 1)) ∧ ∃ e < 64, p e ∧ (2 : ℚ) ^ k ≤ |ratOf (x e)|
  ((∃ e < 64, (x e).isNan ∨ (x e).isInf) → EA = 255 ∧ EB = 0 ∧ ∀ e < 64, code e = 0) ∧
  ((∀ e < 64, (x e).isZero) → EA = 0 ∧ EB = 0 ∧ ∀ e < 64, code e = if (x e).neg? then 2 ^ mw else 0) ∧
  ((∀ e < 64, (x e).isNan = false ∧ (x e).isInf = false) → (∃ e < 64, (x e).isZero = false) →
    (∃ k : Int, top k (fun e => (x e).isZero = false) ∧ (EA : Int) = min (max (k + 128) 1) 254) ∧
    let qa : Int := EA - 127 - mw
    let qb : Int := EB - 127 - mw
    let small (e : Nat) : Prop := (x e).isZero = false ∧ near (ratOf (x e)) 0 qa
    ((∀ e < 64, ¬ small e) → EB = 0) ∧
    ((∃ e < 64, small e) → ∃ k : Int, top k small ∧ (EB : Int) = max (k + 128) (max ((EA : Int) - 24) 1)) ∧
    ∀ e < 64, ∃ na nb n sel, near (ratOf (x e)) na qa ∧ near (ratOf (x e)) nb qb ∧
      code e = n + (if (x e).neg? then 2 ^ mw else 0) + (if sel then 2 ^ (mw + 1) else 0) ∧
      (sel = true ↔ EB ≠ 0 ∧ abs (|ratOf (x e)| - nb * (2 : ℚ) ^ qb) < abs (|ratOf (x e)| - na * (2 : ℚ) ^ qa)) ∧
      n = if sel then nb else na)

/-- spec/07_instr_float_convert_blockfp.md R188 to R191: BPACK, BUNPK and BEXP. -/
def Sys2Proof.Claims.BlockVectorForms : Prop :=
  (∀ (f : FmtA) (s : State) (u : Issuer) (g : Group), f.var.toNat < 3 → AtIssue s (.bpack f) u g →
    let w := 4 + 2 * f.var.toNat
    let x (e : Nat) : Machine.Num :=
      if e / 2 ∈ pSet s (.bpack f) u g then
        ((entry s (.bpack f) u g).thread? ⟨u.slot, e / 2⟩).elim (.fin false 0 0) fun t =>
          inputOf f32 t ((src64 (groupAt s (.bpack f) u g) t f.sA f.a).toNat / 2 ^ (32 * (e % 2)) % 2 ^ 32)
      else .fin false 0 0
    ∃ (s' : State) (EA EB : Nat) (code : Nat → Nat), exec (.bpack f) s = .next s' ∧ OnlyNumeric s s' u g ∧
      (EachLane s (.bpack f) u g s' fun l _ t' => f.d ≠ 0 →
        t'.reg f.d.toNat = BitVec.ofNat 32 (code (2 * l) + 2 ^ w * code (2 * l + 1) + 65536 * EA + 16777216 * EB)) ∧
      Packed w x EA EB code) ∧
  (∀ f : FmtA, f.var.toNat < 8 → f.var.toNat % 4 ≠ 3 → GivesNum (.bunpk f) true f.d fun g t out =>
    let w := 4 + 2 * (f.var.toNat % 4)
    let mw := w - 2
    let a := (src32 g t f.sA f.a).toNat
    let h := (src32 g t f.sB f.b).toNat / (if 4 ≤ f.var.toNat then 65536 else 1) % 65536
    ∀ i < 2, let c := a / 2 ^ (w * i) % 2 ^ w
      let r := out.1 / 2 ^ (32 * i) % 2 ^ 32
      let E := if c / 2 ^ (w - 1) = 1 then h / 256 else h % 256
      let neg := decide (c / 2 ^ mw % 2 = 1)
      if h % 256 = 255 then r = 0x7FC00000
      else if h % 256 = 0 ∨ E = 0 then r = f32.signed neg 0
      else ftzOf t.fpcr = false → ∃ m e, f32.decode r = .fin neg m e ∧
        (m : ℚ) * (2 : ℚ) ^ e = (c % 2 ^ mw : Nat) * (2 : ℚ) ^ ((E : Int) - 127 - mw)) ∧
  (∀ f : FmtA, GivesNum (.bexp f) false f.d fun g t out =>
    let b := (src32 g t f.sB f.b).toInt
    let shifted (h : Nat) (o : Nat × Flags) : Prop :=
      let ea : Int := (h % 256 : Nat)
      let eb : Int := (h / 256 : Nat)
      o = if ea = 0 ∨ ea = 255 then (h, {}) else if 255 ≤ ea + b then (255, { of := true })
        else if ea + b ≤ 0 then (0, { uf := true }) else if eb ≠ 0 ∧ 256 ≤ eb + b then (255, { of := true })
        else if eb = 0 ∨ eb + b ≤ 0 then ((ea + b).toNat, { uf := decide (eb ≠ 0) })
        else ((ea + b).toNat + 256 * (eb + b).toNat, {})
    let a := (src32 g t f.sA f.a).toNat
    ∃ lo hi, shifted (a % 65536) lo ∧ shifted (a / 65536) hi ∧ out = (lo.1 + 65536 * hi.1, lo.2.or hi.2))

/-- spec/07_instr_float_convert_blockfp.md R181, R188 to R191: each special function and block instruction completes wherever it
is at issue, for every input: the subset goes on, and of the registers at most the destination's change. -/
def Sys2Proof.Claims.SpecialAndBlockComplete : Prop :=
  ∀ (f : FmtA) (s : State) (u : Issuer) (g : Group),
    ∀ i ∈ [Instr.rcp f, .rsq f, .sqrta f, .exp2 f, .log2 f, .sin f, .cos f, .tanh f, .bpack f, .bunpk f, .bexp f],
      AtIssue s i u g → ∃ s', exec i s = .next s' ∧ OnlyNumeric s s' u g ∧ EachLane s i u g s' fun _ t t' => NextPc t t' ∧
        ∀ j, j ≠ f.d.toNat → j ≠ f.d.toNat + 1 → holds t' j = holds t j

/-- SpecialFunctionValues, BlockVectorForms and SpecialAndBlockComplete, together. -/
def Obligations.SpecialAndBlockForms : Prop :=
  Claims.SpecialFunctionValues ∧ Claims.BlockVectorForms ∧ Claims.SpecialAndBlockComplete

/-! ## Control transfer, waits, threads, system -/

/-- spec/05_instr_control_thread_system.md R125: BRA, CALL, JR, CALLR, RET and JRS to an aligned target: the link is PC + 8,
written after the target is read; the PC is the target, forwarded where a forwarding range holds it (R269); no loop
context and nothing else changes. -/
def Sys2Proof.Claims.JumpEffects : Prop :=
  ∀ (s : State) (u : Issuer) (g : Group) (fa : FmtA) (fb : FmtB) (off : BitVec 40),
    let step (o : BitVec 40) : DWord := u.pc + BitVec.ofInt 64 (8 * o.toInt)
    let case (i : Instr) (target : Group → Thread → DWord) (link : BitVec 9) : Prop :=
      AtIssue s i u g → (∀ l t, LaneAt s i u g l t → t.guardHolds u.g = true → (target (groupAt s i u g) t).toNat % 8 = 0) →
      ∃ s', exec i s = .next s' ∧ OnlyLanes s s' u g ∧ EachLane s i u g s' fun _ t t' =>
        WentTo u.slot (s.forward (dieOfSlot u.slot) g.asid (target (groupAt s i u g) t)) t t' ∧
        (∀ j, holds t' j = if link ≠ 0 ∧ j = link.toNat then .known ((u.pc + 8).setWidth 32)
          else if link ≠ 0 ∧ j = link.toNat + 1 then .known (((u.pc + 8) >>> 32).setWidth 32) else holds t j) ∧
        t' = { t with regs := t'.regs, loaded := t'.loaded, pc := t'.pc, run := t'.run, held := t'.held }
    case (.bra off) (fun _ _ => step off) 0 ∧ case (.call fb) (fun _ _ => step fb.off) fb.link ∧
    case (.jr fa) (fun gr t => src64 gr t fa.sA fa.a) 0 ∧ case (.callr fa) (fun gr t => src64 gr t fa.sA fa.a) fa.d ∧
    case (.ret fa) (fun gr t => src64 gr t fa.sA fa.a) 0 ∧ case (.jrs fa) (fun gr _ => gr.sreg fa.a.toNat) 0

/-- spec/05_instr_control_thread_system.md R125: a target whose bits [2:0] are not 0 takes cause 0x03 with the target as
datum; the PC stands and no link is written. The thread is parked on a SIMT core (R37) and traps to the operating system on
a latency core (R350). -/
def Sys2Proof.Claims.MisalignedJumpFaults : Prop :=
  ∀ (s : State) (u : Issuer) (g : Group) (f : FmtA),
    ∀ i ∈ [Instr.jr f, .callr f, .ret f, .jrs f], AtIssue s i u g →
      let target (t : Thread) : DWord :=
        if i = .jrs f then (groupAt s i u g).sreg f.a.toNat else src64 (groupAt s i u g) t f.sA f.a
      (isLatency u.slot = false → ∃ s', exec i s = .next s' ∧
        ∀ l t, LaneAt s i u g l t → t.guardHolds u.g = true → (target t).toNat % 8 ≠ 0 →
          s'.thread? ⟨u.slot, l⟩ = some { t with run := .parked (causeWord 0x03 0) (target t) false }) ∧
      ∀ t, isLatency u.slot = true → g.activeAt u.pc = [0] → LaneAt s i u g 0 t → t.guardHolds u.g = true →
        (target t).toNat % 8 ≠ 0 →
        exec i s = .next ((entry s i u g).takeFault ⟨u.slot, 0⟩ (causeWord 0x03 0) (target t) t.pc false)

/-- JumpEffects and MisalignedJumpFaults, together. -/
def Obligations.JumpForms : Prop := Claims.JumpEffects ∧ Claims.MisalignedJumpFaults

/-- spec/05_instr_control_thread_system.md R128 to R130: MEET and REJOIN set the meeting value (0 means none; forwarded, R269),
MEET giving the old one; LOOP sets its context and enters the body, or skips it at count 0; LPEXIT of an active context
leaves past its end. -/
def Obligations.ReconvergenceForms : Prop :=
  ∀ (s : State) (u : Issuer) (g : Group) (f : FmtA),
    let gr (i : Instr) := groupAt s i u g
    let new (i : Instr) (t : Thread) : DWord :=
      let n := src64 (gr i) t f.sA f.a
      s.forward (dieOfSlot u.slot) g.asid (if n = 0 then 0xFFFFFFFFFFFFFFFF else n)
    let ends (i : Instr) (P : Thread → Thread → Prop) : Prop :=
      AtIssue s i u g → ∃ s', exec i s = .next s' ∧ OnlyLanes s s' u g ∧ EachLane s i u g s' fun _ t t' => P t t'
    ends (.meet f) (fun t t' => t'.meet = new (.meet f) t ∧ NextPc t t' ∧
      WentTo u.slot t'.pc { t with meet := t'.meet } t' ∧
      ∀ j, holds t' j = if f.d ≠ 0 ∧ j = f.d.toNat then .known (t.meet.setWidth 32)
        else if f.d ≠ 0 ∧ j = f.d.toNat + 1 then .known ((t.meet >>> 32).setWidth 32) else holds t j) ∧
    ends (.rejoin f) (fun t t' => t'.meet = new (.rejoin f) t ∧ NextPc t t' ∧
      WentTo u.slot t'.pc { t with meet := t'.meet } t' ∧ ∀ j, holds t' j = holds t j) ∧
    (f.d.toNat ≤ 1 → (f.b ≠ 0 ∨ f.c ≠ 0) → ends (.loop f) (fun t t' =>
      let n : DWord := if f.mode.getLsbD 0 then src64 (gr (.loop f)) t f.sA f.a
        else (src32 (gr (.loop f)) t f.sA f.a).setWidth 64
      let len := f.b.toNat + 512 * f.c.toNat
      let stop : DWord := t.pc + BitVec.ofNat 64 (8 * len)
      (if f.d = 0 then t'.lc0 else t'.lc1) = ⟨n, t.pc + 8, stop⟩ ∧
      (n = 0 → WentTo u.slot (stop + 8) t t' ∧ (if f.d = 0 then t'.lc1 = t.lc1 else t'.lc0 = t.lc0)) ∧
      (n ≠ 0 → (if f.d = 0 then t.lc1 else t.lc0).stop ≠ t.pc → WentTo u.slot (t.pc + 8) t t') ∧
      ∀ j, holds t' j = holds t j)) ∧
    (f.d.toNat ≤ 1 → ends (.lpexit f) (fun t t' =>
      let x := if f.d = 0 then t.lc0 else t.lc1
      (x.count = 0 → NextPc t t') ∧
      (x.count ≠ 0 → (if f.d = 0 then t'.lc0 else t'.lc1).count = 0 ∧
        (x.stop ≠ t.pc → WentTo u.slot (x.stop + 8) t t')) ∧ ∀ j, holds t' j = holds t j))

/-- spec/05_instr_control_thread_system.md R131: the loop test of an instruction at E that ends with its sequential
successor: lc1 first, then lc0 where lc1 does not go round; a context at E counts down and goes back to its start while
its count is not 0. -/
def Obligations.LoopTest : Prop :=
  ∀ t : Thread,
    let at1 := t.lc1.count ≠ 0 ∧ t.lc1.stop = t.pc
    let at0 := t.lc0.count ≠ 0 ∧ t.lc0.stop = t.pc
    let goes1 := at1 ∧ t.lc1.count ≠ 1
    (t.loopNext.2 = if goes1 then t.lc1.start else if at0 ∧ t.lc0.count ≠ 1 then t.lc0.start else t.pc + 8) ∧
    t.loopNext.1.lc1 = (if at1 then { t.lc1 with count := t.lc1.count - 1 } else t.lc1) ∧
    t.loopNext.1.lc0 = (if ¬ goes1 ∧ at0 then { t.lc0 with count := t.lc0.count - 1 } else t.lc0) ∧
    t.loopNext.1 = { t with lc0 := t.loopNext.1.lc0, lc1 := t.loopNext.1.lc1 }

/-- Register `j` after `n` bytes that read `v` are written at register `d` (R196): one register, zero- or sign-extended,
or n / 4 of them; index 0 discards. -/
def Sys2Proof.Claims.loadedReg (t : Thread) (d n : Nat) (sx : Bool) (v j : Nat) : Val 32 :=
  if d = 0 then holds t j
  else if n ≤ 4 then
    if j ≠ d then holds t j
    else .known (if sx then (BitVec.ofNat (8 * n) v).signExtend 32 else BitVec.ofNat 32 v)
  else if d ≤ j ∧ j < d + n / 4 then .known (BitVec.ofNat 32 (v / 2 ^ (32 * (j - d)))) else holds t j

/-- spec/05_instr_control_thread_system.md R139 to R144 and spec/01_execution_model.md R15, R24: the waits, by one lane. A
polled wait whose read meets its condition completes at once, writes what it read, and leaves q undefined; one whose
condition is not met blocks; WAITS of a word with ERR set takes cause 0x09 with its address; BAR of a thread without a cohort
completes at once, and one by the last thread of its unit lets every thread of the unit go on (R24); a kept wake ends SLEEP,
which gives 1; WAKE goes on and its lanes keep the wake; GSYNC by the last member to arrive lets every member go on (R15). -/
def Sys2Proof.Claims.WaitForms : Prop :=
  ∀ (s : State) (u : Issuer) (g : Group) (f : FmtA) (l : Nat) (t : Thread),
    let w : Who := ⟨u.slot, l⟩
    let e (i : Instr) := entry s i u g
    let polls (i : Instr) (wt : Wait) : Prop := Solo s i u g l t →
      (∀ ws a k s1, (e i).poll w g.asid wt = .done ws a k s1 → ∃ s' t', exec i s = .next s' ∧ s'.thread? w = some t' ∧
        (∀ j, j < 0x1F8 → holds t' j = holds (t.write ws) j) ∧ NextPc t t') ∧
      (∀ s1, (e i).poll w g.asid wt = .unmet s1 → ∃ s', exec i s = .next s' ∧
        s'.thread? w = (s1.thread? w).map fun x => { x with run := .waiting wt true 0 })
    -- the read of n bytes at `a` comes at once: of local memory, or of a scratchpad of the cluster
    let goes (i : Instr) (met : Prop) (wt : Wait) (P : Thread → Prop) : Prop := ∃ s' t', exec i s = .next s' ∧
      s'.thread? w = some t' ∧ (met → P t' ∧ NextPc t t') ∧ (¬ met → t'.run = .waiting wt true 0 ∧ t'.pc = t.pc)
    let inMemory (i : Instr) (a : DWord) (n : Nat) (x : Nat) : Prop := Solo s i u g l t ∧ Prompt s ∧
      (∀ r ∈ s.reqs, r.who.slot ≠ u.slot) ∧ a.toNat % n = 0 ∧ ∃ t0 tg s1,
        (e i).translate (coreOfSlot u.slot) g.asid (isSup u.slot) a .read = .ok (t0, s1) ∧ s1.redirect t0 = (tg, none) ∧
        tg.kind = .local_ ∧ s1.memFault tg n true = none ∧ (e i).bpFor w t g.asid 1 a.toNat n = none ∧
        x = leVal (memRead s1.mem tg.pa n)
    let inSpad (i : Instr) (a : DWord) (n : Nat) (x : Nat) : Prop := Solo s i u g l t ∧ Prompt s ∧
      isLatency u.slot = false ∧ (∀ r ∈ s.reqs, r.who.slot ≠ u.slot) ∧ a.toNat % n = 0 ∧ ∃ c off,
        (e i).spadCheck u.slot g.asid a n = .ok (c, off) ∧ (s.core c).spoiled = [] ∧ x = leVal (memRead (s.spadOf c) off n)
    let va := src64 (groupAt s (.waitv f) u g) t f.sA f.a
    let wide := f.var.getLsbD 3
    let cmp := srcW wide (groupAt s (.waitv f) u g) t f.sB f.b
    let acq := if f.c.toNat / 8 % 4 = 1 then some (f.c.toNat % 8) else none
    let wv : Wait := .waitv va (f.var.extractLsb' 0 2) (f.var.getLsbD 2) wide cmp f.d.toNat acq
    let sw := src64 (groupAt s (.waits f) u g) t f.sA f.a
    let gen := (src32 (groupAt s (.waits f) u g) t f.sB f.b).toNat % 128
    let slot := src64 (groupAt s (.waitp f) u g) t f.sA f.a
    let count := src32 (groupAt s (.waitp f) u g) t f.sB f.b
    polls (.waitv f) wv ∧ polls (.waits f) (.waits sw gen) ∧ polls (.waitp f) (.waitp slot count) ∧
    (∀ x, inMemory (.waitv f) va (if wide then 8 else 4) x → f.d.toNat < 0x1F7 →
      let sg := f.var.getLsbD 2
      let v : Int := if wide then (if sg then (BitVec.ofNat 64 x).toInt else x) else if sg then (BitVec.ofNat 32 x).toInt else x
      let b : Int := if wide then (if sg then cmp.toInt else cmp.toNat)
        else if sg then (cmp.setWidth 32).toInt else (cmp.setWidth 32).toNat
      goes (.waitv f) (match f.var.toNat % 4 with
        | 0 => v = b
        | 1 => v ≠ b
        | 2 => b ≤ v
        | _ => v < b) wv fun t' => ∀ j < 0x1F8, holds t' j = loadedReg t f.d.toNat (if wide then 8 else 4) false x j) ∧
    (∀ x, inSpad (.waits f) sw 8 x → x / 2 ^ 63 = 0 → goes (.waits f) (x / 2 ^ 56 % 128 ≠ gen) (.waits sw gen) fun t' =>
      ∀ j < 0x1F8, holds t' j = holds t j) ∧
    (∀ x, inSpad (.waits f) sw 8 x → x / 2 ^ 63 ≠ 0 → ∃ s', exec (.waits f) s = .next s' ∧
      s'.thread? w = some { t with run := .parked (causeWord 0x09 0) sw false }) ∧
    (∀ x, inSpad (.waitp f) slot 16 x →
      goes (.waitp f) (x / 2 ^ 64 % 2 ^ 32 ≠ count.toNat ∨ x.testBit 96 = false ∨ x.testBit 98 = true) (.waitp slot count)
        fun t' => ∀ j < 0x1F8, holds t' j = holds t j) ∧
    (Solo s (.bar f) u g l t → t.cohort = 0 → ∃ s' t', exec (.bar f) s = .next s' ∧ s'.thread? w = some t' ∧ NextPc t t' ∧
      ∀ j < 0x1F8, holds t' j = holds t j) ∧
    (Solo s (.bar f) u g l t → t.cohort ≠ 0 → s.cohort? t.cohort = none → Settled (e (.bar f)) w t →
      ∃ s', exec (.bar f) s = .next s' ∧
        s'.thread? w = some { t with run := .waiting (.bar f.var.toNat) true 0 }) ∧
    (∀ co, let k := f.var.toNat
      let n := hdrUnit co.header k
      let at_ (x : Thread) := flatOfWid co.header x.wid.toNat / n
      let ws := (s.barWaiters t.cohort k).filter fun x => at_ x.2 == at_ t
      Solo s (.bar f) u g l t → t.cohort ≠ 0 → s.cohort? t.cohort = some co → k < 6 → Settled (e (.bar f)) w t →
      KeysRise s.groups → (∀ p ∈ s.groups, KeysRise p.2.members) →
      ws.length + 1 + (co.ended.filter fun x => x / n == at_ t).length = n →
      ∃ s', exec (.bar f) s = .next s' ∧ ∀ x ∈ (w, t) :: ws, ∃ t', s'.thread? x.1 = some t' ∧ NextPc x.2 t' ∧
        ∀ j < 0x1F8, holds t' j = holds x.2 j) ∧
    (Solo s .gsync u g l t → Settled (e .gsync) w t → s.frozen = false → KeysRise g.members →
      (∀ x ∈ g.members, x.1 ≠ l → x.2.run.inGsync = true) →
      ∃ s', exec .gsync s = .next s' ∧ ∀ x ∈ g.members, ∃ t', s'.thread? ⟨u.slot, x.1⟩ = some t' ∧ NextPc x.2 t' ∧
        ∀ j < 0x1F8, holds t' j = holds x.2 j) ∧
    (Solo s (.sleep f) u g l t → l < 32 → g.wake.getLsbD l = true → f.d.toNat < 0x1F8 →
      ∃ s' g' t', exec (.sleep f) s = .next s' ∧ s'.group? u.slot = some g' ∧ g'.wake.getLsbD l = false ∧
        lookup l g'.members = some t' ∧ NextPc t t' ∧
        ∀ j < 0x1F8, holds t' j = if f.d ≠ 0 ∧ j = f.d.toNat then .known 1 else holds t j) ∧
    (Solo s (.sleep f) u g l t → g.wake.getLsbD l = false →
      let limit := (src32 (groupAt s (.sleep f) u g) t f.sA f.a).toNat
      ∃ s', exec (.sleep f) s = .next s' ∧
        s'.thread? w = some { t with run := .waiting (.sleep limit f.d.toNat) true 0 }) ∧
    (Solo s (.wake f) u g l t → Settled (e (.wake f)) w t → l < 32 →
      ∃ s' g' t', exec (.wake f) s = .next s' ∧ s'.group? u.slot = some g' ∧ s'.thread? w = some t' ∧ NextPc t t' ∧
        ∀ k < 32, (src32 (groupAt s (.wake f) u g) t f.sA f.a).getLsbD k = true →
          (∀ x, lookup k g.members = some x → x.run.asleep = none) → k ≠ l →
          (lookup k g.members).isSome = true → g'.wake.getLsbD k = true)

/-- spec/01_execution_model.md R20, with the header of R18 and R19: the first four checks of FANOUT, in their order; `cs` are the
conditions of the codes. -/
def Sys2Proof.Claims.HeaderCodes (h : List Byte) : Prop :=
  let e (k : Nat) := field h (24 + 4 * k) 4
  let wd (k : Nat) := field h 16 8 / 2 ^ (6 * k) % 64
  let fl := field h 12 4
  let c1 := (∃ k < 6, e k = 0 ∨ 2 ^ wd k < e k) ∨ 64 < wd 0 + wd 1 + wd 2 + wd 3 + wd 4 + wd 5 ∨ 2 ^ 36 ≤ field h 16 8
  let c2 := fpValid (w32 (field h 8 4)) = false
  let c3 := 2 ^ 18 ≤ fl ∨ field h 56 8 ≠ 0 ∨ ∃ k < 6, fl.testBit (2 + k) = true ∧ fl.testBit (8 + k) = true
  let c4 := field h 0 8 % 8 ≠ 0 ∨ field h 48 8 % 8 ≠ 0
  (hdrError h = some 1 ↔ c1) ∧ (hdrError h = some 2 ↔ ¬ c1 ∧ c2) ∧ (hdrError h = some 3 ↔ ¬ c1 ∧ ¬ c2 ∧ c3) ∧
    (hdrError h = some 4 ↔ ¬ c1 ∧ ¬ c2 ∧ ¬ c3 ∧ c4) ∧ ∀ code, hdrError h = some code → 1 ≤ code ∧ code ≤ 6

/-- spec/05_instr_control_thread_system.md R132 to R136 with R18, R23, R28, R30: MIGRATE of a settled thread writes its
frame and waits for its destination; FANOUT with a good header queues a cohort and gives its id, and with a bad one gives
the code of its first failing check; EXIT takes the thread out of its group and, of a cohort, adds 1 to the completion word
and ends the thread's place; YIELD goes on. A bad MIGRATE target takes cause 0x01 with detail 1, a header that is not
128-aligned cause 0x03. -/
def Sys2Proof.Claims.ThreadForms : Prop :=
  ∀ (s : State) (u : Issuer) (g : Group) (f : FmtA) (l : Nat) (t : Thread),
    let w : Who := ⟨u.slot, l⟩
    let e (i : Instr) := entry s i u g
    let target := (src32 (groupAt s (.migrate f) u g) t f.sA f.a).toNat
    let good := target ≤ 4 ∨ (8 ≤ target ∧ target ≤ 10)
    let frame := (e (.migrate f)).tframe (dieOfSlot u.slot) g.asid { t.loopNext.1 with pc := t.loopNext.2 }
    (Solo s (.migrate f) u g l t → Settled (e (.migrate f)) w t → good → frame ≠ 0 → frame.toNat % 64 = 0 →
      (∀ s1, (e (.migrate f)).writeVa (coreOfSlot u.slot) g.asid false frame
          (frameBytes { t.loopNext.1 with pc := t.loopNext.2 } g.footprint g.asid t.loopNext.2 0 .none)
          (lines (frameSize g.footprint)) = .ok s1 →
        ∃ s', exec (.migrate f) s = .next s' ∧
          s'.thread? w = (s1.thread? w).map fun x => { x with run := .migrating target frame x.pc })) ∧
    (Solo s (.migrate f) u g l t → isLatency u.slot = false → ¬ good →
      ∃ s', exec (.migrate f) s = .next s' ∧
        s'.thread? w = some { t with run := .parked (causeWord 0x01 1) u.word false }) ∧
    (∀ h, HeaderCodes h) ∧
    (∀ va, va = src64 (groupAt s (.fanout f) u g) t f.sA f.a →
      Solo s (.fanout f) u g l t → va.toNat % 128 ≠ 0 → isLatency u.slot = false → ∃ s', exec (.fanout f) s = .next s' ∧
        s'.cohorts = s.cohorts ∧ s'.thread? w = some { t with run := .parked (causeWord 0x03 0) va false }) ∧
    (∀ h s1, Solo s (.fanout f) u g l t → Settled (e (.fanout f)) w t →
      let va := src64 (groupAt s (.fanout f) u g) t f.sA f.a
      va.toNat % 128 = 0 → (e (.fanout f)).readVa (coreOfSlot u.slot) g.asid u.sup va 128 (lines 128) = .ok (h, s1) →
      let gives (s' : State) (v : DWord) : Prop := ∀ x, s1.thread? w = some x → ∃ t', s'.thread? w = some t' ∧ NextPc x t' ∧
        ∀ j, holds t' j = if f.d ≠ 0 ∧ j = f.d.toNat then .known (v.setWidth 32)
          else if f.d ≠ 0 ∧ j = f.d.toNat + 1 then .known ((v >>> 32).setWidth 32) else holds x j
      (hdrError h = none → ∃ s', exec (.fanout f) s = .next s' ∧ gives s' (BitVec.ofNat 64 s1.newId) ∧
        ∃ co, lookup s1.newId s'.cohorts = some co ∧ co.header = h ∧ co.asid = g.asid ∧ co.ended = [] ∧
          co.waiting ≠ none) ∧
      (∀ code, hdrError h = some code → ∃ s', exec (.fanout f) s = .next s' ∧ s'.cohorts = s1.cohorts ∧
        gives s' (0xFFFFFFFF00000000 + BitVec.ofNat 64 code))) ∧
    (Solo s .exit u g l t → Settled (e .exit) w t → s.cohort? t.cohort = none → isLatency u.slot = false →
      KeysRise g.members → ∃ s', exec .exit s = .next s' ∧ s'.thread? w = none) ∧
    (∀ co bs s1 s2, Solo s .exit u g l t → Settled (e .exit) w t → s.cohort? t.cohort = some co → isLatency u.slot = false →
      Prompt s → g.members.map (·.1) = [l] → t.numTraps = [] → (∀ k < 6, s.barWaiters t.cohort k = []) →
      co.ended.length + 1 < hdrCount co.header →
      let va := d64 (field co.header 48 8)
      va ≠ 0 → va.toNat % 8 = 0 → (e .exit).readVa (coreOfSlot u.slot) g.asid false va 8 (lines 8) = .ok (bs, s1) →
      s1.writeVa (coreOfSlot u.slot) g.asid false va (leBytes 8 (leVal bs + 1)) (lines 8) = .ok s2 →
      (∃ x, (e .exit).translate (coreOfSlot u.slot) g.asid false va .update = .ok x) →
      ∃ s' co', exec .exit s = .next s' ∧ s'.thread? w = none ∧ s'.mem = s2.mem ∧ s'.cohort? t.cohort = some co' ∧
        co'.ended = flatOfWid co.header t.wid.toNat :: co.ended) ∧
    (AtIssue s .yield u g → ∃ s', exec .yield s = .next s' ∧ ∀ k x, LaneAt s .yield u g k x →
      s'.thread? ⟨u.slot, k⟩ = some (x.advance (isLatency u.slot)))

/-- WaitForms and ThreadForms, together. -/
def Obligations.WaitsAndThreads : Prop := Claims.WaitForms ∧ Claims.ThreadForms

/-- spec/05_instr_control_thread_system.md R146, R147, R149, R150 and spec/01_execution_model.md R38: NOP changes nothing but the PC; TRAP and BRKPT
enter the user handler of a thread that has one and is not in it, UCAUSE, UEPC and UDATA written; ERET goes back to
UEPC; LIVE goes on; STEP and PTAG raise SEQ, STEP.begin clearing the path of PATHTOK.
(That STEP and PTAG raise SEQ is the model's reading of notes/assumptions/72.md.) -/
def Obligations.SystemForms : Prop :=
  ∀ (s : State) (u : Issuer) (g : Group) (f : FmtA) (off : BitVec 40),
    let gr (i : Instr) := groupAt s i u g
    let enters (i : Instr) (cause : Nat) (datum : Thread → DWord) : Prop :=
      AtIssue s i u g → (∀ l t, LaneAt s i u g l t → t.guardHolds u.g = true → t.utv ≠ 0 ∧ t.inHandler = false) →
      ∃ s', exec i s = .next s' ∧ OnlyLanes s s' u g ∧ EachLane s i u g s' fun _ t t' =>
        t'.ucause = causeWord cause 0 ∧ t'.uepc = t.loopNext.2 ∧ t'.udata = datum t ∧ t'.inHandler = true ∧
        WentTo u.slot t.utv t t' ∧ ∀ j < 0x1F8, holds t' j = holds t j
    (AtIssue s .nop u g → ∃ s', exec .nop s = .next s' ∧ OnlyLanes s s' u g ∧
      EachLane s .nop u g s' fun _ t t' => t' = t.advance (isLatency u.slot)) ∧
    enters (.trap f) 0x0D (fun t => src64 (gr (.trap f)) t f.sA f.a) ∧
    ((s.dreg (dieOfSlot u.slot) 0x400).getLsbD 0 = true → enters (.brkpt f) 0x0C fun _ => BitVec.ofNat 64 f.a.toNat) ∧
    (AtIssue s .eret u g → ∃ s', exec .eret s = .next s' ∧ OnlyLanes s s' u g ∧
      EachLane s .eret u g s' fun _ t t' => t'.inHandler = false ∧
        WentTo u.slot (s.forward (dieOfSlot u.slot) g.asid t.uepc) t t' ∧ ∀ j < 0x1F8, holds t' j = holds t j) ∧
    (AtIssue s (.live off) u g → ∃ s', exec (.live off) s = .next s' ∧
      EachLane s (.live off) u g s' fun _ t t' => NextPc t t' ∧ ∀ j < 0x1F8, holds t' j = holds t j) ∧
    ∀ i ∈ [Instr.stepBegin f, .stepEnd f, .ptag f], AtIssue s i u g → ∃ s', exec i s = .next s' ∧
      EachLane s i u g s' fun _ t t' => t' =
        ({ t with seq := t.seq + 1, pathtok := if i = .stepBegin f then t.pathtok &&& 0xFFF0000000000000 else t.pathtok } :
          Thread).advance (isLatency u.slot)

/-- spec/05_instr_control_thread_system.md R146 with R31 and R350: SYSCALL of a settled latency thread enters supervisor
mode at SVEC; ERET in supervisor mode gives the hardware thread to the thread whose frame is at SFRAME and to user
mode, at the frame's PC, forwarded (R269). That what a frame does not hold goes on from the entry is the model's choice (notes/assumptions/78.md). -/
def Obligations.SupervisorEntryAndReturn : Prop :=
  ∀ (s : State) (u : Issuer) (g gs : Group) (l : Nat) (t : Thread),
    (Solo s .syscall u g l t → KeysRise s.groups → KeysRise (s.die 4).switched → isLatency u.slot = true →
      isSup u.slot = false → slotOf u.slot < 2 → l = 0 → s.group? (supSlot u.slot) = some gs → gs.members.map (·.1) = [0] → Settled (entry s .syscall u g) ⟨u.slot, 0⟩ t →
      ∃ s', exec .syscall s = .next s' ∧ (s'.hwThread u.slot).sup = true ∧ (s'.hwThread u.slot).masked = true ∧
        s'.group? u.slot = none ∧ ∃ x, s'.thread? ⟨supSlot u.slot, 0⟩ = some x ∧
          x.pc = s.dreg (dieOfSlot u.slot) 0x0B8 ∧ x.run = .ready ∧
          ∃ k, s'.kept (s'.dreg (dieOfSlot u.slot) (0x100 + 8 * hwOnDie u.slot)).toNat = some k ∧ k.gcyc = g.gcyc ∧
            k.tmr = g.tmr ∧ k.sregs = g.sregs) ∧
    (Solo s .eretSupervisor u g l t → isSup u.slot = true → slotOf u.slot < 4 →
      let die := dieOfSlot u.slot
      let pa := (s.dreg die (0x100 + 8 * hwOnDie u.slot)).toNat
      ∀ hd bs, s.readPhys pa 384 = .ok hd → s.readPhys pa (frameSize (w32 (field hd 88 4))) = .ok bs →
      let k := (s.kept pa).getD Group.fresh
      let r := (lookup 0 k.members).getD Thread.fresh
      let asid := field bs 132 4 % 65536
      let loaded (st : Nat) : Thread := s.withLife asid (threadOf bs st)
      (∀ st, (threadOf bs st).sysPend = false ∧ (threadOf bs st).signal = none) →
      ∃ s' x, exec .eretSupervisor s = .next s' ∧ (s'.hwThread u.slot).sup = false ∧
        (s'.hwThread u.slot).masked = false ∧ s'.thread? ⟨userSlot u.slot, 0⟩ = some x ∧
        (∃ st, x = ({ loaded st with
          timer := r.timer, numTraps := r.numTraps, deferred := r.deferred, owed := r.owed, pathRem := r.pathRem } :
            Thread).arrive true (s.forward die asid (threadOf bs st).pc)) ∧
        ∃ g', s'.group? (userSlot u.slot) = some g' ∧ g'.gcyc = k.gcyc ∧ g'.tmr = k.tmr ∧ g'.sregs = k.sregs) ∧
    (Solo s .syscall u g l t → isLatency u.slot = false → Settled (entry s .syscall u g) ⟨u.slot, l⟩ t →
      let frame := (entry s .syscall u g).tframe (dieOfSlot u.slot) g.asid { t with sysPend := true }
      frame ≠ 0 → frame.toNat % 64 = 0 →
      ∀ s1, (entry s .syscall u g).writeVa (coreOfSlot u.slot) g.asid false frame
          (frameBytes { t with sysPend := true } g.footprint g.asid t.pc 0 .none) (lines (frameSize g.footprint)) = .ok s1 →
        ∃ s', exec .syscall s = .next s' ∧
          s'.thread? ⟨u.slot, l⟩ = (s1.thread? ⟨u.slot, l⟩).map fun x => { x with run := .migrating 8 frame x.pc })

/-- D takes the old value of a CSR access: its register, or its pair. -/
def Sys2Proof.Claims.OldTo (f : FmtC) (old : DWord) (t t' : Thread) : Prop :=
  ∀ j, holds t' j = if f.d ≠ 0 ∧ j = f.d.toNat then .known (old.setWidth 32)
    else if f.wide = true ∧ f.d ≠ 0 ∧ j = f.d.toNat + 1 then .known ((old >>> 32).setWidth 32) else holds t j

/-- The operand of a CSR write. -/
def Sys2Proof.Claims.csrOperand (f : FmtC) (g : Group) (t : Thread) : DWord :=
  if f.wide then src64 g t f.sA f.a else (src32 g t f.sA f.a).setWidth 64

/-- The CSR writes, each with what it makes of the old value and the operand (R148). -/
def Sys2Proof.Claims.csrWrites (f : FmtC) : List (Instr × (DWord → DWord → DWord)) :=
  [(.csrw f, fun _ x => x), (.csrset f, fun o x => o ||| x), (.csrclr f, fun o x => o &&& ~~~x)]

/-- spec/05_instr_control_thread_system.md R148 with R92 to R96, for the thread's own registers: CSRR reads; CSRW, CSRSET
and CSRCLR write x, old OR x, old AND NOT x, in the bits the register has, SRSEED 1 for 0, WID of cohort 0 alone, COHORT never; D takes
the old value. -/
def Sys2Proof.Claims.ThreadCsrs : Prop :=
  ∀ (s : State) (u : Issuer) (g : Group) (l : Nat) (t : Thread) (f : FmtC),
    let w : Who := ⟨u.slot, l⟩
    let regs : List (Nat × (Thread → DWord) × (DWord → DWord)) :=
      [(0x000, fun t => t.fpcr.setWidth 64, fun v => v &&& 7), (0x001, fun t => t.fpsr.setWidth 64, fun v => v &&& 0x7F),
       (0x002, fun t => t.srseed.setWidth 64, fun v => if v.setWidth 32 = (0 : Word) then 1 else v &&& 0xFFFFFFFF),
       (0x003, Thread.pathtok, fun v => v &&& 0xFFFFFFFFFFFFF), (0x004, Thread.utv, fun v => v &&& 0xFFFFFFFFFFFFFFF8),
       (0x005, Thread.uepc, fun v => v &&& 0xFFFFFFFFFFFFFFF8), (0x006, Thread.udata, fun v => v),
       (0x007, fun t => t.ucause.setWidth 64, fun v => v &&& 0x73F), (0x009, fun t => t.cohort.setWidth 64, fun v => v),
       (0x00A, Thread.wid, fun v => if t.cohort = 0 then v else t.wid), (0xA00, fun t => t.seq.setWidth 64, fun v => v &&& 0xFFFFFFFF)]
    ∀ r ∈ regs, f.csr.toNat = r.1 →
      (Solo s (.csrr f) u g l t → ∃ s' t', exec (.csrr f) s = .next s' ∧ OnlyLanes s s' u g ∧
        s'.thread? w = some t' ∧ OldTo f (r.2.1 t) t t' ∧ WentOn t t' ∧ NextPc t t') ∧
      ∀ i ∈ csrWrites f, r.1 ≠ 0x009 → Solo s i.1 u g l t → ∃ s' t', exec i.1 s = .next s' ∧ OnlyLanes s s' u g ∧
        s'.thread? w = some t' ∧ OldTo f (r.2.1 t) t t' ∧ NextPc t t' ∧ (∀ k < 8, t'.guard k = t.guard k) ∧
        r.2.1 t' = r.2.2 (i.2 (r.2.1 t) (csrOperand f (groupAt s i.1 u g) t))

/-- spec/03_state_formats_assembly.md R91, R92 with R148, R14: the group's registers GCYC, TMR and SPBASE. A write by a whole
group is made once, with the value of the lowest lane; each lane's D takes the value before. With no guard true nothing is
written; with some but not all, cause 0x0B in every issuing lane. -/
def Sys2Proof.Claims.GroupCsrs : Prop :=
  ∀ (s : State) (u : Issuer) (g : Group) (f : FmtC),
    let old : DWord := if f.csr.toNat = 0x100 then g.gcyc else if f.csr.toNat = 0x101 then g.tmr else g.spbase.setWidth 64
    (0x100 ≤ f.csr.toNat → f.csr.toNat ≤ 0x102 → AtIssue s (.csrr f) u g → ∃ s', exec (.csrr f) s = .next s' ∧
      OnlyLanes s s' u g ∧ EachLane s (.csrr f) u g s' fun _ t t' => OldTo f old t t' ∧ WentOn t t' ∧ NextPc t t') ∧
    (0x100 ≤ f.csr.toNat → f.csr.toNat ≤ 0x101 → ∀ i ∈ csrWrites f, AtIssue s i.1 u g →
      (∀ l t, Whole s i.1 u g → (g.activeAt u.pc).head? = some l → LaneAt s i.1 u g l t →
        let x := i.2 old (csrOperand f (groupAt s i.1 u g) t)
        ∃ s' g', exec i.1 s = .next s' ∧ OnlyGroups s s' ∧ (∀ k, k ≠ u.slot → s'.group? k = s.group? k) ∧
          s'.group? u.slot = some g' ∧ g' = { g with members := g'.members, gcyc := g'.gcyc, tmr := g'.tmr } ∧
          g'.gcyc = (if f.csr.toNat = 0x100 then x else g.gcyc) ∧ g'.tmr = (if f.csr.toNat = 0x101 then x else g.tmr) ∧
          ∀ k t0, LaneAt s i.1 u g k t0 → ∃ t', lookup k g'.members = some t' ∧ OldTo f old t0 t' ∧ WentOn t0 t' ∧ NextPc t0 t') ∧
      (pSet s i.1 u g = [] → ∃ s', exec i.1 s = .next s' ∧ OnlyLanes s s' u g ∧ EachLane s i.1 u g s' fun _ _ _ => False) ∧
      (pSet s i.1 u g ≠ [] → ¬ Whole s i.1 u g → isLatency u.slot = false → ∃ s' g', exec i.1 s = .next s' ∧
        s'.group? u.slot = some g' ∧ g'.gcyc = g.gcyc ∧ g'.tmr = g.tmr ∧
        ∀ l t, LaneAt s i.1 u g l t → lookup l g'.members = some { t with run := .parked (causeWord 0x0B 0) u.word false }))

/-- spec/03_state_formats_assembly.md R91, R92 with R148, R283: the core's and the die's registers. A read gives the register,
and of ALW and ALWD the allowance; a write stores the value within the register's range, and changes no other register. -/
def Sys2Proof.Claims.CoreCsrs : Prop :=
  ∀ (s : State) (u : Issuer) (g : Group) (l : Nat) (t : Thread) (f : FmtC),
    let w : Who := ⟨u.slot, l⟩
    let core := coreOfSlot u.slot
    let die := dieOfSlot u.slot
    let n := f.csr.toNat
    let range : List (Nat × Nat × Nat) := [(0x800, 64, 65535), (0x801, 8192, 1048575), (0x802, 256, 1048575),
      (0x803, 16, 65535), (0x804, 0, 16777215), (0x805, 1024, 2 ^ 31)]
    let plain := n ∈ [0x1D0, 0x1D1, 0x1D2, 0x1D3, 0x1D4, 0x1D5, 0x1D6, 0x1D7, 0x808, 0x809, 0x80A, 0x80B, 0x80C, 0x80D, 0x80E, 0x80F]
    let clamp (lo hi x : Nat) : Nat := max lo (min hi x)
    -- what the register stores of a 32-bit value
    let stores (x y : Nat) : Prop := (∀ r ∈ range, n = r.1 → y = clamp r.2.1 r.2.2 x) ∧ (n = 0x806 → y = x % 256) ∧
      (n = 0x1C8 → y = x % 2) ∧ (n = 0x900 → y = min 65535 x) ∧ (plain → y = x)
    let val (s : State) : DWord := if n = 0x900 then (s.die die).packwin.setWidth 64 else (s.core core).reg n
    let known := n ∈ range.map (fun r => r.1) ∨ n = 0x806 ∨ n = 0x1C8 ∨ n = 0x900 ∨ plain
    let reads (v : DWord) : Prop := Solo s (.csrr f) u g l t → ∃ s' t', exec (.csrr f) s = .next s' ∧ OnlyLanes s s' u g ∧
      s'.thread? w = some t' ∧ OldTo f v t t' ∧ WentOn t t' ∧ NextPc t t'
    (known → reads (val s)) ∧
    (0x180 ≤ n → n < 0x1C0 → reads (BitVec.ofNat 64 (allowance s core (n - 0x180)))) ∧
    (0x1C0 ≤ n → n < 0x1C8 → reads (BitVec.ofNat 64 (dieAllowance s core (n - 0x1C0)))) ∧
    (known → ∀ i ∈ csrWrites f, Solo s i.1 u g l t → ∃ s' t', exec i.1 s = .next s' ∧ s'.mem = s.mem ∧ s'.spad = s.spad ∧
      (∀ k, k ≠ u.slot → s'.group? k = s.group? k) ∧ s'.thread? w = some t' ∧ OldTo f (val s) t t' ∧ WentOn t t' ∧ NextPc t t' ∧
      stores ((i.2 (val s) (csrOperand f (groupAt s i.1 u g) t)).toNat % 2 ^ 32) (val s').toNat ∧
      (n = 0x805 → (s'.core core).window = 0) ∧ (∀ k, k ≠ n → (s'.core core).reg k = (s.core core).reg k) ∧
      (n ≠ 0x900 → s'.dies = s.dies) ∧ ∀ k, k ≠ core → s'.core k = s.core k)

/-- ThreadCsrs, GroupCsrs and CoreCsrs, together. -/
def Obligations.CsrForms : Prop := Claims.ThreadCsrs ∧ Claims.GroupCsrs ∧ Claims.CoreCsrs

/-! ## Memory -/

/-- The context of an instruction at issue. -/
def Sys2Proof.Claims.ctxAt (s : State) (i : Instr) (u : Issuer) (g : Group) : Ctx := ⟨u, groupAt s i u g, g.activeAt u.pc⟩

/-- An access of `n` bytes that goes to local memory of this package (R192, R194): it translates with permission to
`tg`, whose page is not in move and whose memory answers; no breakpoint matches it (R380) and nothing of the group is in
flight (R49), and the pace is prompt; neither sampling (R294) nor the hot-page tracker (R345) writes a record. `s1` is the
state with the page-table entry marked (R342). -/
structure Sys2Proof.Claims.Reaches (s : State) (i : Instr) (u : Issuer) (g : Group) (l : Nat) (t : Thread) (acc : Acc)
    (kind : Nat) (va : DWord) (n : Nat) (tg : Target) (s1 : State) : Prop where
  aim : (entry s i u g).aim (ctxAt s i u g) acc va n = .ok (tg, none, s1)
  home : tg.kind = .local_
  good : s1.memFault tg n acc.reads = none
  quiet : s1.bpFor ⟨u.slot, l⟩ t g.asid kind va.toNat n = none
  idle : ∀ r ∈ s1.reqs, r.who.slot ≠ u.slot
  prompt : Prompt s1
  plain : t.back = none
  unsampled : (s1.core (coreOfSlot u.slot)).reg 0xA08 = 0
  untracked : unitDie tg.unit = dieOfSlot u.slot ∨ 4 ≤ unitDie tg.unit ∨ s1.dreg (unitDie tg.unit) 0x070 = 0

/-- Byte `k` of the registers from `d`; index 0 is the literal zero (R101, R196). -/
def Sys2Proof.Claims.regByte (t : Thread) (d k : Nat) : Byte :=
  if d = 0 then 0 else BitVec.ofNat 8 ((t.reg (d + k / 4)).toNat / 2 ^ (8 * (k % 4)))

/-- `n` bytes of the registers from `d` as a number. -/
def Sys2Proof.Claims.regNum (t : Thread) (d n : Nat) : Nat := ((List.range n).map fun k => (regByte t d k).toNat * 256 ^ k).sum

/-- Every group but the issuer's, and every member but lane `l`, stands, and so do all scratchpads. -/
structure Sys2Proof.Claims.OnlyLane (s s' : State) (u : Issuer) (l : Nat) : Prop where
  groups : ∀ k, k ≠ u.slot → s'.group? k = s.group? k
  members : ∀ k, k ≠ l → s'.thread? ⟨u.slot, k⟩ = s.thread? ⟨u.slot, k⟩
  spad : s'.spad = s.spad

/-- `i` loads `n` bytes of local memory to register `d`. -/
def Sys2Proof.Claims.Loads (i : Instr) (va : Group → Thread → DWord) (n : Nat) (sx : Bool) (d : BitVec 9) : Prop :=
  ∀ s u g l t tg s1, Solo s i u g l t → Reaches s i u g l t .read 1 (va (groupAt s i u g) t) n tg s1 →
    ∃ s' t', exec i s = .next s' ∧ OnlyLane s s' u l ∧ s'.thread? ⟨u.slot, l⟩ = some t' ∧ WentOn t t' ∧ NextPc t t' ∧
      (∀ j, holds t' j = loadedReg t d.toNat n sx (leVal (memRead s1.mem tg.pa n)) j) ∧
      ∀ a, memByte s'.mem a = memByte s1.mem a

/-- `i` stores `n` bytes of the registers from `d` to local memory of its own die. -/
def Sys2Proof.Claims.Stores (i : Instr) (va : Group → Thread → DWord) (n : Nat) (d : BitVec 9) (rel : Bool) : Prop :=
  ∀ s u g l t tg s1, Solo s i u g l t → Reaches s i u g l t .write 2 (va (groupAt s i u g) t) n tg s1 →
    tg.die = dieOfSlot u.slot → unitDie tg.unit = dieOfSlot u.slot → Memory.wf s1.mem = true →
    (rel = true → Settled s1 ⟨u.slot, l⟩ t) →
    ∃ s', exec i s = .next s' ∧ OnlyLane s s' u l ∧ s'.thread? ⟨u.slot, l⟩ = some (t.advance (isLatency u.slot)) ∧
      ∀ a, memByte s'.mem a = if tg.pa ≤ a ∧ a < tg.pa + n then regByte t d.toNat (a - tg.pa) else memByte s1.mem a

/-- What an atomic makes of the old value `o`, the operand `b` and the comparand `c`. -/
abbrev Sys2Proof.Claims.NewValue := (w : Nat) → BitVec w → BitVec w → BitVec w → BitVec w → Prop

/-- `i` updates `n` bytes of local memory of its own die in one step and gives the old value. -/
def Sys2Proof.Claims.Updates (i : Instr) (f : FmtN) (new : NewValue) : Prop :=
  ∀ s u g l t tg s1, let n := 2 ^ f.sz.toNat
    Solo s i u g l t → Reaches s i u g l t .update 3 (baseOf (groupAt s i u g) t f.ub f.ba) n tg s1 →
    tg.die = dieOfSlot u.slot → unitDie tg.unit = dieOfSlot u.slot → Memory.wf s1.mem = true →
    (f.ord.getLsbD 1 = true → Settled s1 ⟨u.slot, l⟩ t) →
    let old := leVal (memRead s1.mem tg.pa n)
    ∃ s' t' v, exec i s = .next s' ∧ OnlyLane s s' u l ∧
      new (8 * n) (BitVec.ofNat _ old) (BitVec.ofNat _ (regNum t f.db.toNat n)) (BitVec.ofNat _ (regNum t f.dc.toNat n)) v ∧
      s'.thread? ⟨u.slot, l⟩ = some t' ∧ WentOn t t' ∧ NextPc t t' ∧
      (∀ j, holds t' j = loadedReg t f.t.toNat n false old j) ∧
      ∀ a, memByte s'.mem a = if tg.pa ≤ a ∧ a < tg.pa + n then BitVec.ofNat 8 (v.toNat / 256 ^ (a - tg.pa))
        else memByte s1.mem a

/-- The eleven operations of R200, each with its global and its scratchpad form. -/
def Sys2Proof.Claims.atomics (f : FmtN) : List (Instr × Instr × NewValue) :=
  [(.aadd f, .aaddSpad f, fun _ o b _ v => v = o + b), (.aand f, .aandSpad f, fun _ o b _ v => v = o &&& b),
   (.aor f, .aorSpad f, fun _ o b _ v => v = o ||| b), (.axor f, .axorSpad f, fun _ o b _ v => v = o ^^^ b),
   (.amin f, .aminSpad f, fun _ o b _ v => v = if b.toInt < o.toInt then b else o),
   (.amax f, .amaxSpad f, fun _ o b _ v => v = if o.toInt < b.toInt then b else o),
   (.aminn f, .aminnSpad f, fun _ o b _ v => v = if b.toNat < o.toNat then b else o),
   (.amaxn f, .amaxnSpad f, fun _ o b _ v => v = if o.toNat < b.toNat then b else o),
   (.aswap f, .aswapSpad f, fun _ _ b _ v => v = b), (.acas f, .acasSpad f, fun _ o b c v => v = if o = c then b else o),
   (.afadd f, .afaddSpad f, fun w o b _ v => let k := if w = 32 then Machine.f32 else Machine.f64
      ∃ x, SumOf k .rne false (k.decode o.toNat) (k.decode b.toNat) x ∧ v.toNat = x.1)]

/-- spec/08_instr_memory_atomic_standing.md R195, R196, R199: LD and ST of local memory, and LDS and STS of a latency
core, which reach memory by virtual address. LD reads 1 to 16 bytes; ST writes the registers' bytes at the address and
nothing else. -/
def Sys2Proof.Claims.LoadAndStoreForms : Prop :=
  (∀ f : FmtM, f.sz.toNat ≤ 4 →
    let va (g : Group) (t : Thread) := src64 g t f.ub f.ba + f.off.signExtend 64
    Loads (.ld f) va (2 ^ f.sz.toNat) f.sx f.t ∧ Stores (.st f) va (2 ^ f.sz.toNat) f.t (f.ord == 2)) ∧
  ∀ (f : FmtN) (s : State) (u : Issuer) (g : Group) (l : Nat) (t : Thread), f.sz.toNat ≤ 4 → isLatency u.slot = true →
    (∀ tg s1, Solo s (.lds f) u g l t →
      Reaches s (.lds f) u g l t .read 1 (src64 (groupAt s (.lds f) u g) t f.ub f.ba) (2 ^ f.sz.toNat) tg s1 →
      ∃ s' t', exec (.lds f) s = .next s' ∧ OnlyLane s s' u l ∧ s'.thread? ⟨u.slot, l⟩ = some t' ∧ NextPc t t' ∧
        ∀ j, holds t' j = loadedReg t f.t.toNat (2 ^ f.sz.toNat) f.sx (leVal (memRead s1.mem tg.pa (2 ^ f.sz.toNat))) j) ∧
    ∀ tg s1, Solo s (.sts f) u g l t →
      Reaches s (.sts f) u g l t .write 2 (src64 (groupAt s (.sts f) u g) t f.ub f.ba) (2 ^ f.sz.toNat) tg s1 →
      tg.die = dieOfSlot u.slot → unitDie tg.unit = dieOfSlot u.slot → Memory.wf s1.mem = true →
      (f.ord = 2 → Settled s1 ⟨u.slot, l⟩ t) →
      ∃ s', exec (.sts f) s = .next s' ∧ OnlyLane s s' u l ∧
        s'.thread? ⟨u.slot, l⟩ = some (t.advance (isLatency u.slot)) ∧
        ∀ a, memByte s'.mem a = if tg.pa ≤ a ∧ a < tg.pa + 2 ^ f.sz.toNat then regByte t f.t.toNat (a - tg.pa)
          else memByte s1.mem a

/-- spec/08_instr_memory_atomic_standing.md R200 to R202: the global atomics on local memory of the own die: the old value
to T, the table's new value to memory; ASWAP and ACAS of 16 bytes too. -/
def Sys2Proof.Claims.AtomicForms : Prop :=
  ∀ f : FmtN, (f.sz.toNat = 2 ∨ f.sz.toNat = 3 →
    Updates (.aadd f) f (fun _ o b _ v => v = o + b) ∧
    Updates (.aand f) f (fun _ o b _ v => v = o &&& b) ∧
    Updates (.aor f) f (fun _ o b _ v => v = o ||| b) ∧
    Updates (.axor f) f (fun _ o b _ v => v = o ^^^ b) ∧
    Updates (.amin f) f (fun _ o b _ v => v = if b.toInt < o.toInt then b else o) ∧
    Updates (.amax f) f (fun _ o b _ v => v = if o.toInt < b.toInt then b else o) ∧
    Updates (.aminn f) f (fun _ o b _ v => v = if b.toNat < o.toNat then b else o) ∧
    Updates (.amaxn f) f (fun _ o b _ v => v = if o.toNat < b.toNat then b else o) ∧
    Updates (.afadd f) f (fun w o b _ v => let k := if w = 32 then Machine.f32 else Machine.f64
      ∃ x, SumOf k .rne false (k.decode o.toNat) (k.decode b.toNat) x ∧ v.toNat = x.1)) ∧
    (f.sz.toNat = 2 ∨ f.sz.toNat = 3 ∨ f.sz.toNat = 4 → Updates (.aswap f) f (fun _ _ b _ v => v = b) ∧
      Updates (.acas f) f (fun _ o b c v => v = if o = c then b else o))

/-- LoadAndStoreForms and AtomicForms, together. -/
def Obligations.LocalMemoryForms : Prop := Claims.LoadAndStoreForms ∧ Claims.AtomicForms

/-- spec/08_instr_memory_atomic_standing.md R192, R199, R200: LDS, STS and the scratchpad atomics on a SIMT core: on the
scratchpad of the core that the address names; memory and every other scratchpad stand, and so do other groups but for the
matrix follow-ons that the write of a sync word queues (R229). -/
def Obligations.ScratchpadForms : Prop :=
  ∀ (f : FmtN) (s : State) (u : Issuer) (g : Group) (l : Nat) (t : Thread) (core off : Nat), isLatency u.slot = false →
    let n := 2 ^ f.sz.toNat
    let a (i : Instr) := src64 (groupAt s i u g) t f.ub f.ba
    let ready (i : Instr) : Prop := Solo s i u g l t ∧ (entry s i u g).spadAim (ctxAt s i u g) (a i) n = .ok (core, off) ∧
      (∀ r ∈ s.reqs, r.who.slot ≠ u.slot) ∧ Memory.wf (s.spadOf core) = true ∧ Prompt s ∧ t.back = none ∧
      s.spadOwned g.asid core off n = true ∧ (s.core core).spoiled = []
    let old := leVal (memRead (s.spadOf core) off n)
    let stands (s' : State) : Prop := s'.mem = s.mem ∧ (∀ k, k ≠ u.slot → queuesApart (s'.group? k) = queuesApart (s.group? k)) ∧
      ∀ k, k ≠ core → s'.spadOf k = s.spadOf k
    let updates (i : Instr) (new : NewValue) : Prop := ready i → (f.ord.getLsbD 1 = true → Settled s ⟨u.slot, l⟩ t) →
      ∃ s' t' v, exec i s = .next s' ∧ stands s' ∧ s'.thread? ⟨u.slot, l⟩ = some t' ∧ WentOn t t' ∧ NextPc t t' ∧
        new (8 * n) (BitVec.ofNat _ old) (BitVec.ofNat _ (regNum t f.db.toNat n)) (BitVec.ofNat _ (regNum t f.dc.toNat n)) v ∧
        (∀ j, holds t' j = loadedReg t f.t.toNat n false old j) ∧
        ∀ b, memByte (s'.spadOf core) b = if off ≤ b ∧ b < off + n then BitVec.ofNat 8 (v.toNat / 256 ^ (b - off))
          else memByte (s.spadOf core) b
    (f.sz.toNat ≤ 4 → ready (.lds f) → ∃ s' t', exec (.lds f) s = .next s' ∧ stands s' ∧ s'.spadOf core = s.spadOf core ∧
      s'.thread? ⟨u.slot, l⟩ = some t' ∧ WentOn t t' ∧ NextPc t t' ∧ ∀ j, holds t' j = loadedReg t f.t.toNat n f.sx old j) ∧
    (f.sz.toNat ≤ 4 → ready (.sts f) → (f.ord = 2 → Settled s ⟨u.slot, l⟩ t) →
      ∃ s', exec (.sts f) s = .next s' ∧ stands s' ∧
        s'.thread? ⟨u.slot, l⟩ = some (t.advance (isLatency u.slot)) ∧
        ∀ b, memByte (s'.spadOf core) b = if off ≤ b ∧ b < off + n then regByte t f.t.toNat (b - off)
          else memByte (s.spadOf core) b) ∧
    (f.sz.toNat = 2 ∨ f.sz.toNat = 3 →
      updates (.aaddSpad f) (fun _ o b _ v => v = o + b) ∧
      updates (.aandSpad f) (fun _ o b _ v => v = o &&& b) ∧
      updates (.aorSpad f) (fun _ o b _ v => v = o ||| b) ∧
      updates (.axorSpad f) (fun _ o b _ v => v = o ^^^ b) ∧
      updates (.aminSpad f) (fun _ o b _ v => v = if b.toInt < o.toInt then b else o) ∧
      updates (.amaxSpad f) (fun _ o b _ v => v = if o.toInt < b.toInt then b else o) ∧
      updates (.aminnSpad f) (fun _ o b _ v => v = if b.toNat < o.toNat then b else o) ∧
      updates (.amaxnSpad f) (fun _ o b _ v => v = if o.toNat < b.toNat then b else o) ∧
      updates (.afaddSpad f) (fun w o b _ v => let k := if w = 32 then Machine.f32 else Machine.f64
      ∃ x, SumOf k .rne false (k.decode o.toNat) (k.decode b.toNat) x ∧ v.toNat = x.1)) ∧
    (f.sz.toNat = 2 ∨ f.sz.toNat = 3 ∨ f.sz.toNat = 4 → updates (.aswapSpad f) (fun _ _ b _ v => v = b) ∧
      updates (.acasSpad f) (fun _ o b c v => v = if o = c then b else o))

/-- spec/08_instr_memory_atomic_standing.md R192, R193, R201 with spec/05_instr_control_thread_system.md R153: an access that is
not naturally aligned takes cause 0x03 with its address (0x05 in a register block, R337); one that the translation or an early check refuses takes that
cause. On a SIMT core the thread is parked at the instruction, with no register of it written, and no scratchpad changes. -/
def Obligations.RefusedAccesses : Prop :=
  ∀ (s : State) (u : Issuer) (g : Group) (l : Nat) (t : Thread) (m : FmtM) (f : FmtN), isLatency u.slot = false →
    let faults (i : Instr) (acc : Acc) (va : DWord) (n : Nat) : Prop := Solo s i u g l t →
      (va.toNat % n ≠ 0 → ∃ s', exec i s = .next s' ∧ s'.spad = s.spad ∧
        let c := if (entry s i u g).blockPage (ctxAt s i u g) acc va then 0x05 else 0x03
        s'.thread? ⟨u.slot, l⟩ = some { t with run := .parked (causeWord c 0) va false }) ∧
      ∀ c d, (entry s i u g).aim (ctxAt s i u g) acc va n = .error (c, d) → ∃ s', exec i s = .next s' ∧ s'.spad = s.spad ∧
        s'.thread? ⟨u.slot, l⟩ = some { t with run := .parked (causeWord c 0) d false }
    let va (i : Instr) := src64 (groupAt s i u g) t m.ub m.ba + m.off.signExtend 64
    faults (.ld m) .read (va (.ld m)) (2 ^ m.sz.toNat) ∧ faults (.st m) .write (va (.st m)) (2 ^ m.sz.toNat) ∧
    (∀ x ∈ atomics f, faults x.1 .update (src64 (groupAt s x.1 u g) t f.ub f.ba) (2 ^ f.sz.toNat)) ∧
    ∀ i ∈ [Instr.lds f, .sts f] ++ (atomics f).map (fun x => x.2.1), Solo s i u g l t →
      ∀ c, (entry s i u g).spadAim (ctxAt s i u g) (src64 (groupAt s i u g) t f.ub f.ba) (2 ^ f.sz.toNat) = .error c →
        ∃ s', exec i s = .next s' ∧ s'.spad = s.spad ∧ s'.thread? ⟨u.slot, l⟩ =
          some { t with run := .parked (causeWord c 0) (src64 (groupAt s i u g) t f.ub f.ba) false }

/-- spec/02_memory_model.md R66 to R68 and spec/08_instr_memory_atomic_standing.md R194: accesses of peer memory
that is up, mirrored or not. A load and an atomic become requests to the peer, the atomic with its operand and comparand; a
relaxed store allocates a write-combining entry that the thread owns, with its bytes; a release store, of a thread with nothing
on its way, is one write of its bytes that carries an attribution (R67, R197, R288). The lane goes on and no memory of this
package changes. -/
def Obligations.PeerAccessForms : Prop :=
  ∀ (s : State) (u : Issuer) (g : Group) (l : Nat) (t : Thread) (tg : Target) (s1 : State) (m : FmtM) (f : FmtN),
    let core := coreOfSlot u.slot
    let w : Who := ⟨u.slot, l⟩
    let reaches (i : Instr) (acc : Acc) (kind : Nat) (va : DWord) (n : Nat) : Prop :=
      Solo s i u g l t ∧ (entry s i u g).aim (ctxAt s i u g) acc va n = .ok (tg, none, s1) ∧ tg.kind = .peer ∧
      s1.peerState tg.peer = 1 ∧ s1.bpFor w t g.asid kind va.toNat n = none ∧
      (∀ r ∈ s1.reqs, r.who.slot ≠ u.slot) ∧ (s1.core core).reg 0xA08 = 0 ∧ Prompt s1 ∧ t.fences = []
    let va (i : Instr) := src64 (groupAt s i u g) t m.ub m.ba + m.off.signExtend 64
    let sends (i : Instr) (op : ReqOp) (reg : Nat) : Prop := ∃ s', exec i s = .next s' ∧ s'.mem = s1.mem ∧
      s'.thread? w = some (t.advance (isLatency u.slot)) ∧
      ∃ r, s'.reqs = s1.reqs ++ [r] ∧ r.who = w ∧ r.op = op ∧ r.pa = tg.pa ∧ r.dest = .peer tg.peer tg.mirror ∧ r.reg = reg
    let n := 2 ^ m.sz.toNat
    (m.sz.toNat ≤ 4 → reaches (.ld m) .read 1 (va (.ld m)) n → s1.ownBytes w tg.peer tg.pa n = (none, false) →
      sends (.ld m) (.load n m.sx []) m.t.toNat) ∧
    (m.sz.toNat ≤ 4 → m.ord ≠ 2 → reaches (.st m) .write 2 (va (.st m)) n → (s1.core core).entry tg.peer (tg.pa / 64) = none →
      s1.alw core tg.peer ≠ 0 → (∀ r ∈ s1.reqs, r.isDrain = true → r.batch ≠ s1.turnNo) →
      ∃ s' e, exec (.st m) s = .next s' ∧ s'.mem = s1.mem ∧ s'.reqs = s1.reqs ∧
        s'.thread? w = some (t.advance (isLatency u.slot)) ∧ e ∈ (s'.core core).wc ∧ e.peer = tg.peer ∧
        e.mirror = tg.mirror ∧ e.line = tg.pa / 64 ∧ e.owner = w ∧ ∀ k < n, lookup ((tg.pa + k) % 64) e.bytes = some (regByte t m.t.toNat k)) ∧
    (m.sz.toNat ≤ 4 → m.ord = 2 → reaches (.st m) .write 2 (va (.st m)) n → Settled s1 w t →
      (s1.core core).entry tg.peer (tg.pa / 64) = none → s1.alw core tg.peer ≠ 0 →
      (∀ q ∈ tg.mirror.toList, s1.peerState q = 1 → s1.egressCredit core q ≠ 0) →
      ∃ s' r, exec (.st m) s = .next s' ∧ s'.mem = s1.mem ∧ s'.thread? w = some (t.advance (isLatency u.slot)) ∧
        s'.reqs = s1.reqs ++ [r] ∧ r.who = w ∧ r.pa = tg.pa ∧ r.dest = .peer tg.peer tg.mirror ∧ r.attr.isSome = true ∧
        r.op = .write ((List.range n).map fun k => (tg.pa + k, regByte t m.t.toNat k)) false) ∧
    ∀ k, f.sz.toNat = 2 ∨ f.sz.toNat = 3 ∨ f.sz.toNat = 4 →
      ∀ i, ((atomics f).map fun x => x.1)[k]? = some i →
      reaches i .update 3 (src64 (groupAt s i u g) t f.ub f.ba) (2 ^ f.sz.toNat) → s1.ownsEntry w = false →
      (f.ord.getLsbD 1 = true → Settled s1 w t) → s1.alw core tg.peer ≠ 0 →
      ∃ b c b2 c2, sends i (.atomic k (2 ^ f.sz.toNat) b c b2 c2) f.t.toNat ∧
        b.toNat + 2 ^ 64 * b2.toNat = regNum t f.db.toNat (2 ^ f.sz.toNat) ∧
        c.toNat + 2 ^ 64 * c2.toNat = regNum t f.dc.toNat (2 ^ f.sz.toNat)

/-- spec/06_instr_integer_scalar.md R174: SLD of local memory by a whole group: one load of 8 bytes for the group, its
s-register written, every lane going on. -/
def Sys2Proof.Claims.SharedLoad : Prop :=
  ∀ (s : State) (u : Issuer) (g : Group) (l : Nat) (t : Thread) (tg : Target) (s1 : State) (f : FmtA) (h : FmtI),
    let loads (i : Instr) (d : BitVec 9) (va : DWord) : Prop :=
      AtIssue s i u g → Whole s i u g → (g.activeAt u.pc).head? = some l → LaneAt s i u g l t →
      (∀ m ∈ g.members, m.2.back = none) → Reaches s i u g l t .read 1 va 8 tg s1 →
      ∃ s' g', exec i s = .next s' ∧ (∀ a, memByte s'.mem a = memByte s1.mem a) ∧ s'.spad = s.spad ∧
        (∀ k, k ≠ u.slot → s'.group? k = s.group? k) ∧ s'.group? u.slot = some g' ∧
        (∀ j, sholds g' j = if d ≠ 0 ∧ j = d.toNat then .known (BitVec.ofNat 64 (leVal (memRead s1.mem tg.pa 8))) else sholds g j) ∧
        ∀ k x, LaneAt s i u g k x → lookup k g'.members = some (x.advance (isLatency u.slot))
    let gr (i : Instr) := groupAt s i u g
    loads (.sld f) f.d (src64 (gr (.sld f)) t f.sA f.a +
      (if f.sB then (gr (.sld f)).sreg f.b.toNat else (t.reg f.b.toNat).signExtend 64)) ∧
    loads (.sldImm h) h.d ((gr (.sldImm h)).sreg h.a.toNat + h.imm.signExtend 64)

/-- SharedRegisterResults and SharedLoad, together. -/
def Obligations.SharedRegisterForms : Prop := Claims.SharedRegisterResults ∧ Claims.SharedLoad

/-- spec/08_instr_memory_atomic_standing.md R203 to R207, spec/05_instr_control_thread_system.md R151 and
spec/02_memory_model.md R70: FENCE of a thread with nothing on its way goes on, and takes a cause owed; PREF
goes on whatever its address; IINV, CLEAN and TLBI block the lane until their completion, which drops the instruction
words, finds no write of the thread in flight, or drops the translations, and lets the lane go on. -/
def Sys2Proof.Claims.FenceAndMaintenance : Prop :=
  ∀ (s : State) (u : Issuer) (g : Group) (l : Nat) (t : Thread) (f : FmtN) (id : LaneId),
    let w : Who := ⟨u.slot, l⟩
    let base (i : Instr) := src64 (groupAt s i u g) t f.ub f.ba
    let len := (t.reg f.db.toNat).toNat
    let blocks (i : Instr) (m : Maint) : Prop := Solo s i u g l t →
      ∃ s', exec i s = .next s' ∧ s'.mem = s.mem ∧ s'.thread? w = some { t with run := .maint m }
    let done (s' : State) : Prop := s'.thread? (laneWho id) = (s.thread? (laneWho id)).map fun x =>
      ({ x with run := .ready } : Thread).advance (isLatency (laneKey id))
    (Solo s (.fence f) u g l t → Settled (entry s (.fence f) u g) w t → ∃ s', exec (.fence f) s = .next s' ∧
      OnlyLanes s s' u g ∧ ∃ t', s'.thread? w = some t' ∧
        t' = { t.advance (isLatency u.slot) with back := t'.back, fences := t'.fences }) ∧
    (∀ p, Solo s (.fence f) u g l t → t.owed = some p → isLatency u.slot = false → ∃ s', exec (.fence f) s = .next s' ∧
      s'.thread? w = some { t with owed := none, run := .parked (causeWord 6 0) (BitVec.ofNat 64 p) false }) ∧
    (AtIssue s (.pref f) u g → ∃ s', exec (.pref f) s = .next s' ∧ OnlyLanes s s' u g ∧
      EachLane s (.pref f) u g s' fun _ t t' => t' = t.advance (isLatency u.slot)) ∧
    (len ≠ 0 → blocks (.iinv f) (.iinv (base (.iinv f)) len f.sc.toNat)) ∧
    (len = 0 → Solo s (.iinv f) u g l t → ∃ s', exec (.iinv f) s = .next s' ∧
      s'.thread? w = some (t.advance (isLatency u.slot))) ∧
    ((entry s (.clean f) u g).ownsEntry w = false → blocks (.clean f) (.clean (base (.clean f)) len)) ∧
    blocks (.tlbi f) (.tlbi f.sz.toNat (base (.tlbi f)) ((t.reg f.db.toNat).toNat % 65536) f.sc.toNat) ∧
    (s.subject = .lane id → (∀ x va n sc, s.thread? (laneWho id) = some x → x.run = .maint (.iinv va n sc) →
      s.writesOut (laneWho id) = false → ∃ s', exec .iinvComplete s = .next s' ∧ done s' ∧ s'.mem = s.mem ∧ (s'.core (coreOfSlot (laneKey id))).icache = [])) ∧
    (s.subject = .lane id → (∀ x va n, s.thread? (laneWho id) = some x → x.run = .maint (.clean va n) →
      s.writesOut (laneWho id) = false → s.ownsEntry (laneWho id) = false → ∃ s', exec .cleanComplete s = .next s' ∧ done s' ∧ s'.mem = s.mem)) ∧
    (s.subject = .lane id → (∀ x k va a sc, s.thread? (laneWho id) = some x → x.run = .maint (.tlbi k va a sc) →
      ∃ s', exec .tlbiComplete s = .next s' ∧ done s' ∧ s'.mem = s.mem ∧
        ∀ c ∈ s'.cores, inScope (coreOfSlot (laneKey id)) sc c.1 = true → ∀ e ∈ c.2.tlb,
          ¬ (k = 1 ∧ e.asid = a) ∧ k ≠ 2 ∧ ¬ (k = 0 ∧ e.asid = a ∧ e.va ≤ va.toNat ∧ va.toNat < e.va + e.size) ∧
          ¬ (3 ≤ k ∧ e.va ≤ va.toNat ∧ va.toNat < e.va + e.size)))

/-- spec/01_execution_model.md R34, spec/02_memory_model.md R67 and spec/12_kernel_placement_peers.md R283:
a load that arrives at a memory of this package gives its bytes to its register; a write that arrives there is in memory;
a write that arrives at a peer, and at its mirror, is in the memory of each that is up (R72); an entry of age WCAGE leaves the core for the peer. -/
def Sys2Proof.Claims.RepliesAndDrains : Prop :=
  ∀ (s : State) (i : Nat) (r : Req), let alone := Prompt s ∧ s.together r = some [r] ∧ s.here r = r ∧ r.tagged = false ∧
      ∀ e ∈ (s.core r.who.core).wc, e.leaving = false
    (s.subject = .idx i → alone → ∀ un n sx t, r.dest = .unit un → r.op = .load n sx [] → n ∈ [1, 2, 4, 8, 16] →
      pick (s.arriving Req.isFetch) i = some r → t.back = none →
      s.memFault (r.target un) n true = none → s.thread? r.who = some t →
      ∃ s' t', exec .loadReply s = .next s' ∧ (∀ x ∈ s'.reqs, x.id ≠ r.id) ∧ s'.thread? r.who = some t' ∧ t'.pc = t.pc ∧
        ∀ j, holds t' j = loadedReg t r.reg n sx (leVal (memRead s.mem r.pa n)) j) ∧
    (s.subject = .idx i → alone → ∀ un bs d, r.dest = .unit un → r.op = .write (cellsAt r.pa bs) d →
      pick (s.arriving Req.isWrite) i = some r → s.memFault (r.target un) bs.length false = none →
      (4 ≤ unitDie un ∨ s.dreg (unitDie un) 0x070 = 0) → Memory.wf s.mem = true →
      ∃ s', exec .acknowledge s = .next s' ∧ (∀ x ∈ s'.reqs, x.id ≠ r.id) ∧
        ∀ a, memByte s'.mem a = if r.pa ≤ a then bs.getD (a - r.pa) (memByte s.mem a) else memByte s.mem a) ∧
    (s.subject = .idx i → alone → ∀ p m bs d, r.dest = .peer p m → r.op = .write (cellsAt r.pa bs) d →
      (s.peerState p = 1 ∨ ∃ x, m = some x ∧ s.peerState x = 1) → pick (s.arriving Req.isWrite) i = some r →
      ∃ s', exec .acknowledge s = .next s' ∧ s'.mem = s.mem ∧ ∀ q, Memory.wf (s.peerMem q) = true →
        ∀ a, memByte (s'.peerMem q) a =
          if q ∈ p :: m.toList ∧ s.peerState q = 1 ∧ r.pa ≤ a then bs.getD (a - r.pa) (memByte (s.peerMem q) a)
          else memByte (s.peerMem q) a) ∧
    ∀ c e, s.subject = .coreIdx c i →
      let k := coreIdKey c
      pick ((s.core k).wc.filter fun e => decide (((s.core k).reg 0x803).toNat ≤ e.age) && !e.leaving) i = some e →
      s.peerState e.peer = 1 → (∀ q ∈ e.peer :: e.mirror.toList, s.egressCredit k q ≠ 0) → ∃ s' x, exec .wcageExpiry s = .next s' ∧ s'.reqs = s.reqs ++ [x] ∧ x.who = e.owner ∧
        x.dest = .peer e.peer e.mirror ∧ x.op = .write (e.bytes.map fun b => (64 * e.line + b.1, b.2)) true ∧
        ∀ y ∈ (s'.core k).wc, ¬ (y.peer = e.peer ∧ y.line = e.line)

/-- FenceAndMaintenance and RepliesAndDrains, together. -/
def Obligations.FencesAndCompletions : Prop := Claims.FenceAndMaintenance ∧ Claims.RepliesAndDrains

/-! ## Standing loads -/

/-- spec/08_instr_memory_atomic_standing.md R209, R210, R212: STAND of a local location, with no subscription and no
request at its slot, becomes one request to the home, and UNSTAND of an open subscription one request to the home it
recorded; the lane goes on. UNSTAND of a slot with none, or with one lost with its home (R317), only goes on. -/
def Sys2Proof.Claims.StandAndUnstand : Prop :=
  ∀ (s : State) (u : Issuer) (g : Group) (l : Nat) (t : Thread) (tg : Target) (s1 : State) (f : FmtN),
    let w : Who := ⟨u.slot, l⟩
    let core := coreOfSlot u.slot
    let slot := t.pair f.t.toNat
    let sends (i : Instr) (s0 : State) (op : ReqOp) (pa : Nat) (dest : Dest) : Prop := ∃ s' r, exec i s = .next s' ∧
      s'.mem = s0.mem ∧ s'.spad = s.spad ∧ s'.thread? w = some (t.advance (isLatency u.slot)) ∧
      s'.reqs = s0.reqs ++ [r] ∧ r.who = w ∧ r.op = op ∧ r.pa = pa ∧ r.dest = dest
    (Solo s (.stand f) u g l t → (entry s (.stand f) u g).slotCheck (ctxAt s (.stand f) u g) slot = none →
      Reaches s (.stand f) u g l t .read 3 (src64 (groupAt s (.stand f) u g) t f.ub f.ba) 8 tg s1 →
      s1.awaiting core g.asid slot true = false → s1.openSub core g.asid slot = none →
      sends (.stand f) s1 (.stand slot f.db.toNat) tg.pa (.unit tg.unit)) ∧
    (∀ x un, Solo s (.unstand f) u g l t → (entry s (.unstand f) u g).slotCheck (ctxAt s (.unstand f) u g) slot = none →
      s.openSub core g.asid slot = some x → x.lost = false → s.awaiting core g.asid slot false = false → x.dest = .unit un →
      sends (.unstand f) s (.unstand x.slot) x.pa x.dest) ∧
    (Solo s (.unstand f) u g l t → (entry s (.unstand f) u g).slotCheck (ctxAt s (.unstand f) u g) slot = none →
      (∀ x, s.openSub core g.asid slot = some x → x.lost = true) → ∃ s', exec (.unstand f) s = .next s' ∧ OnlyLanes s s' u g ∧
        s'.thread? w = some (t.advance (isLatency u.slot)))

/-- The slot of a subscription on a SIMT core: its bytes stand at `off` of scratchpad `c`, which the space owns (R208). -/
structure Sys2Proof.Claims.SlotAt (s : State) (core asid : Nat) (slot : DWord) (c off : Nat) : Prop where
  simt : dieOfCore core < 4
  place : spadDecode core slot = .ok (c, off)
  owned : s.spadOwned asid c off 16 = true
  good : (s.core c).spoiled = []
  wf : Memory.wf (s.spadOf c) = true
  prompt : Prompt s

/-- A slot reads VALUE, PUSHES and flags SUB, OVR, ERR, CLOSED (R208). -/
def Sys2Proof.Claims.SlotReads (s : State) (c off : Nat) (value : DWord) (pushes : Word) (sub ovr err closed : Bool) : Prop :=
  leVal (memRead (s.spadOf c) off 8) = value.toNat ∧ leVal (memRead (s.spadOf c) (off + 8) 4) = pushes.toNat ∧
  leVal (memRead (s.spadOf c) (off + 12) 4) = sub.toNat + 2 * ovr.toNat + 4 * err.toNat + 8 * closed.toNat

/-- A flag of a slot's bytes. -/
def Sys2Proof.Claims.slotFlag (s : State) (c off k : Nat) : Bool := (leVal (memRead (s.spadOf c) (off + 12) 4)).testBit k

/-- spec/08_instr_memory_atomic_standing.md R210 and spec/02_memory_model.md R61: a STAND performed at a local
home with room registers the core and writes the location's value, count 0 and SUB; without room the slot's SUB is clear
and the guard false. -/
def Sys2Proof.Claims.StandReplies : Prop :=
  ∀ (s : State) (i : Nat) (r : Req) (slot : DWord) (gd un c off : Nat) (g : Group) (t : Thread),
    let core := coreOfSlot r.who.slot
    let value := BitVec.ofNat 64 (leVal (memRead s.mem r.pa 8))
    s.subject = .idx i → pick (s.arriving Req.isStand) i = some r → s.together r = some [r] → s.here r = r →
    r.op = .stand slot gd → r.dest = .unit un → gd < 8 →
    s.memFault (r.target un) 8 true = none → (4 ≤ unitDie un ∨ s.dreg (unitDie un) 0x070 = 0) →
    s.group? r.who.slot = some g → lookup r.who.lane g.members = some t → SlotAt s core g.asid slot c off →
    let ok := decide ((s.core core).subs.length < 4096) && s.homeHasRoom (unitDie un) r.pa
    ∃ s' t', exec .standReply s = .next s' ∧ s'.mem = s.mem ∧ (∀ x ∈ s'.reqs, x.id ≠ r.id) ∧
      s'.thread? r.who = some t' ∧ (gd ≠ 0 → t'.guard gd = ok) ∧ SlotReads s' c off value 0 ok false false false ∧
      (ok = true → (∃ x ∈ (s'.core core).subs, x.slot = slot ∧ x.pa = r.pa ∧ x.dest = r.dest) ∧
        ∃ h ∈ (s'.die (unitDie un)).home, h.pa = r.pa ∧ ∃ x ∈ h.subs, x.core = core ∧ x.slot = slot ∧ x.count = 0) ∧
      (ok = false → (s'.core core).subs = (s.core core).subs)

/-- spec/02_memory_model.md R62 to R64 and spec/08_instr_memory_atomic_standing.md R211, R212: a push gives its
slot VALUE and PUSHES and leaves SUB; an owed slot is pushed with OVR when its core's queue has room; UNSTAND's
acknowledgement closes the slot with the current value, SUB clear, and the subscription is gone. -/
def Sys2Proof.Claims.PushForms : Prop :=
  (∀ (s : State) (id : CoreId) (p : Push) (ps : List Push) (x : Sub) (c off : Nat),
    let k := coreIdKey id
    s.subject = .core id → (s.core k).pushq = p :: ps → (s.core k).stopped = false → (∀ y ∈ (s.core k).subs, y.lost = false) →
    ((s.core k).subs.find? fun u => u.slot == p.slot && u.owner == p.owner && u.no == p.no) = some x → SlotAt s k x.asid p.slot c off →
    ∃ s', exec .push s = .next s' ∧ (s'.core k).pushq = ps ∧ s'.mem = s.mem ∧ (∀ w, s'.thread? w = s.thread? w) ∧
      leVal (memRead (s'.spadOf c) off 8) = p.value.toNat ∧ leVal (memRead (s'.spadOf c) (off + 8) 4) = p.count.toNat ∧
      slotFlag s' c off 0 = slotFlag s c off 0 ∧ slotFlag s' c off 1 = (slotFlag s c off 1 || p.ovr)) ∧
  (∀ (s : State) (id : CoreId) (home pa : Nat) (u : Subscriber) (x : Sub),
    let k := coreIdKey id
    s.subject = .coreIdx id home → (s.core k).pushq.length < 64 → (s.core k).stopped = false → home < 6 →
    ((s.die home).home.flatMap fun l => (l.subs.filter fun u => u.core == k && u.owed && !u.susp).map fun u => (l.pa, u)) =
      [(pa, u)] → ((s.core k).subs.find? fun z => z.slot == u.slot && z.no == u.no) = some x → Prompt s →
    (∀ q ∈ (s.core k).pushq, q.slot ≠ u.slot) →
    ∃ s' p, exec .owedPush s = .next s' ∧ (s'.core k).pushq = (s.core k).pushq ++ [p] ∧ p.slot = u.slot ∧
      p.value = s.locValue x ∧ p.count = u.count ∧ p.ovr = true ∧
      ∀ h ∈ (s'.die home).home, h.pa = pa → ∀ y ∈ h.subs, y.slot = u.slot → y.core = k → y.susp = false → y.owed = false) ∧
  ∀ (s : State) (i : Nat) (r : Req) (slot : DWord) (x : Sub) (y : Subscriber) (c off : Nat),
    let core := coreOfSlot r.who.slot
    s.subject = .idx i → pick (s.arriving Req.isUnstand) i = some r → r.op = .unstand slot →
    ((s.core core).subs.find? fun z => z.slot == slot && z.no == r.sub) = some x → x.lost = false →
    s.subscriber core x = some y → SlotAt s core x.asid slot c off →
    ∃ s', exec .unstandAck s = .next s' ∧ s'.mem = s.mem ∧ (∀ z ∈ s'.reqs, z.id ≠ r.id) ∧
      leVal (memRead (s'.spadOf c) off 8) = (s.locValue x).toNat ∧ leVal (memRead (s'.spadOf c) (off + 8) 4) = y.count.toNat ∧
      slotFlag s' c off 0 = false ∧ slotFlag s' c off 3 = true ∧ (y.owed = true → slotFlag s' c off 1 = true) ∧
      ∀ z ∈ (s'.core core).subs, ¬ (z.slot = slot ∧ z.owner = x.owner ∧ z.no = x.no)

/-- StandAndUnstand, StandReplies and PushForms, together. -/
def Obligations.StandingLoads : Prop := Claims.StandAndUnstand ∧ Claims.StandReplies ∧ Claims.PushForms

/-- spec/08_instr_memory_atomic_standing.md R194, R201, R211 and spec/20_fabric_memory_bringup.md R364: a peer's write and
atomic at a home of this package change the bytes they name, of 4, 8 and, for ASWAP and ACAS, 16 bytes; its read changes no
byte. The response enters the transmit queue with the request's tag: the bytes read, the atomic's old ones, or none, at their
places in the line, which is the model's reading of the flit (notes/assumptions/12.md). -/
def Obligations.HomeRequests : Prop :=
  ∀ (s : State) (r : HomeReq) (t : Target), s.subject = .home r → s.localAt r.pa false false = some t →
    s.redirect t = (t, none) → s.guards = [] → s.peerState r.peer = 1 → Memory.wf s.mem = true →
    let replies (s' : State) (n : Nat) (bs : List Byte) : Prop := t.pa % 64 + n ≤ 64 →
      ∃ f, (s'.link (linkDie t.die) r.peer).queue = (s.link (linkDie t.die) r.peer).queue ++ [f] ∧
        f.hdr = flitHdr s.pkg r.peer 0 3 0 0 r.tag ∧ ∀ k < 64, f.payload.getD k 0 =
          if t.pa % 64 ≤ k ∧ k < t.pa % 64 + n then bs.getD (k - t.pa % 64) 0 else 0
    (∀ bs, r.op = .write bs → s.memFault t bs.length false = none → ∃ s', exec .homeRequest s = .next s' ∧
      s'.groups = s.groups ∧ replies s' 0 [] ∧ ∀ a, memByte s'.mem a =
        if r.pa ≤ a then bs.getD (a - r.pa) (memByte s.mem a) else memByte s.mem a) ∧
    (∀ n, r.op = .read n → ∃ s', exec .homeRequest s = .next s' ∧ s'.mem = s.mem ∧ s'.groups = s.groups ∧
      (s.memFault t n true = none → replies s' n (memRead s.mem r.pa n))) ∧
    ∀ k n b c, r.op = .atomic k n b c → n = 4 ∨ n = 8 ∨ (n = 16 ∧ (k = 8 ∨ k = 9)) → s.memFault t n true = none →
      ∀ x, ((atomics ⟨0, 0, false, 0, false, 0, 0, 0, 0⟩)[k.toNat]?) = some x →
      ∃ s' v, exec .homeRequest s = .next s' ∧
        x.2.2 (8 * n) (BitVec.ofNat _ (leVal (memRead s.mem r.pa n))) (BitVec.ofNat _ b.toNat) (BitVec.ofNat _ c.toNat) v ∧
        replies s' n (memRead s.mem r.pa n) ∧
        ∀ a, memByte s'.mem a = if r.pa ≤ a ∧ a < r.pa + n then BitVec.ofNat 8 (v.toNat / 256 ^ (a - r.pa))
          else memByte s.mem a

/-! ## Sync words, copies and the matrix arrays -/

/-- spec/09_instr_matrix_copy.md R218, R219: the arithmetic of a sync word. An arrival of n bytes adds to COUNT, and each
TARGET it passes raises GEN by one modulo 128; with TARGET 0 COUNT saturates; n = 0 changes nothing; ERR and TARGET stand. SWINIT keeps GEN,
clears COUNT and ERR and sets TARGET. -/
def Obligations.SyncWordArithmetic : Prop :=
  ∀ w n b : Nat, w < 2 ^ 64 →
    let count := w % 2 ^ 28
    let target := w / 2 ^ 28 % 2 ^ 28
    let gen := w / 2 ^ 56 % 128
    let err := w / 2 ^ 63
    let arrived := swArrive w n
    (n = 0 → arrived = w) ∧ arrived / 2 ^ 28 % 2 ^ 28 = target ∧ arrived / 2 ^ 63 = err ∧
    (target = 0 → arrived % 2 ^ 28 = min (count + n) (2 ^ 28 - 1) ∧ arrived / 2 ^ 56 % 128 = gen) ∧
    (target ≠ 0 → n ≠ 0 → arrived % 2 ^ 28 = (count + n) % target ∧
      arrived / 2 ^ 56 % 128 = (gen + (count + n) / target) % 128) ∧
    swInit b w % 2 ^ 28 = 0 ∧ swInit b w / 2 ^ 28 % 2 ^ 28 = b % 2 ^ 28 ∧ swInit b w / 2 ^ 56 % 128 = gen ∧
    swInit b w / 2 ^ 63 = 0

/-- spec/09_instr_matrix_copy.md R219: SWINIT and SWADD on a SIMT core: the word at A takes its new value in one step and
D the old one; a range that fails the checks of R216 faults. -/
def Obligations.SyncWordForms : Prop :=
  ∀ (s : State) (u : Issuer) (g : Group) (l : Nat) (t : Thread) (f : FmtX) (c off : Nat), isLatency u.slot = false →
    let a := t.pair f.a.toNat
    let b := (t.reg f.b.toNat).toNat
    let old := leVal (memRead (s.spadOf c) off 8)
    let case (i : Instr) (new : Nat) : Prop := Solo s i u g l t →
      (∀ e, (entry s i u g).nearCheck u.slot g.asid u.sup a 8 8 = some e → ∃ s', exec i s = .next s' ∧ s'.spad = s.spad ∧
        s'.thread? ⟨u.slot, l⟩ = some { t with run := .parked (causeWord e 0) a false }) ∧
      ((entry s i u g).nearCheck u.slot g.asid u.sup a 8 8 = none → spadDecode (coreOfSlot u.slot) a = .ok (c, off) →
        s.spadOwned g.asid c off 8 = true → (s.core c).spoiled = [] → Memory.wf (s.spadOf c) = true → Prompt s →
        (∀ r ∈ s.reqs, r.who.slot ≠ u.slot) → s.ownsEntry ⟨u.slot, l⟩ = false → t.fences = [] → t.back = none →
        (f.p.getLsbD 1 = true → Settled s ⟨u.slot, l⟩ t) →
        ∃ s' t', exec i s = .next s' ∧ s'.mem = s.mem ∧ s'.thread? ⟨u.slot, l⟩ = some t' ∧ WentOn t t' ∧ NextPc t t' ∧
          (∀ j, holds t' j = loadedReg t f.d.toNat 8 false old j) ∧
          leVal (memRead (s'.spadOf c) off 8) = new % 2 ^ 64 ∧
          ∀ x, x < off ∨ off + 8 ≤ x → memByte (s'.spadOf c) x = memByte (s.spadOf c) x)
    case (.swinit f) (swInit b old) ∧ case (.swadd f) (swArrive old b)

/-- spec/09_instr_matrix_copy.md R214, R216, R233, R235: a command of majors 0x20 and 0x21, by one lane: where a range it
names fails its check the lane takes that cause with the range's address; else the command, with the pairs it captures,
is last in the group's queue, the lane goes on, and no tile, scratchpad or byte of memory changes. -/
def Sys2Proof.Claims.MatrixIssue : Prop :=
  ∀ (s : State) (u : Issuer) (g : Group) (l : Nat) (t : Thread) (f : FmtX),
    ∀ i ∈ [Instr.mmab4 f, .mmab6 f, .mmab8 f, .mmaf8 f, .mmah f, .mmai8 f, .mmag f, .mmas f, .azero f, .ald f, .ast f,
      .mtrn f, .mprm f, .mred f], Solo s i u g l t →
      let ranges := matRanges i f (t.pair f.a.toNat) (t.pair f.b.toNat)
        (if i = .ald f ∨ i = .ast f then t.pair f.c.toNat else 0)
      let check := (entry s i u g).matCheck u.slot g.asid u.sup .update ranges
      (check = none → ∃ s' g' c, exec i s = .next s' ∧ OnlyGroups s s' ∧ s'.group? u.slot = some g' ∧
        g'.queue = g.queue ++ [c] ∧ g'.tiles = g.tiles ∧ c.word = u.word ∧ c.a = t.pair f.a.toNat ∧
        c.b = t.pair f.b.toNat ∧ c.issuer = ⟨u.slot, l⟩ ∧ c.onArr = false ∧ c.next = 0 ∧
        lookup l g'.members = some (t.advance (isLatency u.slot))) ∧
      ∀ e a, check = some (e, a) → isLatency u.slot = false → ∃ s' g', exec i s = .next s' ∧
        s'.group? u.slot = some g' ∧ g'.queue = g.queue ∧ g'.tiles = g.tiles ∧
        lookup l g'.members = some { t with run := .parked (causeWord e 0) a false }

/-- A command on the array that can be performed (R233): nothing that its issuer did before it is on its way, no operand or
tile is uncorrectable, and no follow-on of the group waits. -/
structure Sys2Proof.Claims.OnArray (s : State) (x : SlotId) (g : Group) (c : MatCmd) (cs : List MatCmd) (i : Instr) (f : FmtX) :
    Prop where
  subject : s.subject = .slot x
  group : s.group? (slotIdKey x) = some g
  queue : g.queue = c :: cs
  onArr : c.onArr = true
  runs : s.arraysRun (slotIdKey x) g = true
  instr : c.instr = some (i, f)
  poison : c.poison = false
  untouched : c.got = [] ∧ c.part = 0
  prompt : Prompt s
  idle : ∀ r ∈ s.reqs, r.of c.issuer = false
  entries : s.ownsEntry c.issuer = false
  operands : ∀ k, (s.core k).spoiled = []
  tiles : ∀ n, (g.tile n).ecc = false
  follows : g.follows = []

/-- Element (r, n) of tile `d` of a group. -/
def Sys2Proof.Claims.elemOf (g : Group) (d r n : Nat) : BitVec 42 := get (g.tile d).elems (128 * r + n) 0
def Sys2Proof.Claims.tileErr (g : Group) (d : Nat) : Bool := (g.tile d).err
/-- The bytes a command of the group reads at an address. -/
def Sys2Proof.Claims.operand (s : State) (g : Group) (c : MatCmd) (a : DWord) (n : Nat) : List Byte :=
  s.matBytes (c.doer g.asid) a n

/-- The word at which a command counts is in scratchpad `q` at `o`, in a region of the group's address space. -/
structure Sys2Proof.Claims.SyncAt (s : State) (g : Group) (c : MatCmd) (q o : Nat) : Prop where
  named : c.c ≠ 0
  place : spadDecode (coreOfSlot c.issuer.slot) c.c = .ok (q, o)
  owned : s.spadOwned g.asid q o 8 = true
  wf : Memory.wf (s.spadOf q) = true
/-- The word at `o` of scratchpad `q`. -/
def Sys2Proof.Claims.wordAt (s : State) (q o : Nat) : Nat := leVal (memRead (s.spadOf q) o 8)

/-- Values added to an element one after another, each sum rounded to nearest even in the accumulator format (R238). -/
def Sys2Proof.Claims.Added : List Machine.Num → BitVec 42 → BitVec 42 → Prop
  | [], a, v => v = a
  | x :: xs, a, v => ∃ o, SumOf fAcc .rne false (fAcc.decode a.toNat) x o ∧ Added xs (BitVec.ofNat 42 o.1) v

/-- spec/09_instr_matrix_copy.md R241, R243 with spec/10_number_formats_arithmetic.md R254: the commands on whole tiles, as
they complete: AZERO gives zeros and clears the tile's error; ALD gives the binary32 elements' own values, and counts 65,536
bytes; MTRN transposes; MPRM takes the rows its permutation names, zero for 128 and above; MRED gives its group sums, row by
row in increasing order, and zeros below. The command leaves the queue. -/
def Sys2Proof.Claims.TileCommands : Prop :=
  ∀ (s : State) (x : SlotId) (g : Group) (c : MatCmd) (cs : List MatCmd) (f : FmtX),
    let k := slotIdKey x
    let d := f.d.toNat % 16
    let src := f.a.toNat % 16
    let ends (i : Instr) (err : Bool) (Q : State → Prop) (P : Nat → Nat → BitVec 42 → Prop) : Prop :=
      OnArray s x g c cs i f → ∃ s' g', exec .matrixCommandComplete s = .next s' ∧ s'.group? k = some g' ∧ g'.queue = cs ∧
        (∀ e, e ≠ d → g'.tile e = g.tile e) ∧ tileErr g' d = err ∧ Q s' ∧ ∀ r < 128, ∀ n < 128, P r n (elemOf g' d r n)
    let quiet (s' : State) : Prop := s'.spad = s.spad ∧ s'.mem = s.mem
    ends (.azero f) false quiet (fun _ _ v => v = 0) ∧
    (isLatency k = false → isLatency c.issuer.slot = false → ends (.ald f) false
      (fun s' => (c.c = 0 → quiet s') ∧
        ∀ q o, SyncAt s g c q o → wordAt s' q o = swArrive (wordAt s q o) 65536 % 2 ^ 64)
      (fun r n v => match Machine.f32.decode (field (operand s g c c.a 65536) (512 * r + 4 * n) 4) with
        | .nan _ => v.toNat = fAcc.nan
        | .inf neg => v.toNat = fAcc.signed neg fAcc.infBits
        | .fin neg m e => ∃ m' e', fAcc.decode v.toNat = .fin neg m' e' ∧ ratOf (.fin neg m' e') = ratOf (.fin neg m e))) ∧
    (tileErr g d = false → ends (.mtrn f) (tileErr g src) quiet (fun r n v => v = elemOf g src n r)) ∧
    (tileErr g d = false → isLatency c.issuer.slot = false → ends (.mprm f) (tileErr g src) quiet (fun r n v =>
      let p := (field (operand s g c c.b 128) r 1)
      v = if p < 128 then elemOf g src p n else 0)) ∧
    (tileErr g d = false → ends (.mred f) (tileErr g src) quiet (fun r n v =>
      let m := 2 ^ (f.p.toNat % 8)
      if r < 128 / m then
        Added ((List.range (m - 1)).map fun j => fAcc.decode (elemOf g src (r * m + j + 1) n).toNat) (elemOf g src (r * m) n) v
      else v = 0))

/-- spec/09_instr_matrix_copy.md R242 with R189: AST, as it completes: each element rounded to nearest even to binary32 or
bfloat16, with SAT held to the largest finite value, at its row and column; .bx8 packs each row's two blocks of the elements
rounded to binary32, codes first and then the scales. CLR then clears the tile. It counts the bytes written. A tile with its error
set is not written; ERR is set (R234). -/
def Sys2Proof.Claims.StoredTiles : Prop :=
  ∀ (s : State) (x : SlotId) (g : Group) (c : MatCmd) (cs : List MatCmd) (f : FmtX) (core off : Nat),
    let k := slotIdKey x
    let d := f.d.toNat % 16
    let fmt := f.p.toNat % 4
    let len := if fmt = 0 then 65536 else if fmt = 1 then 32768 else 16896
    let rounds (ft : FpFmt) (r n v : Nat) : Prop :=
      ∃ fl, ConvertedTo ft .rne none (f.p.getLsbD 3) false (fAcc.decode (elemOf g d r n).toNat) (v, fl)
    OnArray s x g c cs (.ast f) f → isLatency c.issuer.slot = false → fmt < 3 →
    spadDecode (coreOfSlot c.issuer.slot) c.a = .ok (core, off) → s.spadOwned g.asid core off len = true →
    Memory.wf (s.spadOf core) = true →
    ∃ s' g', exec .matrixCommandComplete s = .next s' ∧ s'.group? k = some g' ∧ g'.queue = cs ∧ s'.mem = s.mem ∧
      (∀ e, e ≠ d → g'.tile e = g.tile e) ∧ tileErr g' d = tileErr g d ∧
      let got (o n : Nat) : Nat := leVal (memRead (s'.spadOf core) (off + o) n)
      (tileErr g d = true → (∀ r < 128, ∀ n < 128, elemOf g' d r n = elemOf g d r n) ∧ (c.c = 0 → s'.spad = s.spad) ∧
        ∀ q o, SyncAt s g c q o → wordAt s' q o = swSetErr (wordAt s q o)) ∧
      (tileErr g d = false →
        (∀ r < 128, ∀ n < 128, elemOf g' d r n = if f.p.getLsbD 2 then 0 else elemOf g d r n) ∧
        (∀ q o, SyncAt s g c q o → q ≠ core ∨ o + 8 ≤ off ∨ off + len ≤ o →
          wordAt s' q o = swArrive (wordAt s q o) len % 2 ^ 64) ∧
        (c.c = 0 → (∀ y, y < off ∨ off + len ≤ y → memByte (s'.spadOf core) y = memByte (s.spadOf core) y) ∧
          (fmt = 0 → ∀ r < 128, ∀ n < 128, rounds Machine.f32 r n (got (512 * r + 4 * n) 4)) ∧
          (fmt = 1 → ∀ r < 128, ∀ n < 128, rounds Machine.b16 r n (got (256 * r + 2 * n) 2)) ∧
          (fmt = 2 → ∃ v : Nat → Nat → Nat, (∀ r < 128, ∀ n < 128, rounds Machine.f32 r n (v r n)) ∧ ∀ r < 128, ∀ b < 2,
            ∃ EA EB code, Packed 8 (fun e => Machine.f32.decode (v r (64 * b + e))) EA EB code ∧
              (∀ e < 64, got (128 * r + 64 * b + e) 1 = code e) ∧ got (16384 + 4 * r + 2 * b) 2 = EA + 256 * EB)))

/-- The bytes of a block of 64 elements (R236). -/
def Sys2Proof.Claims.blockBytes : MatFmt → Nat
  | .bx k => if k = 0 then 32 else if k = 1 then 48 else 64
  | .f16 | .b16 => 128
  | _ => 64
/-- Element e of block j of row, or column, r of a tile with kb blocks in each: rows lie at a pitch that is their bytes rounded
up to 64, blocks one after another in them, elements as R236 lays them out; a block's scale is the halfword given. -/
def Sys2Proof.Claims.tileElem (m : MatFmt) (kb : Nat) (bs : List Byte) (half r j e : Nat) : Machine.Num :=
  let o := r * ((kb * blockBytes m + 63) / 64 * 64) + j * blockBytes m
  let byte (n : Nat) : Nat := field bs (o + n) 1
  match m with
  | .bx k => fromBx k (if k = 0 then byte (e / 2) / 16 ^ (e % 2) % 16 else if k = 1 then field bs o 48 / 2 ^ (6 * e) % 64
      else byte e) half
  | .e4m3 => f8Num false (byte e)
  | .e5m2 => f8Num true (byte e)
  | .f16 => Machine.f16.decode (field bs (o + 2 * e) 2)
  | .b16 => Machine.b16.decode (field bs (o + 2 * e) 2)
  | .s8 => if byte e < 128 then .fin false (byte e) 0 else .fin true (256 - byte e) 0
  | .n8 => .fin false (byte e) 0

/-- S is the sum of 64 products: exact where all are finite, NaN with a NaN, an ∞ × 0 or infinities of both signs among
them, else their infinity (R256). A sum of zeros is −0 where every product is (notes/assumptions/31.md). -/
def Sys2Proof.Claims.BlockSum (ts : List (Machine.Num × Machine.Num)) (S : Machine.Num) : Prop :=
  let nan : Prop := ∃ p ∈ ts, p.1.isNan ∨ p.2.isNan
  let bad : Prop := ∃ p ∈ ts, (p.1.isInf ∧ p.2.isZero) ∨ (p.1.isZero ∧ p.2.isInf)
  let inf (neg : Bool) : Prop := ∃ p ∈ ts, (p.1.isInf ∨ p.2.isInf) ∧ (p.1.neg? != p.2.neg?) = neg
  (nan ∨ bad ∨ (inf true ∧ inf false) → S.isNan = true) ∧
  (¬ (nan ∨ bad) → ∀ neg, inf neg → ¬ inf (!neg) → S = .inf neg) ∧
  (¬ nan → ¬ inf true → ¬ inf false → ∃ n m e, S = .fin n m e ∧ ratOf S = (ts.map fun p => ratOf p.1 * ratOf p.2).sum ∧
    (ratOf S = 0 → (n = true ↔ ∀ p ∈ ts, p.1.neg? ≠ p.2.neg?)))
/-- K-blocks of products added to an element in their order. -/
def Sys2Proof.Claims.AddedBlocks (bs : List (List (Machine.Num × Machine.Num))) (a v : BitVec 42) : Prop :=
  ∃ ss, List.Forall₂ BlockSum bs ss ∧ Added ss a v
/-- The products of block j for row r of A and column n of B, under the captured scales. -/
def Sys2Proof.Claims.products (ma mb : MatFmt) (kb : Nat) (a b : List Byte) (sa sb : Map (BitVec 16)) (r n j : Nat) :
    List (Machine.Num × Machine.Num) :=
  (List.range 64).map fun e => (tileElem ma kb a (get sa (16 * r + j) 0).toNat r j e,
    tileElem mb kb b (get sb (16 * n + j) 0).toNat n j e)

/-- The elements that unit u of a sparse operand marks, below t (R240). -/
def Sys2Proof.Claims.marked (bs : List Byte) (u t : Nat) : Nat :=
  ((List.range t).filter fun k => (field bs (512 * u) 64).testBit k).length
/-- A sparse operand written out: a marked element takes the next of its unit's packed bytes, the others are 0 (R240). -/
def Sys2Proof.Claims.dense (bs : List Byte) (n : Nat) : List Byte :=
  (List.range n).map fun x => let u := x / 512
    if (field bs (512 * u) 64).testBit (x % 512) then BitVec.ofNat 8 (field bs (512 * u + 64 + marked bs u (x % 512)) 1) else 0

/-- spec/09_instr_matrix_copy.md R235 to R238, R240, R244: a multiply of a whole tile: each element of the tile takes, block
by block in increasing order, the sum of its row's block of A and its column's block of B, from zero where ZF is set; MMAS
takes A written out. When each block is added is the model's choice of notes/assumptions/31.md: one as MATRIX_COMMAND_START
goes on to the next, all that are left as the command completes. A unit of MMAS's A with more than 448 marks sets the tile's
error. -/
def Sys2Proof.Claims.MultiplyResults : Prop :=
  ∀ (s : State) (x : SlotId) (g : Group) (c : MatCmd) (cs : List MatCmd) (f : FmtX) (i : Instr),
    i ∈ [Instr.mmab4 f, .mmab6 f, .mmab8 f, .mmaf8 f, .mmah f, .mmai8 f, .mmas f] → OnArray s x g c cs i f →
    isLatency c.issuer.slot = false →
    let k := slotIdKey x
    let d := f.d.toNat % 16
    let kb := f.p.toNat % 16 + 1
    let (ma, mb) := matFmts i
    let raw := operand s g c c.a (if i = .mmas f then 8192 * kb else 128 * ((kb * blockBytes ma + 63) / 64 * 64))
    let a := if i = .mmas f then dense raw (8192 * kb) else raw
    let b := operand s g c c.b (128 * ((kb * blockBytes mb + 63) / 64 * 64))
    let fresh := f.p.getLsbD 6 && c.next == 0
    let adds (g' : Group) (blocks : List Nat) : Prop := tileErr g' d = false ∧ (∀ e, e ≠ d → g'.tile e = g.tile e) ∧
      ∀ r < 128, ∀ n < 128, AddedBlocks (blocks.map (products ma mb kb a b c.scaleA ((c.scaleB[0]?).getD []) r n))
        (if fresh then 0 else elemOf g d r n) (elemOf g' d r n)
    (fresh = true ∨ tileErr g d = false) →
    ((i = .mmas f → ∀ u < 16 * kb, marked raw u 512 ≤ 448) →
      (∃ s' g', exec .matrixCommandComplete s = .next s' ∧ s'.group? k = some g' ∧ g'.queue = cs ∧
        adds g' ((List.range kb).drop c.next)) ∧
      (c.next + 1 < kb → ∃ s' g' c', exec .matrixCommandStart s = .next s' ∧ s'.group? k = some g' ∧ g'.queue = c' :: cs ∧
        c' = { c with next := c.next + 1, classes := c'.classes } ∧ g'.members = g.members ∧ adds g' [c.next])) ∧
    (i = .mmas f → (∃ u < 16 * kb, 448 < marked raw u 512) →
      ∃ s' g', exec .matrixCommandComplete s = .next s' ∧ s'.group? k = some g' ∧ g'.queue = cs ∧ tileErr g' d = true)

/-- The fields of entry e of MMAG's table (R239). -/
def Sys2Proof.Claims.entryOf (tab : List Byte) (e o n : Nat) : Nat := field tab (8 + 16 * e + o) n
/-- The A row that entry e begins at: the sum of the rows of those before it. -/
def Sys2Proof.Claims.firstRow (tab : List Byte) (e : Nat) : Nat := ((List.range e).map fun h => entryOf tab h 4 2).sum

/-- spec/09_instr_matrix_copy.md R239: MMAG: entries in increasing order, each with its own B tile, B scales and rows of A,
add their K-blocks into the accumulator rows from off; rows no entry names keep their values, or are zero under ZF. A table
whose count, rows, offsets, reserved bytes, scale registers or B addresses break the rule sets the tile's error and adds
nothing; an off above 127 and an HSB above 1, which the rule's list does not name, count among these by the model's choice
(notes/assumptions/30.md). -/
def Sys2Proof.Claims.RaggedResults : Prop :=
  ∀ (s : State) (x : SlotId) (g : Group) (c : MatCmd) (cs : List MatCmd) (f : FmtX), OnArray s x g c cs (.mmag f) f →
    isLatency c.issuer.slot = false →
    let k := slotIdKey x
    let d := f.d.toNat % 16
    let kb := f.p.toNat % 16 + 1
    let m := (matFmts (.mmag f)).1
    let size := 128 * ((kb * blockBytes m + 63) / 64 * 64)
    let tab := c.table
    let n := field tab 0 4
    let rows (e : Nat) : Nat := entryOf tab e 4 2
    let off (e : Nat) : Nat := entryOf tab e 6 2
    let sb (e : Nat) : Nat := entryOf tab e 8 2
    let badEntry (e : Nat) : Prop := 128 < off e + rows e ∨ 127 < off e ∨ 1 < entryOf tab e 10 1 ∨ entryOf tab e 11 5 ≠ 0 ∨
      (if m.isBx then 512 < sb e + 4 * kb ∨ oneFile (sb e) (4 * kb) = false ∨ (sb e < 0x1E0 ∧ fpNV g.footprint < sb e + 4 * kb - 1)
        else sb e ≠ 0) ∨ (s.nearCheck k g.asid false (BitVec.ofNat 64 (entryOf tab e 0 4)) size 64).isSome
    let bad : Prop := n = 0 ∨ 32 < n ∨ field tab 4 4 ≠ 0 ∨ 128 < firstRow tab n ∨ ∃ e < n, badEntry e
    let fresh := f.p.getLsbD 6 && c.next == 0
    let before (r n : Nat) : BitVec 42 := if fresh then 0 else elemOf g d r n
    let adds (g' : Group) (blocks : List Nat) : Prop := tileErr g' d = false ∧ (∀ e, e ≠ d → g'.tile e = g.tile e) ∧
      ∀ r < 128, ∀ col < 128, AddedBlocks
        ((blocks.filter fun b => decide (off (b / kb) ≤ r ∧ r < off (b / kb) + rows (b / kb))).map fun b => let e := b / kb
          let row := firstRow tab e + (r - off e)
          (List.range 64).map fun q =>
            (tileElem m kb (operand s g c c.a size) (get c.scaleA (16 * row + b % kb) 0).toNat row (b % kb) q,
             tileElem m kb (operand s g c (BitVec.ofNat 64 (entryOf tab e 0 4)) size)
               (get ((c.scaleB[e]?).getD []) (16 * col + b % kb) 0).toNat col (b % kb) q))
        (before r col) (elemOf g' d r col)
    (fresh = true ∨ tileErr g d = false) →
    (¬ bad →
      (∃ s' g', exec .matrixCommandComplete s = .next s' ∧ s'.group? k = some g' ∧ g'.queue = cs ∧
        adds g' ((List.range (n * kb)).drop c.next)) ∧
      (c.next + 1 < n * kb → ∃ s' g' c', exec .matrixCommandStart s = .next s' ∧ s'.group? k = some g' ∧ g'.queue = c' :: cs ∧
        c' = { c with next := c.next + 1, classes := c'.classes } ∧ g'.members = g.members ∧ adds g' [c.next])) ∧
    (bad → ∃ s' g', exec .matrixCommandComplete s = .next s' ∧ s'.group? k = some g' ∧ g'.queue = cs ∧ tileErr g' d = true ∧
      (∀ e, e ≠ d → g'.tile e = g.tile e) ∧ ∀ r < 128, ∀ col < 128, elemOf g' d r col = before r col)

/-- TileCommands, StoredTiles, MultiplyResults and RaggedResults, together. -/
def Obligations.ArrayResults : Prop :=
  Claims.TileCommands ∧ Claims.StoredTiles ∧ Claims.MultiplyResults ∧ Claims.RaggedResults

/-- spec/10_number_formats_arithmetic.md R256: the sum of a block's products, its terms finite, is exact. -/
def Obligations.BlockSumIsExact : Prop :=
  ∀ xs ys : List Machine.Num, xs.length = ys.length → (∀ x ∈ xs ++ ys, ∃ n m e, x = .fin n m e) →
    (∃ n m e, (blockSum xs ys).1 = .fin n m e) ∧ (blockSum xs ys).2 = false ∧
    ratOf (blockSum xs ys).1 = ((xs.zip ys).map fun p => ratOf p.1 * ratOf p.2).sum

/-- The scale halfword of row, or column, r and block j: half `hi` of register base + 4j + r div 32 in lane r mod 32, zero
without a member there (R237). -/
def Sys2Proof.Claims.scaleOf (g : Group) (base hi r j : Nat) : Nat :=
  match lookup (r % 32) g.members with
  | none => 0
  | some t => (t.reg (base + 4 * j + r / 32)).toNat / 2 ^ (16 * hi) % 65536

/-- spec/09_instr_matrix_copy.md R229, R233, R237, R239 and spec/15_program_grouped_gemm.md R306: the head of a queue starts on the
array, and reads then its scales and MMAG's table; a command there that has no K-block after its current one is left as it
is. -/
def Sys2Proof.Claims.MatrixStart : Prop :=
  ∀ (s : State) (x : SlotId) (g : Group) (c : MatCmd) (cs : List MatCmd),
    s.subject = .slot x → s.group? (slotIdKey x) = some g → g.queue = c :: cs → s.arraysRun (slotIdKey x) g = true →
    (c.onArr = false → Prompt s → (∀ r ∈ s.reqs, r.of c.issuer = false) → s.ownsEntry c.issuer = false →
      isLatency c.issuer.slot = false → ∃ s' g' c', exec .matrixCommandStart s = .next s' ∧ OnlyGroups s s' ∧
        s'.group? (slotIdKey x) = some g' ∧ g'.queue = c' :: cs ∧ c'.onArr = true ∧ c'.word = c.word ∧ c'.a = c.a ∧
        c'.b = c.b ∧ c'.issuer = c.issuer ∧ g'.tiles = g.tiles ∧ g'.members = g.members ∧
        (c.table = [] → c.scaleB = [] → c.poison = false → ∀ i f, c.instr = some (i, f) →
          let kb := f.p.toNat % 16 + 1
          let hsa := if f.p.getLsbD 4 then 1 else 0
          (i ∈ [Instr.mmab4 f, .mmab6 f, .mmab8 f] → ∀ r < 128, ∀ j < kb,
            (get c'.scaleA (16 * r + j) 0).toNat = scaleOf g f.c.toNat hsa r j ∧
            (get ((c'.scaleB[0]?).getD []) (16 * r + j) 0).toNat =
              scaleOf g (f.c.toNat + if f.p.getLsbD 7 then 4 * kb else 0) (if f.p.getLsbD 5 then 1 else 0) r j) ∧
          (i = .mmag f → (∀ k, (s.core k).spoiled = []) → ∀ q o, spadDecode (coreOfSlot c.issuer.slot) c.b = .ok (q, o) →
            s.spadOwned g.asid q o 520 = true →
            c'.table = operand s g c c.b (8 + 16 * min (field (operand s g c c.b 8) 0 4) 32) ∧
            ((matFmts i).1.isBx = true → ∀ r < 128, ∀ j < kb,
              (get c'.scaleA (16 * r + j) 0).toNat = scaleOf g f.c.toNat hsa r j)))) ∧
    (c.onArr = true → Prompt s → (∀ i f, c.instr = some (i, f) → isMma i = true → c.blocks i f ≤ c.next + 1) →
      exec .matrixCommandStart s = .next s)

/-- MatrixIssue and MatrixStart, together. -/
def Obligations.MatrixCommands : Prop := Claims.MatrixIssue ∧ Claims.MatrixStart

/-- spec/09_instr_matrix_copy.md R215, R225, R228 to R230: a copy, or a chain, whose operands pass the checks at issue is
last in its channel: for a copy the channel with the fewest commands among those that hold no chain, for CCHN the one
it names. The lane goes on, and TCPYM adds a follow-on that waits for the next generation of the sync word.
(That a running command holds one of a channel's 16 entries is the model's choice of notes/assumptions/81.md; that an operand block
at index 0 is v0 and the registers after it, its reading of 29.md.) -/
def Obligations.CopyIssue : Prop :=
  ∀ (s : State) (u : Issuer) (g : Group) (l : Nat) (t : Thread) (f : FmtX), isLatency u.slot = false →
    let w : Who := ⟨u.slot, l⟩
    let core := coreOfSlot u.slot
    let e (i : Instr) := entry s i u g
    let queued (i : Instr) (k : Nat) (s' : State) (P : ChanCmd → Prop) : Prop := exec i s = .next s' ∧ s'.mem = s.mem ∧
      s'.spad = s.spad ∧ s'.thread? w = some (t.advance false) ∧
      (∃ x, (s'.chan core k).cmds = (s.chan core k).cmds ++ [x] ∧ x.issuer = w ∧ x.sync = t.pair f.c.toNat ∧
        x.running = false ∧ P x) ∧ ∀ j, j ≠ k → (s'.chan core j).cmds = (s.chan core j).cmds
    let copies (i : Instr) (gather : Bool) (P : State → Group → Prop) : Prop := ∀ k bs,
      Solo s i u g l t → s.ownsEntry w = false → (∀ r ∈ s.reqs, r.who.slot ≠ u.slot) →
      let x : Machine.CopyIssue := ⟨t.pair f.d.toNat, t.pair f.a.toNat,
        if gather then [t.reg (f.b.toNat + 2), 0, t.reg (f.b.toNat + 3), t.reg (f.b.toNat + 4), t.reg (f.b.toNat + 5)]
        else [t.reg f.b.toNat, t.reg (f.b.toNat + 1), t.reg (f.b.toNat + 2), t.reg (f.b.toNat + 3), t.reg (f.b.toNat + 4)],
        if gather then some (t.pair f.b.toNat) else none, t.pair f.c.toNat, f.p.toNat⟩
      let cx := ctxAt s i u g
      (e i).copyCheck cx x none = none → (e i).nearRead (cx.doer l s.reqNo) x.desc 128 = .ok bs (e i) →
      (e i).copyCheck cx x (descGeo bs) = none →
      k < 4 → (∀ j < 4, (s.chan core j).cmds.all (fun c => !c.op.isChain) = true ∧
        ((s.chan core k).cmds.length ≤ (s.chan core j).cmds.length ∧ (j < k → (s.chan core k).cmds.length ≠ (s.chan core j).cmds.length))) →
      (s.chan core k).cmds.length < 16 →
      ∃ s' g', queued i k s' (fun y => ∃ c, y.op = .copy c ∧ c.desc = bs ∧ c.near = x.near ∧ c.start = x.start ∧
          c.list = x.list ∧ c.mcast = f.p.toNat / 64 ∧ c.acq = f.p.getLsbD 0 ∧ c.rel = f.p.getLsbD 1 ∧ c.store = f.p.getLsbD 5) ∧
        s'.group? u.slot = some g' ∧ P s' g'
    copies (.tcpy f) false (fun _ g' => g'.follows = g.follows) ∧ copies (.tgath f) true (fun _ g' => g'.follows = g.follows) ∧
    (∀ d ff, t.pair f.c.toNat ≠ 0 →
      followOn (t.pair (f.c.toNat + 2)) u.sup false g.footprint = .ok (d, ff) →
      (e (.tcpym f)).matCheck u.slot g.asid u.sup .update (matRanges d.i ff (t.pair ff.a.toNat) (t.pair ff.b.toNat) 0) = none →
      copies (.tcpym f) false (fun _ g' => ∃ y, g'.follows = g.follows ++ [y] ∧ y.sync = t.pair f.c.toNat ∧
        y.cmd.word = t.pair (f.c.toNat + 2) ∧ y.cmd.a = t.pair ff.a.toNat ∧ y.cmd.b = t.pair ff.b.toNat ∧ g'.queue = g.queue)) ∧
    (∀ k, k = f.p.toNat % 4 →
      Solo s (.cchn f) u g l t → s.ownsEntry w = false → (t.pair f.a.toNat).toNat % 64 = 0 →
      (e (.cchn f)).matCheck u.slot g.asid u.sup .update (if t.pair f.c.toNat = 0 then [] else [(t.pair f.c.toNat, 8, 8)]) = none →
      (s.chan core k).cmds.length < 16 →
      ∃ s', queued (.cchn f) k s' fun y => y.op = .chain (t.pair f.a.toNat))

/-- spec/09_instr_matrix_copy.md R222 to R224, R226: SHAPE writes the 128 bytes of the descriptor of a good record and box
to scratchpad; a bad one takes cause 0x08 with the record's address. The pitch is the row's bytes rounded up to 64, the
counted bytes are the unit times the elements. -/
def Obligations.ShapeForms : Prop :=
  (∀ (s : State) (u : Issuer) (g : Group) (l : Nat) (t : Thread) (f : FmtX) (c off : Nat) (bs : List Byte)
    (a : Option Attr) (s1 : State), isLatency u.slot = false →
    let i := Instr.shape f
    let d := t.pair f.d.toNat
    let va := t.pair f.a.toNat
    let box := (t.pair f.b.toNat).toNat
    Solo s i u g l t → va.toNat % 64 = 0 → (entry s i u g).nearCheck u.slot g.asid u.sup d 128 128 = none →
    (entry s i u g).readNow ⟨u.slot, l⟩ g.asid va 64 = .ok bs a s1 → s1.thread? ⟨u.slot, l⟩ = some t →
    (geoOf bs box = none → ∃ s', exec i s = .next s' ∧ s'.spad = s1.spad ∧
      s'.thread? ⟨u.slot, l⟩ = some { t with run := .parked (causeWord 0x08 0) va false }) ∧
    ∀ geo, geoOf bs box = some geo → spadDecode (coreOfSlot u.slot) d = .ok (c, off) →
      s1.spadOwned g.asid c off 128 = true → Memory.wf (s1.spadOf c) = true → bs.length = 64 → Prompt s1 →
      (∀ r ∈ s1.reqs, r.who.slot ≠ u.slot) → t.fences = [] → s1.ownsEntry ⟨u.slot, l⟩ = false →
      ∃ s', exec i s = .next s' ∧ s'.thread? ⟨u.slot, l⟩ = some (t.advance false) ∧
        memRead (s'.spadOf c) off 64 = bs ∧ leVal (memRead (s'.spadOf c) (off + 64) 8) = box ∧
        leVal (memRead (s'.spadOf c) (off + 72) 4) = geo.pitch ∧ leVal (memRead (s'.spadOf c) (off + 76) 4) = geo.counted % 2 ^ 32 ∧
        leVal (memRead (s'.spadOf c) (off + 80) 4) = 0xD7C05A01 ∧
        (∀ x, off + 84 ≤ x → x < off + 128 → memByte (s'.spadOf c) x = 0) ∧
        ∀ x, x < off ∨ off + 128 ≤ x → memByte (s'.spadOf c) x = memByte (s1.spadOf c) x) ∧
  ∀ bs box geo, geoOf bs box = some geo → geo.pitch % 64 = 0 ∧ geo.unit * at5 geo.box 0 ≤ geo.pitch ∧
    geo.pitch < geo.unit * at5 geo.box 0 + 64 ∧ geo.near ≤ 2 ^ 22 ∧
    geo.counted = geo.unit * (at5 geo.box 0 * (at5 geo.box 1 * at5 geo.box 2 * at5 geo.box 3 * at5 geo.box 4))

/-- spec/09_instr_matrix_copy.md R218, R227: the engine's events on a SIMT core, for a command without a sync word: the head of
an idle channel starts, with every element of its box to do, or leaves at once where its descriptor is malformed; an
element performed leaves the list, and the command leaves the channel with its last; one that cannot be performed, or
whose line failed in flight, ends the command. -/
def Sys2Proof.Claims.CopyEvents : Prop :=
  ∀ (s : State) (id : ChanId) (x : ChanCmd) (xs : List ChanCmd) (c : Copy),
    let eng := coreKey id.die id.unit
    let k := id.chan
    let cmds (s : State) := (s.chan eng k).cmds
    let alone (s : State) : Prop := ∀ r ∈ s.reqs, r.who ≠ (x.doer k 0).who
    s.subject = .chan id → cmds s = x :: xs → x.op = .copy c → s.engineRuns eng = true → x.chores = [] → x.sync = 0 →
    s.drainOver eng = false →
    (x.running = false → x.bad = none → c.list = none → c.acq = false → ∀ geo, descGeo c.desc = some geo →
      ∃ s' x', exec .copyCommandStart s = .next s' ∧ cmds s' = x' :: xs ∧ x'.running = true ∧
        x'.todo = List.range geo.elems ∧ x'.op = x.op ∧ s'.spad = s.spad ∧ s'.mem = s.mem) ∧
    (x.running = false → c.acq = false → descGeo c.desc = none → alone s →
      ∃ s', exec .copyCommandStart s = .next s' ∧ cmds s' = xs ∧ s'.mem = s.mem ∧ s'.spad = s.spad) ∧
    (x.running = true → ∀ geo e es, descGeo c.desc = some geo → x.todo = e :: es → e ∉ es → x.bad = none → alone s →
      -- an element whose bytes have all been performed
      (e ∈ x.sent → ∃ s', exec .syncWordArrival s = .next s' ∧ s'.mem = s.mem ∧ s'.spad = s.spad ∧
        (es = [] → cmds s' = xs) ∧ (es ≠ [] → ∃ x', cmds s' = x' :: xs ∧ x'.todo = es ∧ x'.op = x.op)) ∧
      -- an element as far as it goes now
      (∀ cause y s1, s.element k x c geo e = (cause, y, s1) → y.chores = [] → y.todo ≠ [] →
        ∃ s', exec .syncWordArrival s = .next s' ∧ s'.mem = s1.mem ∧ s'.spad = s1.spad ∧
          cmds s' = y :: (cmds s1).drop 1) ∧
      (∀ cause y s1, s.element k x c geo e = (some cause, y, s1) → y.sync = 0 → y.slot = x.slot → alone s1 →
        ∃ s', exec .copyError s = .next s' ∧ s'.mem = s1.mem ∧ cmds s' = (cmds s1).drop 1)) ∧
    (x.running = true → ∀ geo cause, descGeo c.desc = some geo → x.bad = some cause → alone s →
      ∃ s', exec .copyError s = .next s' ∧ cmds s' = xs ∧ s'.mem = s.mem ∧ s'.spad = s.spad)

/-- spec/09_instr_matrix_copy.md R231, R232: the record a running chain without a sync word has come to: misaligned, it ends the
chain; with OWN clear it ends the chain without error; good, with no ACQ, FLAG or sync word, its bytes are copied, OWN and
STAT are cleared and the chain goes on to the next record, or ends after a record whose next address is 0. -/
def Sys2Proof.Claims.ChainRecords : Prop :=
  ∀ (s : State) (id : ChanId) (x : ChanCmd) (xs : List ChanCmd) (rec : DWord),
    let eng := coreKey id.die id.unit
    let k := id.chan
    let cmds (s : State) := (s.chan eng k).cmds
    let alone (s : State) : Prop := ∀ r ∈ s.reqs, r.who ≠ (x.doer k 0).who
    s.subject = .chan id → cmds s = x :: xs → x.op = .chain rec → x.running = true → s.engineRuns eng = true →
    x.chores = [] → x.record = [] → x.sync = 0 → s.drainOver eng = false →
    (rec.toNat % 64 ≠ 0 → alone s → ∃ s', exec .cchnRecord s = .next s' ∧ cmds s' = xs ∧ s'.mem = s.mem) ∧
    ∀ r s1, rec.toNat % 64 = 0 → s.engReadLine { x.doer k 0 with back := none } rec 64 = .ok r s1 →
      let ctl := field r 8 4
      (ctl.testBit 0 = false → ∃ s', exec .cchnRecord s = .next s' ∧ cmds s' = (cmds s1).drop 1 ∧ s'.mem = s1.mem) ∧
      (ctl.testBit 0 = true → ctl.testBit 1 = false → ctl.testBit 2 = false → recordBad r (isLatency x.slot) = false →
        field r 48 8 = 0 → x.bad = none → s1.pace.grain = 0 →
        let n := field r 12 4
        let y : ChanCmd := { x with record := r, parts := [(0, n)], chores := [.done, .tally, .next] }
        ∀ s2, s1.moveSides (x.doer k 0) (.far (BitVec.ofNat 64 (field r 16 8))) (.far (BitVec.ofNat 64 (field r 24 8))) n 0 n
            (n / 32 + 3) = (n, none, s2) → alone s2 →
        ∀ s3, (s2.setHead eng k y).engWriteLine { x.doer k 0 with prompt := true } (rec + 8)
            (leBytes 4 (ctl - ctl / 4096 % 16 * 4096 - 1)) none = .ok () s3 → alone s3 →
        ∃ s', exec .cchnRecord s = .next s' ∧ s'.mem = s3.mem ∧
          (field r 0 8 = 0 → cmds s' = (cmds s3).drop 1) ∧
          (field r 0 8 ≠ 0 → ∃ x', cmds s' = x' :: (cmds s3).drop 1 ∧ x'.op = .chain (BitVec.ofNat 64 (field r 0 8)) ∧
            x'.record = [] ∧ x'.running = true))

/-- CopyEvents and ChainRecords, together. -/
def Obligations.EngineEvents : Prop := Claims.CopyEvents ∧ Claims.ChainRecords

/-! ## The scheduler, admission, faults and saves -/

/-- spec/04_opcode_map.md R115, and R116 with it: a word whose major is 0x00, 0x3F, 0x0F, 0x1E, 0x1F or 0x24 is of the illegal
row, one whose major is 0x25 to 0x3E of the fallow row, whatever its other bits. It takes cause 0x01, with detail
undefined (1) or fallow (3) and the word as datum, in every issuing lane whatever its guard: the thread is parked on a
SIMT core and traps to the operating system on a latency core. -/
def Obligations.WordsWithoutInstruction : Prop :=
  (∀ w : DWord, w.toNat % 64 ∈ [0x00, 0x3F, 0x0F, 0x1E, 0x1F, 0x24] → decode w = .ok ⟨⟨false, 0⟩, 0, .illegalMajor⟩) ∧
  (∀ w : DWord, 0x25 ≤ w.toNat % 64 → w.toNat % 64 ≤ 0x3E → decode w = .ok ⟨⟨false, 0⟩, 0, .fallowInstruction⟩) ∧
  ∀ (s : State) (u : Issuer) (g : Group), s.issuer = some u → s.group? u.slot = some g →
    ∀ i detail, (i = .fallowInstruction ∧ detail = 3) ∨ (i = .illegalMajor ∧ detail = 1) →
      (isLatency u.slot = false → ∃ s', exec i s = .next s' ∧ ∀ l ∈ g.activeAt u.pc, s'.thread? ⟨u.slot, l⟩ =
        (s.thread? ⟨u.slot, l⟩).map fun t => { t with run := .parked (causeWord 1 detail) u.word false }) ∧
      (isLatency u.slot = true → g.activeAt u.pc = [0] →
        exec i s = .next (s.takeFault ⟨u.slot, 0⟩ (causeWord 1 detail) u.word u.pc false))

/-- spec/01_execution_model.md R17, R39 and spec/05_instr_control_thread_system.md R137, R141: the limits. A hold whose
earliest member has waited HOLDLIM cycles lets its members go on; a SLEEP at its limit gives 0, and not before; a WAITV is
read again and goes on when its condition holds; a group's timer, at its limit, restarts GCYC and is pending in every
member that is not parked. -/
def Obligations.ExpiryEvents : Prop :=
  (∀ (s : State) (x : SlotId) (m : DWord) (g : Group) (l : Nat) (t : Thread), s.subject = .meet x m →
    s.group? (slotIdKey x) = some g → lookup l g.members = some t → (∃ n, t.run = .held n) → t.meet = m →
    (∃ h ∈ g.members, ∃ n, h.2.run = .held n ∧ h.2.meet = m ∧ ((s.core (coreOfSlot (slotIdKey x))).reg 0x800).toNat ≤ n) →
    ∃ s' t', exec .holdlimExpiry s = .next s' ∧ s'.thread? ⟨slotIdKey x, l⟩ = some t' ∧ t'.run = .ready ∧ t'.pc = t.pc ∧
      ∀ j < 0x1F8, holds t' j = holds t j) ∧
  (∀ (s : State) (id : LaneId) (t : Thread) (limit d n : Nat) (b : Bool), s.subject = .lane id →
    s.thread? (laneWho id) = some t → t.run = .waiting (.sleep limit d) b n →
    (limit ≠ 0 → limit ≤ n → ∃ s' t', exec .sleepTimeout s = .next s' ∧ s'.thread? (laneWho id) = some t' ∧ NextPc t t' ∧
      ∀ j < 0x1F8, holds t' j = if d ≠ 0 ∧ j = d then .known 0 else holds t j) ∧
    (limit = 0 ∨ n < limit → exec .sleepTimeout s = .next s)) ∧
  (∀ (s : State) (id : LaneId) (g : Group) (t : Thread) (va cmp : DWord) (cond : BitVec 2) (sg wide b : Bool) (d n : Nat)
      (acq : Option Nat), let w := laneWho id
    let wt := Wait.waitv va cond sg wide cmp d acq
    s.subject = .lane id → s.group? w.slot = some g → lookup w.lane g.members = some t → t.run = .waiting wt b n →
    (∀ ws a k s1, s.poll w g.asid wt = .done ws a k s1 → ∃ s' t', exec .waitvReread s = .next s' ∧
      s'.thread? w = some t' ∧ NextPc t t' ∧ ∀ j < 0x1F8, j ≠ d → j ≠ d + 1 → holds t' j = holds t j) ∧
    (∀ s1, s.poll w g.asid wt = .unmet s1 → exec .waitvReread s = .next s1) ∧
    (∀ cause a, s.poll w g.asid wt = .fault cause a → isLatency w.slot = false → ∃ s', exec .waitvReread s = .next s' ∧
      s'.thread? w = some { t with run := .parked (causeWord cause 0) a false })) ∧
  ∀ (s : State) (x : SlotId) (g : Group), s.subject = .slot x → s.group? (slotIdKey x) = some g →
    (g.tmr ≠ 0 → g.tmr.toNat ≤ g.gcyc.toNat → ∃ s' g', exec .timerExpiry s = .next s' ∧ OnlyGroups s s' ∧
      s'.group? (slotIdKey x) = some g' ∧ g'.gcyc = 0 ∧ ∀ l t, lookup l g.members = some t →
        ∃ t', lookup l g'.members = some t' ∧ t'.pc = t.pc ∧
          if t.run.isParked then t' = t else t'.timer = some g.tmr) ∧
    (g.tmr = 0 ∨ g.gcyc.toNat < g.tmr.toNat → ∃ s', exec .timerExpiry s = .next s' ∧ s'.group? (slotIdKey x) = some g)

/-- The 32 bytes of a fault record (R349). -/
def Sys2Proof.Claims.recordOf (r : FaultRec) : List Byte :=
  leBytes 4 r.agent.toNat ++ leBytes 4 r.cause.toNat ++ leBytes 8 r.pc.toNat ++ leBytes 8 r.datum.toNat ++
  leBytes 4 r.flags.toNat ++ leBytes 4 r.cohort.toNat
/-- Where the next record of die `d` goes: FQBASE + FQHEAD mod 2^k (R349). -/
def Sys2Proof.Claims.recordPlace (s : State) (d : Nat) : Nat :=
  (s.dreg d 0x010).toNat + (s.dreg d 0x020).toNat % 2 ^ ringK (s.dreg d 0x018)

/-- spec/01_execution_model.md R32, R37 and spec/19_os_translation_faults.md R349 and
spec/05_instr_control_thread_system.md R401: a signal is pending in its thread, and a
thread that waits leaves its wait, at its instruction; a deferred fault parks a ready thread of a SIMT core; a held fault
record is appended when the ring has room: its 32 bytes at FQHEAD, which then rises by 32. A record that memory refuses stays
held (notes/assumptions/22.md). -/
def Sys2Proof.Claims.FaultEvents : Prop :=
  (∀ (s : State) (id : LaneId) (n : Nat) (g : Group) (t : Thread), let w := laneWho id
    s.subject = .signal id n → s.group? w.slot = some g → lookup w.lane g.members = some t → t.signal = none →
    ∃ s' t', exec .signal s = .next s' ∧ s'.thread? w = some t' ∧ t'.signal = some n ∧ t'.pc = t.pc ∧
      (if t.run.isParked then t'.run = t.run else t'.run = .ready) ∧ ∀ j, holds t' j = holds t j) ∧
  (∀ (s : State) (id : LaneId) (t : Thread) (d : Deferred), let w := laneWho id
    s.subject = .lane id → isLatency w.slot = false → s.thread? w = some t → t.run.atBoundary = true →
    t.deferred = some d → ∃ s', exec .deferredFault s = .next s' ∧
      s'.thread? w = some { t with deferred := none, run := .parked (BitVec.ofNat 32 d.cause) d.datum true }) ∧
  ∀ (s : State) (d : Nat) (r : FaultRec) (rs : List FaultRec), s.subject = .die d → (s.die d).held = r :: rs →
    (s.faultRoom d = true → (∀ s1, s.writePhys (recordPlace s d) (recordOf r) = .ok s1 →
        ∃ s', exec .queueFaultRecord s = .next s' ∧ (s'.die d).held = rs ∧
          s'.dreg d 0x020 = s.dreg d 0x020 + 32 ∧ s'.mem = s1.mem ∧ s'.groups = s.groups) ∧
      ∀ e, s.writePhys (recordPlace s d) (recordOf r) = .error e → exec .queueFaultRecord s = .next s) ∧
    (s.faultRoom d = false → exec .queueFaultRecord s = .next s)

/-- spec/01_execution_model.md R12, R30, R403 and spec/19_os_translation_faults.md R402: a frame that arrives at an S-die with room
is in a key or a group of its admission unit, one at an L-die is last in its ready queue, and the thread has left its
group; an open key at its window forms its group; a packed group that is placed is on its core with its members held
or ready; a placed cohort waits no more. -/
def Sys2Proof.Claims.AdmissionEvents : Prop :=
  (∀ (s : State) (id : LaneId) (g : Group) (t : Thread) (target d : Nat) (va : DWord) (bs : List Byte),
    let w := laneWho id
    s.subject = .lane id → s.migrant w = some (g, t, target, va) → s.targetDie (dieOfSlot w.slot) target = some d → d < 4 →
    s.frameAt w g va = some bs → fpValid (BitVec.ofNat 32 (field bs 88 4)) = true → KeysRise g.members → KeysRise s.groups →
    ∃ s' k th, exec .frameAccept s = .next s' ∧ s'.thread? w = none ∧
      (k ∈ (s'.die d).keys ∨ k ∈ (s'.die d).formed.map Formed.key) ∧ th ∈ k.threads ∧
      th.pc = (threadOf bs s.stamp).pc ∧ th.pathtok = t.pathtok ∧ k.footprint = BitVec.ofNat 32 (field bs 88 4)) ∧
  (∀ (s s1 : State) (id : LaneId) (g : Group) (t : Thread) (target d : Nat) (va : DWord) (p : Target × State),
    let w := laneWho id
    s.subject = .lane id → s.migrant w = some (g, t, target, va) → s.targetDie (dieOfSlot w.slot) target = some d → 4 ≤ d →
    s.translate (coreOfSlot w.slot) g.asid false va .read = .ok p → p.1.kind = .local_ →
    s.writePhys (p.1.pa + 80) (leBytes 8 t.pathtok.toNat) = .ok s1 → KeysRise g.members → KeysRise s.groups →
    ∃ s', exec .readyQueueAccept s = .next s' ∧ s'.thread? w = none ∧ (s'.die d).readyQ = (s.die d).readyQ ++ [p.1.pa]) ∧
  (∀ (s : State) (d i : Nat) (k : OpenKey), s.subject = .dieIdx d i → (s.die d).keys[i]? = some k →
    (s.die d).packwin.toNat ≤ k.cycles → ∃ s', exec .packwinExpiry s = .next s' ∧
      (∃ f ∈ (s'.die d).formed, f.key = k) ∧ k ∉ (s'.die d).keys ∧ s'.groups = s.groups) ∧
  (∀ (s s1 : State) (d core slot : Nat) (f : Formed),
    s.subject = .die d → d < 4 → (s.die d).formed = [f] → s.heldBack d f.key.prio f.order = false →
    s.coreFor d f.key.footprint = some core →
    s.placeGroup core (Group.start f.key.footprint f.key.asid [] (f.key.threads.zipIdx.map fun x => (x.2, x.1))) =
      some (slot, s1) →
    ∃ s' g', exec .admissionPlacement s = .next s' ∧ (s'.die d).formed = [] ∧ s'.group? slot = some g' ∧
      g'.footprint = f.key.footprint ∧ g'.asid = f.key.asid ∧ g'.members.length = f.key.threads.length ∧
      ∀ l t, lookup l g'.members = some t → t.run = .ready ∨ t.run = .held 0) ∧
  ∀ (s s1 : State) (cs : List CoreId) (c o : Nat) (co : Cohort), s.subject = .plan cs → s.firstCohort = some (c, co, o) →
    s.placeCohort (cs.map coreIdKey) c co o = some s1 → ∃ s' co', exec .admissionPlacement s = .next s' ∧
      lookup c s'.cohorts = some co' ∧ co'.waiting = none ∧ co'.header = co.header

/-- spec/01_execution_model.md R35, R40, R41 and spec/19_os_translation_faults.md R347: a group pending for a quarter of AGEMAX takes
a free place of its quadrant's active set; a pre-emption request is taken PRELIM cycles after it came; a group whose
accesses and copies are done, its chains at a record boundary, leaves its slot with its frame in the save area, and INTPEND[2] of
its die is set; where memory refuses the frame it waits (notes/assumptions/38.md). -/
def Sys2Proof.Claims.ActiveSetAndSaves : Prop :=
  (∀ (s : State) (x : SlotId) (k : Nat) (g : Group), let slot := slotIdKey x
    let core := coreOfSlot slot
    let gs := s.quadrant core (slotOf slot % 4)
    s.subject = .slot x → isLatency slot = false →
    (gs.filter fun y => !y.2.active && s.groupReady y.1 y.2 && s.aged core y.2) = [(k, g)] → s.group? k = some g →
    (gs.filter fun y => y.2.active).length < 8 →
    ∃ s', exec .ageing s = .next s' ∧ s'.group? k = some { g with active := true, since := 0, issued := [] } ∧
      ∀ j, j ≠ k → s'.group? j = s.group? j) ∧
  (∀ (s : State) (x : SlotId) (g : Group) (p : Preempt), s.subject = .slot x → s.group? (slotIdKey x) = some g →
    g.preempt = some p → p.taken = false →
    let lim := ((s.core (coreOfSlot (slotIdKey x))).reg 0x802).toNat
    ∃ s' g' p', exec .prelimExpiry s = .next s' ∧ OnlyGroups s s' ∧ s'.group? (slotIdKey x) = some g' ∧
      g'.preempt = some p' ∧ p'.area = p.area ∧ g'.members = g.members ∧ (p'.taken = true ↔ lim ≤ p.cycles)) ∧
  ∀ (s : State) (x : SlotId) (g : Group) (p : Preempt), let slot := slotIdKey x
    s.subject = .slot x → s.group? slot = some g → g.preempt = some p → p.taken = true →
    (∀ e ∈ (s.core (coreOfSlot slot)).wc, e.owner.slot ≠ slot) → (∀ r ∈ s.reqs, r.who.slot ≠ slot) → g.queue = [] →
    g.follows = [] →
    (∀ c ∈ s.chainsOf slot, c.2.op.isChain = true ∧ c.2.inRecord = false) → (∀ m ∈ g.members, m.2.deferred = none) → KeysRise s.groups →
    -- the frame, in which the cycles of waits cut short have been counted
    let g1 : Group := { g with members := g.members.map fun m => (m.1, { m.2 with pathtok := (m.2.abandon false).pathtok }) }
    let frame := s.saveFrame slot g1 (s.savedOf slot g1 p)
    (∀ s1, s.writePhys p.area frame = .ok s1 → ∃ s', exec .preemptComplete s = .next s' ∧ s'.group? slot = none ∧
      s'.mem = s1.mem ∧ ((s'.die (dieOfSlot slot)).pend.getLsbD 2) = true ∧ ∀ j, j ≠ slot → s'.group? j = s.group? j) ∧
    ∀ e, s.writePhys p.area frame = .error e → exec .preemptComplete s = .next s

/-- AdmissionEvents and ActiveSetAndSaves, together. -/
def Obligations.AdmissionAndSaves : Prop := Claims.AdmissionEvents ∧ Claims.ActiveSetAndSaves

/-- spec/19_os_translation_faults.md R338, R350, R352: an interrupt, a deferred fault, a signal and a system call of a loaded frame
each put a latency hardware thread that runs a user thread into supervisor mode at SVEC, interrupts masked; an interrupt needs
a die whose INTTGT names the thread and whose INTPEND is not zero, or a root port's message, and waits while it is masked. -/
def Sys2Proof.Claims.SupervisorEvents : Prop :=
  ∀ (s : State) (h : SlotId) (g gs : Group) (t : Thread), let slot := slotIdKey h
    let enters (i : Instr) : Prop := ∃ s' x, exec i s = .next s' ∧ (s'.hwThread slot).sup = true ∧
      (s'.hwThread slot).masked = true ∧ s'.group? slot = none ∧ s'.thread? ⟨supSlot slot, 0⟩ = some x ∧
      x.pc = s.dreg (dieOfSlot slot) 0x0B8 ∧ x.run = .ready
    isLatency slot = true → slotOf slot < 2 → s.enterable slot = true → KeysRise s.groups →
    s.group? slot = some g → lookup 0 g.members = some t → s.group? (supSlot slot) = some gs → (lookup 0 gs.members).isSome →
    let raised : Prop := slot ∈ s.ctrl.msi ∨ ∃ d < 6, s.intPend d ≠ 0 ∧ (s.dreg d 0x0C0).setWidth 32 = s.agentOf ⟨slot, 0⟩
    (s.subject = .slot h → raised → (s.hwThread slot).masked = false → enters .interrupt) ∧
    (s.subject = .slot h → ¬raised ∨ (s.hwThread slot).masked = true → exec .interrupt s = .next s) ∧
    (s.subject = .entry h 0 → t.sysPend = true → enters .supervisorEntry) ∧
    (s.subject = .entry h 0 → t.sysPend = false → exec .supervisorEntry s = .next s) ∧
    (s.subject = .entry h 1 → t.deferred.isSome → t.run.atBoundary = true → enters .supervisorEntry) ∧
    (s.subject = .entry h 2 → t.signal.isSome → enters .supervisorEntry) ∧
    (s.subject = .entry h 3 → raised → (s.hwThread slot).masked = false → enters .supervisorEntry)

/-- FaultEvents and SupervisorEvents, together. -/
def Obligations.FaultAndSupervisorEvents : Prop := Claims.FaultEvents ∧ Claims.SupervisorEvents

/-- spec/10_number_formats_arithmetic.md R263, spec/13_kernel_attribution_profiling.md R290, R292 and spec/19_os_translation_faults.md R345: a
numeric window at NWIN cycles clears the counts; a gap record stands in the log and leaves no record lost; a hot-page window of 1,048,576 cycles
clears the tracker, and not before; a channel or home that held an attribution no longer than its threshold changes nothing,
and longer raises its SEQ by one and hands it on as its own, a hop longer (a home's clock is the model's choice of
notes/assumptions/58.md). -/
def Obligations.ProfilingEvents : Prop :=
  (∀ (s : State) (id : CoreId), s.subject = .core id → let k := coreIdKey id
    (((s.core k).reg 0x805).toNat ≤ (s.core k).window → ∃ s', exec .nwinExpiry s = .next s' ∧ (s'.core k).window = 0 ∧
      (∀ j < 8, (s'.core k).reg (0x1D0 + j) = 0) ∧ (s'.core k).reg 0x805 = (s.core k).reg 0x805 ∧ s'.groups = s.groups) ∧
    (((s.core k).ring 0xA01).gapDue = true → let x := (s.core k).ring 0xA01
      let gap := leBytes 4 0xFFFFFFFF ++ leBytes 4 0 ++ leBytes 4 x.lost ++ leBytes 8 0 ++ leBytes 4 5 ++ leBytes 8 0
      (∀ s1, s.writePhys (x.base.toNat + x.head.toNat % 2 ^ ringK x.size) gap = .ok s1 →
        ∃ s', exec .gapRecord s = .next s' ∧ ((s'.core k).ring 0xA01).lost = 0 ∧ ((s'.core k).ring 0xA01).head = x.head + 32 ∧
          s'.mem = s1.mem ∧ s'.groups = s.groups) ∧
      ∀ e, s.writePhys (x.base.toNat + x.head.toNat % 2 ^ ringK x.size) gap = .error e → exec .gapRecord s = .next s) ∧
    (((s.core k).ring 0xA01).gapDue = false → exec .gapRecord s = .next s)) ∧
  (∀ (s : State) (d : Nat), s.subject = .die d → ∃ s', exec .hotPageWindowExpiry s = .next s' ∧ s'.mem = s.mem ∧
    s'.groups = s.groups ∧ if 1048576 ≤ (s.die d).hotCycles
      then (s'.die d).hot = [] ∧ (s'.die d).hotCycles = (s.die d).hotCycles - 1048576
      else (s'.die d).hot = (s.die d).hot ∧ (s'.die d).hotCycles = (s.die d).hotCycles) ∧
  (∀ (s : State) (q : QueueWait) (die unit k : Nat), die < 4 → unit < 32 → k < 4 → let eng := coreKey die unit
    s.subject = .queue q → q.agent = s.chanAgent eng k → q.wkind = 7 → q.pred ≠ q.agent →
    (q.cycles ≤ ((s.core eng).reg 0x804).toNat → exec .queueEdgeThreshold s = .next s) ∧
    (((s.core eng).reg 0x804).toNat < q.cycles →
      (∃ x ∈ (s.chan eng k).cmds, x.running = false ∧ x.attr = ⟨q.token, q.pred, q.predSeq⟩ ∧ x.cycles = q.cycles) →
      ∃ s', exec .queueEdgeThreshold s = .next s' ∧ s'.groups = s.groups ∧
        (s'.chan eng k).seq = (s.chan eng k).seq + 1 ∧
        (s'.chan eng k).token = tokenOf (hopsOf q.token + 1) (lenOf q.token + q.cycles) ∧
        (s'.chan eng k).cmds.length = (s.chan eng k).cmds.length ∧
        ∃ x ∈ (s'.chan eng k).cmds, x.attr = ⟨tokenOf (hopsOf q.token + 1) (lenOf q.token), q.agent, (s.chan eng k).seq + 1⟩)) ∧
  ∀ (s : State) (q : QueueWait) (d : Nat), d < 6 → s.subject = .queue q → q.agent = s.homeAgent d → q.wkind = 9 →
    q.pred ≠ q.agent → let held := refCycles (4 ≤ d) q.cycles
    -- a request that carries the attribution has been on its way to memory of the die for that long
    let queued (r : Req) : Prop := r.attr = some ⟨q.token, q.pred, q.predSeq⟩ ∧ (∃ u, r.dest = .unit u ∧ unitDie u = d) ∧
      held ≤ refCycles (isLatency r.who.slot) r.cycles
    let seq (x : State) := get (x.die d).seqs 3 0
    (q.cycles ≤ (s.dreg d 0x0F8).toNat ∨ (∀ r ∈ s.reqs, ¬ queued r) → exec .queueEdgeThreshold s = .next s) ∧
    ((s.dreg d 0x0F8).toNat < q.cycles → (∃ r ∈ s.reqs, queued r) → ∃ s', exec .queueEdgeThreshold s = .next s' ∧
      s'.groups = s.groups ∧ seq s' = seq s + 1 ∧ s'.reqs.length = s.reqs.length ∧ ∀ r ∈ s.reqs,
        (queued r → { r with attr := some ⟨tokenOf (hopsOf q.token + 1) (lenOf q.token + held), q.agent, seq s + 1⟩ } ∈ s'.reqs) ∧
        (¬ queued r → r ∈ s'.reqs))

/-! ## Die control blocks, memory blocks -/

/-- Status `st` in CMDST of hardware thread `t` (R338, R347). -/
def Sys2Proof.Claims.Status (s' : State) (d t st : Nat) : Prop := s'.dreg d (hwReg t 0x048) = BitVec.ofNat 64 st

/-- spec/19_os_translation_faults.md R347, R348 and spec/01_execution_model.md R37: the commands on parked threads. RESUME goes
on at CMDB, or at the thread's PC for 1; KILL ends the thread, once its accesses are performed and its completion word can be
reached (R23; notes/assumptions/24.md); EXTRACT leaves its frame in memory at CMDB; LOADRESUME goes
on at the frame's PC; MIGRATE waits for its destination; these three once the thread's accesses are complete. A name of no parked thread gives status 1, a malformed command
status 2, and neither changes a thread. -/
def Sys2Proof.Claims.ThreadCommands : Prop :=
  ∀ (s : State) (d t arg : Nat) (w : Who) (g : Group) (x : Thread), s.subject = .command d t arg →
    let a := (s.dreg d (hwReg t 0x030)).toNat
    let b := s.dreg d (hwReg t 0x038)
    let agent := a < 2 ^ 32 ∧ a % 4 = 0
    let settled : Prop := ∀ r ∈ s.reqs, r.of w = true → r.reads = false
    let goesOn (s' : State) (pc : DWord) (P : Thread → Prop) : Prop := Status s' d t 0 ∧
      ∃ x', s'.thread? w = some x' ∧ WentTo w.slot pc x x' ∧ P x'
    (s.parkedAt d a = some (w, g, x) → agent → arg = 0 →
      (b = 1 ∨ b.toNat % 8 = 0 → ∃ s', exec .resume s = .next s' ∧
        goesOn s' (if b = 1 then x.pc else s.forward d g.asid b) fun x' => ∀ j < 0x1F8, holds x' j = holds x j) ∧
      (b = 0 → KeysRise g.members → KeysRise s.groups → (∀ r ∈ s.reqs, r.of w = false) → s.ownsEntry w = false →
        s.completeWaits w x g.asid = false → ∃ s', exec .kill s = .next s' ∧ Status s' d t 0 ∧
        s'.thread? w = none) ∧
      (b.toNat % 64 = 0 → Memory.wf s.mem = true → settled →
        let frame := frameBytes x g.footprint g.asid x.pc 0 .none
        ((∃ s1, s.writePhys b.toNat frame = .ok s1) → ∃ s', exec .extract s = .next s' ∧ Status s' d t 0 ∧
          memRead s'.mem b.toNat frame.length = frame ∧ s'.thread? w = some x) ∧
        (∀ e, s.writePhys b.toNat frame = .error e → ∃ s', exec .extract s = .next s' ∧ Status s' d t 3 ∧ s'.mem = s.mem)) ∧
      (b.toNat % 64 = 0 → settled → ∀ bs, s.readPhys b.toNat (frameSize g.footprint) = .ok bs → ∃ s', exec .loadresume s = .next s' ∧
        Status s' d t 0 ∧ ∃ x', s'.thread? w = some x' ∧
          x'.pc = s.forward d g.asid (loadedThread x bs g.footprint s.stamp).pc ∧ x'.cohort = x.cohort ∧ x'.wid = x.wid ∧
          (x'.run = .ready ∨ x'.run = .held 0))) ∧
    (s.parkedAt d a = some (w, g, x) → agent → arg ≤ 4 ∨ (8 ≤ arg ∧ arg ≤ 10) → b = 0 → (∀ r ∈ s.reqs, r.of w = false) →
      s.ownsEntry w = false → ∀ s1, s.tframe (dieOfSlot w.slot) g.asid x ≠ 0 → (s.tframe (dieOfSlot w.slot) g.asid x).toNat % 64 = 0 →
      s.writeVa (coreOfSlot w.slot) g.asid false (s.tframe (dieOfSlot w.slot) g.asid x)
        (frameBytes x g.footprint g.asid x.pc 0 .none) (lines (frameSize g.footprint)) = .ok s1 →
      ∃ s', exec .migrateCommand s = .next s' ∧ Status s' d t 0 ∧ s'.thread? w = (s1.thread? w).map fun y =>
        { y with run := .migrating arg (s.tframe (dieOfSlot w.slot) g.asid x) y.pc }) ∧
    (s.parkedAt d a = none → agent → arg = 0 → b = 0 → ∀ i ∈ [Instr.resume, .kill, .migrateCommand, .extract, .loadresume],
      ∃ s', exec i s = .next s' ∧ Status s' d t 1 ∧ s'.groups = s.groups) ∧
    (2 ^ 32 ≤ a ∨ a % 4 ≠ 0 → ∀ i ∈ [Instr.resume, .kill, .migrateCommand, .extract, .loadresume, .preempt],
      ∃ s', exec i s = .next s' ∧ Status s' d t 2 ∧ s'.groups = s.groups)

/-- spec/19_os_translation_faults.md R347, R348, R354, R355 with spec/01_execution_model.md R42: a RESTORE that succeeds. The save
area holds a complete frame without error and a core of the die fits it, the one CMDA names or, for 63, the one R12 chooses.
The status is 0; a slot of that core that was free holds the group, with the frame's footprint, space, counters and shared
registers; each member of the mask is there with its section's PC, WID, meeting value and registers, held, parked with its cause and
datum, or going on at its PC; a whole region and every tile hold the frame's bytes; every matrix command waits again; and a parked
member's record is queued again with RESTORED. (The frame a save leaves beside these, and what the points that the spec leaves open
do, are notes/assumptions/27.md, 36.md to 39.md.) -/
def Sys2Proof.Claims.RestoreCompletes : Prop :=
  ∀ (s : State) (d t core : Nat) (h bs : List Byte), s.subject = .command d t 0 → d < 4 →
    let a := (s.dreg d (hwReg t 0x030)).toNat
    let area := (s.dreg d (hwReg t 0x038)).toNat
    let unit := a / 2 ^ 17 % 64
    a < 2 ^ 32 → area % 4096 = 0 → s.readPhys area 512 = .ok h → field h 0 4 = 0x47564153 → field h 4 4 = 1 →
    (field h 24 4).testBit 2 = true → (field h 24 4).testBit 3 = false → s.readPhys area (field h 56 8) = .ok bs →
    let fp := BitVec.ofNat 32 (field bs 8 4)
    (unit = 63 ∧ s.coreFor d fp = some core) ∨ (unit < 32 ∧ core = coreKey d unit ∧ s.fitsCore core fp = true) →
    let lanes := (List.range 32).filter fun l => (field bs 16 4).testBit l
    let asid := field bs 12 4 % 65536
    let section_ (l : Nat) : List Byte := (bs.drop (field bs 64 8 + l * ((384 + 4 * fpNV fp + 63) / 64 * 64))).take (384 + 4 * fpNV fp)
    let state (l : Nat) : Nat := field (section_ l) 92 4 / 32 % 8
    let cause (l : Nat) : Word := BitVec.ofNat 32 (field (section_ l) 144 4)
    let datum (l : Nat) : DWord := BitVec.ofNat 64 (field (section_ l) 152 8)
    ∃ s' slot g', exec .restore s = .next s' ∧ Status s' d t 0 ∧ coreOfSlot slot = core ∧ s.group? slot = none ∧
      (∀ k, k ≠ slot → s'.group? k = s.group? k) ∧ s'.group? slot = some g' ∧ g'.footprint = fp ∧ g'.asid = asid ∧
      g'.gcyc = BitVec.ofNat 64 (field bs 40 8) ∧ g'.tmr = BitVec.ofNat 64 (field bs 48 8) ∧
      g'.wake = BitVec.ofNat 32 (field bs 28 4) ∧ g'.preempt = none ∧ g'.members.map (·.1) = lanes ∧
      (∀ j < fpNS fp, let x := field bs (field bs 72 8 + 8 * j) 8;
        x ≠ 0 → sholds g' (j + 1) = .known (BitVec.ofNat 64 x)) ∧
      (∀ l ∈ lanes, ∃ x, lookup l g'.members = some x ∧ x.pc = BitVec.ofNat 64 (field (section_ l) 0 8) ∧
        x.meet = BitVec.ofNat 64 (field (section_ l) 8 8) ∧ x.wid = BitVec.ofNat 64 (field (section_ l) 136 8) ∧
        x.cohort = BitVec.ofNat 32 (field (section_ l) 128 4) ∧
        (state l = 2 → x.run = .held 0) ∧ (state l = 3 → x.run = .parked (cause l) (datum l) false) ∧
        (state l ≠ 2 → state l ≠ 3 → x.run = .ready ∨ x.run = .held 0) ∧
        ∀ j < fpNV (BitVec.ofNat 32 (field (section_ l) 88 4)), let v := field (section_ l) (384 + 4 * j) 4;
          v ≠ 0 → j + 1 < 0x1E0 → x.reg (j + 1) = BitVec.ofNat 32 v) ∧
      (let size := 65536 * fpSpad fp;
        field bs 132 4 = 1 → field bs (field bs 80 8) 4 = 0 → field bs (field bs 80 8 + 4) 4 = size →
        field bs 80 8 + 8 + size ≤ bs.length → Memory.wf (s.spadOf core) = true →
        memRead (s'.spadOf core) (g'.spbase.toNat % 2 ^ 22) size = (bs.drop (field bs 80 8 + 8)).take size) ∧
      (∀ q < fpAcc fp, let o := field bs 88 8 + 131080 * q;
        field bs 96 8 = field bs 88 8 + 131080 * fpAcc fp →
        (∀ k < fpAcc fp, field bs (field bs 88 8 + 131080 * k) 8 % 16 = k) →
        (g'.tile q).err = (field bs o 8).testBit 8 ∧
        ∀ r < 128, ∀ n < 128, get (g'.tile q).elems (128 * r + n) 0 = BitVec.ofNat 42 (field bs (o + 8 + 8 * (128 * r + n)) 8)) ∧
      g'.queue.length + g'.follows.length = field bs 120 4 ∧ (∀ c ∈ g'.queue, c.onArr = false) ∧
      ((∀ l ∈ lanes, state l ≠ 3) → s'.mem = s.mem ∧ (s'.die d).held = (s.die d).held) ∧
      ∀ l ∈ lanes, state l = 3 → (∀ k ∈ lanes, k ≠ l → state k ≠ 3) → s.faultRoom d = false →
        (s'.die d).held = (s.die d).held ++ [⟨s'.agentOf ⟨slot, l⟩, cause l, BitVec.ofNat 64 (field (section_ l) 0 8), datum l,
          BitVec.ofNat 32 (asid + 65536 * 2), BitVec.ofNat 32 (field (section_ l) 128 4)⟩]

/-- spec/19_os_translation_faults.md R346 to R348, R355 and spec/02_memory_model.md R74: PREEMPT leaves a request with its save
area at a group of the die; RESTORE of what is no valid save area gives status 3; MOVEPAGE starts a move and FINISHMOVE
ends its forwarding; when a move completes the new page reads as the old did, and INTPEND[2] is set. (What PREEMPT asks of its save
area is the model's choice of notes/assumptions/38.md; which pages a move takes is that of 27.md.) -/
def Sys2Proof.Claims.GroupAndPageCommands : Prop :=
  (∀ (s : State) (d t arg : Nat), s.subject = .command d t arg →
    let a := (s.dreg d (hwReg t 0x030)).toNat
    let b := (s.dreg d (hwReg t 0x038)).toNat
    let slot := (agentWho a).slot
    (∀ g, a < 2 ^ 32 → a % 4 = 0 → arg = 0 → b % 4096 = 0 → agentPkg a = s.pkg → agentDie a = d →
      s.group? slot = some g → isSup slot = false → g.members ≠ [] → g.preempt = none → let n := s.saveSize slot g
      ((∃ ps, s.physPages false b n (pages n) = .ok ps) → ∃ s' g' p, exec .preempt s = .next s' ∧ Status s' d t 0 ∧
        s'.group? slot = some g' ∧ g'.preempt = some p ∧ p.area = b ∧ p.taken = false ∧ g'.members = g.members) ∧
      ∀ e, s.physPages false b n (pages n) = .error e → ∃ s', exec .preempt s = .next s' ∧ Status s' d t 3 ∧
        s'.groups = s.groups) ∧
    (∀ h, a < 2 ^ 32 → arg = 0 → b % 4096 = 0 → s.readPhys b 512 = .ok h →
      field h 0 4 ≠ 0x47564153 ∨ field h 4 4 ≠ 1 ∨ (field h 24 4).testBit 2 = false →
      ∃ s', exec .restore s = .next s' ∧ Status s' d t 3 ∧ s'.groups = s.groups) ∧
    (arg < 4 → a % pageSize arg = 0 → b % pageSize arg = 0 → (∀ k < 6, (s.die k).moves = []) →
      s.pageHere a (pageSize arg) = true → s.pageHere b (pageSize arg) = true →
      d < 6 → ∃ s', exec .movepage s = .next s' ∧ Status s' d t 0 ∧ s'.mem = s.mem ∧
        (s'.die d).moves = [⟨a, b, pageSize arg, false⟩]) ∧
    (arg = 0 → d < 6 → a % 4096 = 0 → b = 0 → (∀ k < 6, ∀ m ∈ (s.die k).moves, m.src = a → m.done = true) →
      ∃ s', exec .finishmove s = .next s' ∧ Status s' d t 0 ∧ s'.mem = s.mem ∧
        ∀ k < 6, ∀ m, m ∈ (s'.die k).moves ↔ m ∈ (s.die k).moves ∧ m.src ≠ a)) ∧
  ∀ (s : State) (d i : Nat) (m : PageMove), s.subject = .dieIdx d i → d < 6 →
    ((s.die d).moves.filter fun m => !m.done)[i]? = some m → (∀ r ∈ s.reqs, r.atMove ≠ some m.src) → Memory.wf s.mem = true →
    ∃ s', exec .movepageComplete s = .next s' ∧ (∀ k < m.size, memByte s'.mem (m.dst + k) = memByte s.mem (m.src + k)) ∧
      (∀ x, x < m.dst ∨ m.dst + m.size ≤ x → memByte s'.mem x = memByte s.mem x) ∧
      m ∉ (s'.die d).moves ∧ ((s'.die d).pend.getLsbD 2) = true

/-- ThreadCommands, GroupAndPageCommands and RestoreCompletes, together. -/
def Obligations.DieCommands : Prop := Claims.ThreadCommands ∧ Claims.GroupAndPageCommands ∧ Claims.RestoreCompletes

/-- spec/19_os_translation_faults.md R338, R339, R357, R358, R402: the registers of a die's block, loaded and stored by a hardware
thread in supervisor mode. RQPOP gives and removes the oldest ready-queue frame; CCDATA reads and writes the register
that CCSEL names, or sets BAD; CEN releases latency threads at LCENTRY; HTEN stays 1 once it is; a base register keeps
its aligned part.
(That bits below a base's alignment are dropped is the model's reading of notes/assumptions/10.md.) -/
def Obligations.DieRegisters : Prop :=
  ∀ (s : State) (d o : Nat) (h : SlotId) (v : DWord), let hs := slotIdKey h
    let t := hwNumber (supSlot hs)
    let sel := s.dreg d (hwReg t 0x600)
    let stores (i : Instr) (at_ : Nat) (P : State → Prop) : Prop :=
      s.subject = .regStore (Config.dieBlock + 65536 * d + at_) h v → ∃ s', exec i s = .next s' ∧ P s'
    isLatency hs = true → slotOf hs < 2 → (s.hwThread hs).released = true → (s.hwThread hs).sup = true → d < 6 →
    (∀ p ps (r : BitVec 9) x, s.subject = .regLoad d h r → 4 ≤ d → (s.die d).readyQ = p :: ps →
      s.thread? ⟨supSlot hs, 0⟩ = some x → r ≠ 0 → ∃ s' x', exec .rqpop s = .next s' ∧ (s'.die d).readyQ = ps ∧
        s'.thread? ⟨supSlot hs, 0⟩ = some x' ∧ x'.reg r.toNat = BitVec.ofNat 32 p ∧
        x'.reg (r.toNat + 1) = BitVec.ofNat 32 (p / 2 ^ 32)) ∧
    (∀ (r : BitVec 9) x core i, s.subject = .regLoad d h r → ccTarget d sel false = some (core, i) →
      s.thread? ⟨supSlot hs, 0⟩ = some x → r ≠ 0 → ∃ s' x', exec .ccdataRead s = .next s' ∧
        s'.thread? ⟨supSlot hs, 0⟩ = some x' ∧ x'.reg r.toNat = (s.csrReadCore core i).setWidth 32 ∧
        (s'.dreg d (hwReg t 0x600)).getLsbD 63 = false ∧ s'.cores = s.cores) ∧
    (ccTarget d sel true = none → stores .ccdataWrite 0x608 fun s' =>
      (s'.dreg d (hwReg t 0x600)).getLsbD 63 = true ∧ s'.cores = s.cores) ∧
    (∀ core i, ccTarget d sel true = some (core, i) → stores .ccdataWrite 0x608 fun s' =>
      (s'.dreg d (hwReg t 0x600)).getLsbD 63 = false ∧ s'.cores = (s.csrWriteCore core i v).cores) ∧
    stores .cenWrite 0x0A8 (fun s' =>
      s'.dreg d 0x0A8 = BitVec.ofNat 64 (v.toNat % 2 ^ (if 4 ≤ d then 48 else 32)) ∧
      ∀ k < 48, ∀ e < 2, let slot := slotKey (coreKey d k) e
        4 ≤ d → v.getLsbD k = true → (s.dreg d 0x0A8).getLsbD k = false → (s.hwThread slot).released = false →
        (s'.hwThread slot).released = true ∧ (s'.hwThread slot).sup = true ∧ (s'.hwThread slot).masked = true ∧
        (s'.thread? ⟨supSlot slot, 0⟩).map Thread.pc = some (s.dreg d 0x0B0)) ∧
    stores .htenWrite 0x090 (fun s' => s'.dreg d 0x090 =
      if (s.dreg d 0x090).getLsbD 0 then s.dreg d 0x090 else v &&& 1) ∧
    ∀ f : DWord → DWord, (o = 0x000 ∨ o = 0x008 ∨ o = 0x010 ∨ o = 0x050) ∧ f = (fun v => v &&& ~~~0xFFF) ∨
        (o = 0x028 ∨ o = 0x068 ∨ o = 0x070) ∧ f = (fun v => v) ∨ o = 0x078 ∧ f = (fun v => v &&& ~~~0x7FFFFF) ∨
        o = 0x400 ∧ f = (fun v => v &&& 3) ∨ (4 ≤ d ∧ (o = 0x0B0 ∨ o = 0x0B8)) ∧ f = (fun v => v) →
      stores .registerWrite o fun s' => s'.dreg d o = f v ∧ (∀ x, x ≠ o → s'.dreg d x = s.dreg d x) ∧
        (∀ k, k ≠ d → s'.die k = s.die k) ∧ s'.mem = s.mem ∧ s'.groups = s.groups

/-- spec/20_fabric_memory_bringup.md R373 to R378: a memory block, started by booted software: training ends in READY
or FAIL; zeroing leaves every byte of the memory zero and no poison; POISONPA poisons its block; a scrub corrects up to CORRLIM
bit errors, rewriting the block from the write-back threshold on, and poisons it for more; a failed retraining sets DEGRADED.
(What becomes of a block below the threshold is the model's choice of notes/assumptions/61.md.) -/
def Obligations.MemoryBlockEvents : Prop :=
  ∀ (s : State) (u : Nat), u < 18 →
    let ctl (s : State) := (s.breg u 0).toNat
    let stat (s : State) := (s.breg u 0x008).toNat
    (s.subject = .unit u → s.ctrl.pkstate = 3 → ∃ s', exec .stackInit s = .next s' ∧ (ctl s').testBit 0 = true ∧ s'.mem = s.mem) ∧
    (s.subject = .unit u → s.ctrl.pkstate = 3 → ∃ s', exec .stackZero s = .next s' ∧ (ctl s').testBit 1 = true ∧ s'.mem = s.mem) ∧
    (∀ ok, s.subject = .unitFlag u ok → (ctl s).testBit 0 = true → (stat s).testBit 0 = false → (stat s).testBit 1 = false →
      ∃ s', exec .stackReady s = .next s' ∧ (stat s').testBit 0 = ok ∧ (stat s').testBit 1 = !ok ∧ s'.mem = s.mem) ∧
    (s.subject = .unit u → (ctl s).testBit 1 = true → (stat s).testBit 0 = true → (stat s).testBit 3 = false → Memory.wf s.mem = true →
      ∃ s', exec .zeroDone s = .next s' ∧ (stat s').testBit 3 = true ∧ (s'.block u).poison = [] ∧
        ∀ x, memByte s'.mem x = if s.inUnit u x then 0 else memByte s.mem x) ∧
    (∀ on, s.subject = .unitFlag u on → u < 16 → s.ctrl.pkstate = 3 → ∃ s', exec .mscEnable s = .next s' ∧ (ctl s').testBit 2 = on ∧
      s'.mem = s.mem) ∧
    (∀ pa n, s.subject = .unitPa u pa n → s.ctrl.pkstate = 3 → pa % 512 = 0 → (s.localAt pa false false).isSome →
      ∃ s', exec .poisonpa s = .next s' ∧ pa ∈ (s'.block u).poison ∧ s'.mem = s.mem) ∧
    (∀ pa n, s.subject = .unitPa u pa n → pa % 512 = 0 → s.inUnit u pa = true → (stat s).testBit 0 = true →
      ∃ s', exec .patrolScrub s = .next s' ∧ s'.mem = s.mem ∧ (s'.block u).scrub = ((s.block u).scrub + 1) % (if u < 16 then 2 ^ 27 else 2 ^ 29) ∧
        -- the errors found now, or those the patrol left in the block if they are more
        let e := max n (get (s.block u).flawed pa 0)
        let lim := ctl s / 256 % 32
        let back := (s.breg u 0x010).toNat / 256 % 256
        (e = 0 → s'.breg u 0x018 = s.breg u 0x018 ∧ s'.breg u 0x020 = s.breg u 0x020) ∧
        (1 ≤ e → e ≤ lim → s'.breg u 0x018 = s.breg u 0x018 + 1 ∧ (s'.block u).poison = (s.block u).poison ∧
          lookup pa (s'.block u).flawed = if e < back then some e else none) ∧
        (1 ≤ e → lim < e → s'.breg u 0x020 = s.breg u 0x020 + 1 ∧ pa ∈ (s'.block u).poison)) ∧
    ∀ ok, s.subject = .unitFlag u ok → (stat s).testBit 0 = true → ∃ s', exec .retrain s = .next s' ∧
      (ok = true → s' = s) ∧ (ok = false → (stat s').testBit 2 = true ∧ (s'.block u).retries = (s.block u).retries + 1)

/-! ## The mailbox -/

/-- The command in progress is answered: MBSTAT is DONE with the sequence word, RSPBUF begins with the status, no command
is in progress (R324, R326). -/
def Sys2Proof.Claims.Answered (s s' : State) (seq : Word) (status : Nat) : Prop :=
  s'.ctrl.cmd = none ∧ s'.ctrl.mbstat = (s.ctrl.mbstat &&& 0x20000000) ||| 0x40000000 ||| seq ∧
  leVal (memRead s'.ctrl.rspbuf 0 2) = status

/-- A command of opcode `op` is in progress, its response wanted and its header well formed with payload length `n`. -/
structure Sys2Proof.Claims.InMailbox (s : State) (op n : Nat) (seq : Word) (c : List Byte) : Prop where
  cmd : s.ctrl.cmd = some (seq, c)
  opcode : field c 0 2 = op
  length : field c 4 4 = n
  reserved : field c 2 2 = 0
  wanted : s.ctrl.discard = false
  wf : Memory.wf s.ctrl.rspbuf = true

/-- What a response alone changes: the controller's mailbox, and vector 0's message or pending bit (R323). -/
def Sys2Proof.Claims.OnlyMailbox (s s' : State) : Prop :=
  s' = { s with ctrl := { s.ctrl with
    cmd := s'.ctrl.cmd, mbstat := s'.ctrl.mbstat, rspbuf := s'.ctrl.rspbuf, pba := s'.ctrl.pba, messages := s'.ctrl.messages } }

/-- spec/18_host_rom_boot.md R324 to R328: a doorbell starts the command in CMDBUF with BUSY and its sequence word, sets LOST
while one is in progress, and answers an unknown opcode with status 1; a command whose state does not permit it is
answered with status 3 and does nothing else; an endpoint reset empties the buffers.
(The order of the checks is the model's reading of notes/assumptions/63.md.) -/
def Sys2Proof.Claims.DoorbellAndRefusals : Prop :=
  ∀ (s : State) (v : Word),
    let op := field (memRead s.ctrl.cmdbuf 0 4096) 0 2
    (s.subject = .doorbell v → v.toNat < 65536 → s.ctrl.discard = false → s.ctrl.cmd = none → 1 ≤ op → op ≤ 12 →
      ∃ s', exec .doorbell s = .next s' ∧ s'.ctrl.mbstat = 0x80000000 ||| v ∧
        s'.ctrl.cmd = some (v, memRead s.ctrl.cmdbuf 0 4096) ∧ s'.mem = s.mem ∧ s'.groups = s.groups) ∧
    (s.subject = .doorbell v → v.toNat < 65536 → s.ctrl.discard = false → s.ctrl.cmd = none → op = 0 ∨ 12 < op →
      Memory.wf s.ctrl.rspbuf = true → ∃ s', exec .doorbell s = .next s' ∧ s'.ctrl.cmd = none ∧
        leVal (memRead s'.ctrl.rspbuf 0 2) = 1 ∧ s'.mem = s.mem) ∧
    (s.subject = .doorbell v → v.toNat < 65536 → s.ctrl.discard = false → s.ctrl.cmd.isSome →
      ∃ s', exec .doorbell s = .next s' ∧ s'.ctrl.mbstat = s.ctrl.mbstat ||| 0x20000000 ∧ s'.ctrl.cmd = s.ctrl.cmd) ∧
    (s.subject = .doorbell v → 65536 ≤ v.toNat → exec .doorbell s = .next s) ∧
    (∀ i o n seq c, (i, o) ∈ [(Instr.verify, 0x04), (.boot, 0x05), (.halt, 0x07), (.dump, 0x08),
        (.fwupdateRomPatch, 0x0B), (.fwupdateEnrol, 0x0B), (.fwupdateRevoke, 0x0B), (.fwupdateSvmin, 0x0B)] →
      InMailbox s o n seq c → permitted o s.ctrl.pkstate = false →
      ∃ s', exec i s = .next s' ∧ Answered s s' seq 3 ∧ OnlyMailbox s s') ∧
    ∃ s', exec .endpointReset s = .next s' ∧ s'.ctrl.intmask = 0xF ∧ s'.ctrl.cmdbuf = [] ∧ s'.ctrl.rspbuf = [] ∧
      s'.ctrl.msix = [] ∧ s'.ctrl.pba = 0 ∧ s'.mem = s.mem ∧ s'.ctrl.cmd = s.ctrl.cmd ∧
      s'.ctrl.discard = s.ctrl.cmd.isSome

/-- spec/18_host_rom_boot.md R329 to R333: identity, attestation, images and boot. IDENTIFY and ATTEST give
their reports, byte by byte, and change nothing but the buffer that takes the certificates; LOAD leaves STAGED; VERIFY gives its first failing check, and VERIFIED where none
fails; BOOT leaves RUNNING with latency core 0 of die 4 at the image's entry. -/
def Sys2Proof.Claims.ImageCommands : Prop :=
  ∀ (s : State) (seq : Word) (c : List Byte),
    let identity : List Byte := leBytes 16 Config.serial.toNat ++ leBytes 4 0xD7 ++ leBytes 4 Config.stepping.toNat ++
      leBytes 4 Config.romVersion.toNat ++ leBytes 4 (s.ctrl.fuses.filter fun f => f.hash.isSome).length ++ identityKey ++
      leBytes 4 Config.certChain.length
    let gives (s' : State) (bs : List Byte) : Prop := memRead s'.ctrl.rspbuf 16 bs.length = bs ∧
      leVal (memRead s'.ctrl.rspbuf 4 4) = bs.length
    (InMailbox s 0x01 16 seq c → field c 16 8 = 0 ∨ field c 24 8 < Config.certChain.length →
      ∃ s', exec .identify s = .next s' ∧ Answered s s' seq 0 ∧ OnlyMailbox s s' ∧ gives s' identity) ∧
    (InMailbox s 0x01 16 seq c → field c 16 8 ≠ 0 → Config.certChain.length ≤ field c 24 8 →
      bufStatus (field c 16 8) Config.certChain.length = 0 → Memory.wf s.hostMem = true →
      ∃ s', exec .identify s = .next s' ∧ Answered s s' seq 0 ∧ gives s' identity ∧ s'.mem = s.mem ∧
        memRead s'.hostMem (field c 16 8) Config.certChain.length = Config.certChain) ∧
    (InMailbox s 0x02 32 seq c → c.length = 4096 →
      let h := if s.ctrl.verified then s.ctrl.header else none
      let slot := (h.map fun b => field b 12 4).getD 0xFF
      let body : List Byte := leBytes 4 0x415A4854 ++ leBytes 4 1 ++ leBytes 4 s.ctrl.pkstate ++ leBytes 4 slot ++
        (c.drop 16).take 32 ++ romMeasure s.ctrl.patch ++ ((h.map fun b => sha256 (b.take 192)).getD (leBytes 32 0)) ++
        leBytes 4 (if h.isSome then (slotAt s.ctrl slot).svmin else 0) ++ leBytes 4 ((h.map fun b => field b 8 4).getD 0) ++
        leBytes 4 s.ctrl.boots ++ leBytes 4 0 ++ leBytes 16 Config.serial.toNat ++ leBytes 48 0
      ∃ s', exec .attest s = .next s' ∧ Answered s s' seq 0 ∧ OnlyMailbox s s' ∧ gives s' (body ++ identitySign body)) ∧
    (InMailbox s 0x03 16 seq c → s.ctrl.pkstate ≤ 2 → ∃ s' st, exec .loadImage s = .next s' ∧ Answered s s' seq st ∧
      s'.ctrl.pkstate = 1 ∧ s'.ctrl.verified = false ∧
      (st = 0 → ∃ h, s'.ctrl.header = some h ∧ h = memRead s.hostMem (field c 16 8) 256)) ∧
    (InMailbox s 0x04 0 seq c → s.ctrl.pkstate = 1 ∨ s.ctrl.pkstate = 2 → ∃ s', exec .verify s = .next s' ∧
      Answered s s' seq s.verifyStatus ∧ s'.mem = s.mem ∧
      (s.verifyStatus = 0 → s'.ctrl.pkstate = 2 ∧ s'.ctrl.verified = true) ∧
      (s.verifyStatus ≠ 0 → OnlyMailbox s s')) ∧
    (∀ h, InMailbox s 0x05 0 seq c → s.ctrl.pkstate = 2 → s.ctrl.header = some h → ∃ s' x, exec .boot s = .next s' ∧
      Answered s s' seq 0 ∧ s'.ctrl.pkstate = 3 ∧ s'.ctrl.boots = s.ctrl.boots + 1 ∧
      let slot := slotKey (coreKey 4 0) 0
      (s'.hwThread slot).released = true ∧ (s'.hwThread slot).sup = true ∧ s'.thread? ⟨supSlot slot, 0⟩ = some x ∧
        x.pc = BitVec.ofNat 64 (field h 24 8) ∧ x.run = .ready)

/-- spec/18_host_rom_boot.md R329, R332: a reset leaves state ROM with no group, request or cohort; a warm one keeps memory, a
cold one and a power-on clear it; power-on forgets the health events too.
(What a reset keeps and in what state it leaves the machine are the model's readings and choices of notes/assumptions/2.md, 14.md,
64.md.) -/
def Sys2Proof.Claims.ResetForms : Prop :=
  ∀ (s : State) (seq : Word) (c : List Byte),
    let cleared (s' : State) : Prop := s'.ctrl.pkstate = 0 ∧ s'.groups = [] ∧ s'.reqs = [] ∧ s'.cohorts = [] ∧ s'.cores = [] ∧
      s'.spad = [] ∧ s'.hw = []
    (InMailbox s 0x06 4 seq c → field c 16 4 = 1 → ∃ s', exec .resetWarm s = .next s' ∧ Answered s s' seq 0 ∧ cleared s' ∧
      s'.mem = s.mem ∧ s'.ctrl.events = s.ctrl.events) ∧
    (InMailbox s 0x06 4 seq c → field c 16 4 = 0 → ∃ s', exec .resetCold s = .next s' ∧ Answered s s' seq 0 ∧ cleared s' ∧
      s'.mem = []) ∧
    ∃ s', exec .powerOn s = .next s' ∧ cleared s' ∧ s'.mem = [] ∧ s'.ctrl.events = [] ∧ s'.ctrl.cmd = none

/-- DoorbellAndRefusals and ResetForms, together. -/
def Obligations.MailboxAndResets : Prop := Claims.DoorbellAndRefusals ∧ Claims.ResetForms

/-- spec/18_host_rom_boot.md R329, R334, R335 and spec/22_fleet_operations.md R397, R398: the remaining commands: SETPOWER keeps the
cap within 500 and 2,500 W; HEALTH gives its 64-byte summary and changes nothing; TELEM fills its buffer with whole records, the
package's first, and the queued events, which it removes, last; an FWUPDATE stages
the patch, enrols, revokes or raises SVMIN of its slot and of no other when its object is valid, and else has a nonzero
status and no effect. (What is signed, and for which serial, depends on constants of the package that are not known; the layout of
an FWUPDATE's object is presumed, notes/assumptions/15.md; the order of the header's checks is the model's choice of 63.md.) -/
def Sys2Proof.Claims.FleetCommands : Prop :=
  ∀ (s : State) (seq : Word) (c : List Byte),
    (InMailbox s 0x0C 4 seq c → ∃ s', exec .setpower s = .next s' ∧ Answered s s' seq 0 ∧
      s'.ctrl.cap = max 500 (min 2500 (field c 16 4)) ∧ s'.mem = s.mem ∧ s'.groups = s.groups) ∧
    let mean := s.ctrl.powers.sum / max 1 s.ctrl.powers.length / 1000
    (InMailbox s 0x0A 0 seq c → s.ctrl.events.length < 65536 → ∃ s' d, exec .health s = .next s' ∧ Answered s s' seq 0 ∧
      OnlyMailbox s s' ∧
      let at_ (o n : Nat) : Nat := leVal (memRead s'.ctrl.rspbuf (16 + o) n)
      let stat (u b : Nat) : Bool := (s.breg u 0x008).getLsbD b
      let chans (st : Nat) : Nat := ((List.range 4).map fun d => ((List.range 256).filter fun k => s.chanState d k == st).length).sum
      at_ 0 4 = (s.ctrl.pkstate + 16 * (s.ctrl.events.map (·.sev)).foldl max 0) % 2 ^ 32 ∧
      (∀ t < 16, (at_ 4 4).testBit t = stat t 0 ∧ (at_ 4 4).testBit (16 + t) = stat t 2 ∧ (at_ 8 4).testBit t = stat t 1) ∧
      (∀ t < 2, (at_ 8 4).testBit (16 + t) = stat (16 + t) 1) ∧ at_ 8 4 < 2 ^ 18 ∧
      at_ 12 4 = s.ctrl.events.length + 65536 * min s.ctrl.dropped 0xFFFF ∧
      (∀ q < 64, (at_ 16 8).testBit q = (s.peerState q == 1) ∧ (at_ 24 8).testBit q = (s.peerState q == 2)) ∧
      at_ 32 4 = chans 3 ∧ at_ 36 4 = chans 2 ∧ at_ 40 4 = mean % 2 ^ 32 ∧ at_ 44 4 = s.ctrl.cap % 2 ^ 32 ∧
      d < 6 ∧ (∀ k < 6, get s.ctrl.temps k 0 ≤ get s.ctrl.temps d 0) ∧ at_ 50 2 = d ∧
      at_ 48 2 = (BitVec.ofInt 16 (get s.ctrl.temps d 0 / 8)).toNat ∧
      at_ 52 4 = s.ctrl.ces % 2 ^ 32 ∧ at_ 56 4 = s.ctrl.ues % 2 ^ 32 ∧ at_ 60 4 = min s.ctrl.status8 0xFFFFFFFF) ∧
    (InMailbox s 0x09 16 seq c → field c 16 8 % 64 = 0 → field c 16 8 + field c 24 8 ≤ 2 ^ 64 → s.ctrl.sampled = [] →
      Memory.wf s.hostMem = true →
      ∃ s' k m, exec .telem s = .next s' ∧ Answered s s' seq 0 ∧ s'.ctrl.events = s.ctrl.events.drop k ∧ s'.mem = s.mem ∧
        s'.groups = s.groups ∧ leVal (memRead s'.ctrl.rspbuf 16 8) = 64 * m ∧ 64 * m ≤ field c 24 8 ∧ k ≤ m ∧
        (∀ x, x < field c 16 8 ∨ field c 16 8 + 64 * m ≤ x → memByte s'.hostMem x = memByte s.hostMem x) ∧
        let at_ (i o n : Nat) : Nat := leVal (memRead s'.hostMem (field c 16 8 + 64 * i + o) n)
        -- the package's record first, the events that leave the queue last
        (0 < m → at_ 0 0 2 = 1 ∧ at_ 0 2 2 = 0 ∧ at_ 0 4 4 = s.ctrl.tick % 2 ^ 32 ∧ at_ 0 8 4 = mean % 2 ^ 32 ∧
          at_ 0 12 4 = s.ctrl.cap % 2 ^ 32 ∧ at_ 0 16 8 = s.ctrl.energy / 1000000 % 2 ^ 64 ∧
          at_ 0 24 4 = s.ctrl.pkstate % 2 ^ 32 ∧ at_ 0 28 4 = s.ctrl.dropped % 2 ^ 32) ∧
        ∀ i < k, ∃ e, s.ctrl.events[i]? = some e ∧ at_ (m - k + i) 0 2 = 8 ∧ at_ (m - k + i) 4 4 = s.ctrl.tick % 2 ^ 32 ∧
          at_ (m - k + i) 8 2 = e.cls % 65536 ∧ at_ (m - k + i) 10 2 = e.sev % 65536 ∧ at_ (m - k + i) 12 4 = e.agent.toNat ∧
          at_ (m - k + i) 16 8 = e.datum.toNat ∧ at_ (m - k + i) 24 4 = e.count % 2 ^ 32 ∧ at_ (m - k + i) 28 4 = e.tick % 2 ^ 32) ∧
    (let a := field c 24 8
    let n := field c 32 8
    let obj := memRead s.hostMem a n
    let slot := field obj 16 4
    let key := (obj.drop (n - 128)).take 64
    let signed : Prop := ecdsaOk key (obj.drop (n - 64)) (obj.take (n - 64)) = true
    let abaig : Prop := sha256 key = Config.abaigKeyHash
    let here : Prop := slot < 4 ∧ field obj 0 16 = Config.serial.toNat
    let old := slotAt s.ctrl slot
    let own : Prop := old.hash = some (sha256 key) ∧ old.revoked = false
    let gives (i : Instr) (accepted : Prop) (P : State → Prop) : Prop := ∃ s', exec i s = .next s' ∧ s'.mem = s.mem ∧
      s'.groups = s.groups ∧ (accepted → Answered s s' seq 0 ∧ P s') ∧
      (¬accepted → ∃ st, st ≠ 0 ∧ Answered s s' seq st ∧ OnlyMailbox s s')
    let fused (new : FuseSlot) (s' : State) : Prop := s'.ctrl.fuses = s.ctrl.fuses.set slot new
    InMailbox s 0x0B 24 seq c → (s.ctrl.pkstate = 0 ∨ s.ctrl.pkstate = 3) → a % 64 = 0 → a + n ≤ 2 ^ 64 →
    (field c 16 8 = 0 → gives .fwupdateRomPatch (128 ≤ n ∧ abaig ∧ signed) fun s' =>
      s'.ctrl.staged = some (obj.take (n - 128)) ∧ s'.ctrl.fuses = s.ctrl.fuses) ∧
    (field c 16 8 = 1 → gives .fwupdateEnrol (n = 180 ∧ here ∧ abaig ∧ signed ∧ old.hash = none)
      (fused { old with hash := some ((obj.drop 20).take 32) })) ∧
    (field c 16 8 = 2 → gives .fwupdateRevoke (n = 148 ∧ here ∧ own ∧ signed) (fused { old with revoked := true })) ∧
    (field c 16 8 = 3 → gives .fwupdateSvmin
      (n = 152 ∧ here ∧ own ∧ signed ∧ old.svmin < field obj 20 4 ∧ field obj 20 4 ≤ 63)
      (fused { old with svmin := field obj 20 4 })))

/-- ImageCommands and FleetCommands, together. -/
def Obligations.ImageAndFleetCommands : Prop := Claims.ImageCommands ∧ Claims.FleetCommands

/-- spec/21_debug_dump.md R383, R386: HALT of a running package asks for a halt and is not answered yet; it completes when no
die has anything in flight, leaving HALTED with its cause and every core stopped; a die past HALTDRAIN aborts its copies;
DUMP of a halted package writes its bytes, the magic first, to the host buffer.
(What a halt waits for and how its aborts are noted is the model's reading of notes/assumptions/65.md.) -/
def Obligations.HaltAndDump : Prop :=
  (∀ (s : State) (seq : Word) (c : List Byte), InMailbox s 0x07 0 seq c →
    (s.ctrl.pkstate = 3 → s.ctrl.halting = none → ∃ s', exec .halt s = .next s' ∧ s'.ctrl.halting = some (0, 0) ∧
      s'.ctrl.cmd = s.ctrl.cmd ∧ s'.mem = s.mem ∧ s'.groups = s.groups) ∧
    (s.ctrl.pkstate = 4 → ∃ s', exec .halt s = .next s' ∧ Answered s s' seq 0 ∧ OnlyMailbox s s')) ∧
  (∀ (s : State) (cause : Nat × Word), s.ctrl.halting = some cause → s.reqs = [] → (∀ k x, (k, x) ∈ s.cores → x.wc = []) →
    s.busyChans = [] → (∀ x ∈ s.groups, (∀ c ∈ x.2.queue, c.onArr = false) ∧ ∀ m ∈ x.2.members, m.2.deferred = none) →
    ∃ s', exec .haltComplete s = .next s' ∧ s'.ctrl.pkstate = 4 ∧ s'.ctrl.halting = none ∧
      s'.ctrl.haltCause = cause ∧ (∀ k x, (k, x) ∈ s'.cores → x.stopped = true) ∧ s'.groups = s.groups ∧ s'.mem = s.mem) ∧
  (∀ (s : State) (d eng k : Nat) (ch : Chan) (x : ChanCmd) (c : Copy), s.subject = .die d → s.ctrl.halting.isSome →
    s.ctrl.haltSeen = true →
    ((s.die d).haltCycles < (s.dreg d 0x408).toNat → exec .haltdrainExpiry s = .next s) ∧
    ((s.dreg d 0x408).toNat ≤ (s.die d).haltCycles → (s.busyChans.filter fun y => dieOfCore y.1 == d) = [(eng, k, ch)] →
      s.chan eng k = ch → ch.cmds = [x] → x.op = .copy c → x.sync = 0 →
      (x.running = true → ∀ r ∈ s.reqs, r.who = (x.doer k 0).who → r.atMove ≠ none) → ∃ s', exec .haltdrainExpiry s = .next s' ∧
        (s'.chan eng k).cmds = [] ∧ s'.groups = s.groups ∧ s'.mem = s.mem)) ∧
  ∀ (s : State) (seq : Word) (c : List Byte), InMailbox s 0x08 16 seq c → s.ctrl.pkstate = 4 → field c 16 8 % 64 = 0 →
    256 ≤ field c 24 8 → field c 16 8 + field c 24 8 ≤ 2 ^ 64 → Memory.wf s.hostMem = true →
    ∃ s', exec .dump s = .next s' ∧ Answered s s' seq 0 ∧ s'.mem = s.mem ∧ s'.groups = s.groups ∧
      memRead s'.hostMem (field c 16 8) 4 = [0x54, 0x48, 0x5A, 0x44] ∧
      ∀ x, x < field c 16 8 ∨ field c 16 8 + field c 24 8 ≤ x → memByte s'.hostMem x = memByte s.hostMem x

/-! ## The fabric, the fleet operator's events, root ports -/

/-- spec/20_fabric_memory_bringup.md R362, R365: bring-up and flits. YAGON_ENABLE sets EN; a channel that trains to its
peer, absent until then, is active and the peer up, one that meets another package is failed; a flit with an error
counts and is asked for again, the expected one moves EXPECT on, a link-control one of them is a notice of its sender's reset,
another changes nothing, and none comes about on a channel that is not active and in service; a negative acknowledge sends
what is outstanding from n on again, a cumulative one frees the buffer up to n. (How acknowledges and responses are told apart, and
what training makes of a spare, are the model's choices of notes/assumptions/60.md and 44.md.) -/
def Obligations.LinkEvents : Prop :=
  ∀ (s : State) (d c q n epoch : Nat) (f : Flit), d < 4 → c < 256 →
    (s.subject = .die d → ∃ s', exec .yagonEnable s = .next s' ∧ (s'.freg d 0).getLsbD 8 = true ∧
      (∀ o, o ≠ 0 → s'.freg d o = s.freg d o) ∧ s'.mem = s.mem ∧ s'.groups = s.groups) ∧
    (s.subject = .trained d c q epoch → s.chanOn d c = true → s.chanState d c ≠ 2 → s.chanPeer d c ≠ s.pkg →
      (q = s.chanPeer d c → s.peerState q = 0 →
        ∃ s', exec .channelTrained s = .next s' ∧ s'.peerState q = 1 ∧ s'.chanState d c = 1) ∧
      (q % 64 ≠ s.chanPeer d c → ∃ s', exec .channelTrained s = .next s' ∧ s'.chanState d c = 3)) ∧
    (s.subject = .flit d c f → s.chanOn d c = false ∨ s.chanState d c ≠ 1 → exec .flitReceive s = .next s) ∧
    (s.subject = .flit d c f → s.chanOn d c = true → s.chanState d c = 1 → let l := s.link d (s.chanPeer d c)
      let good := flitTyp f ≠ 3 ∨ s.flitBad (s.chanPeer d c) f = true ∨ flitSeq f ≠ l.expect
      ∃ s', exec .flitReceive s = .next s' ∧ (good → s'.mem = s.mem ∧ s'.groups = s.groups ∧ s'.reqs = s.reqs) ∧
        let l' := s'.link d (s.chanPeer d c)
        (s.flitBad (s.chanPeer d c) f = false → flitSeq f = l.expect → flitTyp f = 6 → l'.notice = true) ∧
        (s.flitBad (s.chanPeer d c) f = true → l'.naked = true ∧ l'.expect = l.expect ∧
          s'.freg d (0x1800 + 8 * c) = s.freg d (0x1800 + 8 * c) + 1) ∧
        (s.flitBad (s.chanPeer d c) f = false → flitTyp f ≠ 3 → l'.expect = if flitSeq f = l.expect then (l.expect + 1) % 4096 else l.expect) ∧
        (s.flitBad (s.chanPeer d c) f = false → flitSeq f ≠ l.expect → l' = l)) ∧
    (s.subject = .link d q n → let l := s.link d q
      let from_ := l.replay.dropWhile fun f => flitSeq f != n % 4096
      (from_ = [] → exec .negativeAcknowledge s = .next s ∧ exec .cumulativeAcknowledge s = .next s) ∧
      (from_ ≠ [] → l.replays < 7 → ∃ s', exec .negativeAcknowledge s = .next s' ∧ (s'.link d q).replay = l.replay ∧
        (s'.link d q).sent = l.sent + from_.length ∧ s'.mem = s.mem ∧ s'.groups = s.groups) ∧
      (from_ ≠ [] → ∃ s', exec .cumulativeAcknowledge s = .next s' ∧ (s'.link d q).replay = from_.drop 1 ∧
        (s'.link d q).replays = 0 ∧ s'.mem = s.mem ∧ s'.groups = s.groups) ∧
      (l.idle < 4096 → exec .replayTimeout s = .next s) ∧
      (4096 ≤ l.idle → l.replays < 7 → ∃ s', exec .replayTimeout s = .next s' ∧ (s'.link d q).replay = l.replay ∧
        (s'.link d q).sent = l.sent + l.replay.length))

/-- spec/20_fabric_memory_bringup.md R366 to R368, R371: channels and peers. A channel over its threshold, without light or lock, or
not woken in time is failed; an idle link parks the active channel of the most hours and a woken one joins; a peer of
the domain is lost after LOSSTO cycles without a channel or at its notice, and admitted again only when it is. (What counts toward
LOSSTO, and when an admission takes effect, are the model's choices of notes/assumptions/59.md and 43.md.) -/
def Obligations.ChannelAndPeerEvents : Prop :=
  ∀ (s : State) (d c q n p : Nat), d < 4 → c < 256 →
    (s.subject = .dieIdx d c →
      (s.chanOn d c = true → s.chanState d c ≠ 3 → ∃ s', exec .channelDrop s = .next s' ∧ s'.chanState d c = 3) ∧
      (s.chanOn d c = false ∨ s.chanState d c = 3 → exec .channelDrop s = .next s) ∧
      (∃ s', exec .lockLost s = .next s' ∧ (256 * d + c) ∈ s'.ctrl.lost ∧ (s.chanState d c = 1 → s'.chanState d c = 3)) ∧
      (lookup c (s.die d).waking = some n → 4 * (s.freg d 0x018).toNat ≤ n →
        ∃ s', exec .wakeTimeout s = .next s' ∧ s'.chanState d c = 3) ∧
      (lookup c (s.die d).waking = some n → n < 4 * (s.freg d 0x018).toNat → exec .wakeTimeout s = .next s) ∧
      (lookup c (s.die d).waking = some n → ∃ s', exec .channelJoinsStripe s = .next s' ∧ s'.chanState d c = 1) ∧
      (lookup c (s.die d).waking = none → exec .wakeTimeout s = .next s ∧ exec .channelJoinsStripe s = .next s)) ∧
    (s.subject = .link d q n → let r := (s.freg d 0x010).toNat
      (r / 2 ^ 40 % 2 ^ 24 ≤ (s.link d q).low → r / 2 ^ 32 % 256 < (s.chansTo d q 1).length →
        ∃ s', exec .parkChannel s = .next s' ∧ ∃ x ∈ s.chansTo d q 1, s'.chanState d x = 2 ∧
          ∀ y ∈ s.chansTo d q 1, get (s.die d).hours y 0 ≤ get (s.die d).hours x 0) ∧
      ((s.link d q).low < r / 2 ^ 40 % 2 ^ 24 ∨ (s.chansTo d q 1).length ≤ r / 2 ^ 32 % 256 →
        exec .parkChannel s = .next s)) ∧
    (s.subject = .peer p → p < 64 →
      -- no channel to it for LOSSTO cycles, or a notice of its reset
      let due : Prop := (s.freg 0 0x028).toNat ≤ get s.ctrl.down p 0 ∨ ∃ k < 4, (s.link k p).notice = true
      (p ≠ s.pkg → p < s.domain → s.domain ≠ 1 → s.peerState p ≠ 2 → due →
        ∃ s', exec .peerLost s = .next s' ∧ s'.peerState p = 2 ∧ s'.admitted p = false) ∧
      (p = s.pkg ∨ s.peerState p = 2 ∨ ¬ due → exec .peerLost s = .next s) ∧
      (s.peerState p = 2 → ∃ s', exec .peeradmit s = .next s' ∧ s'.admitted p = true ∧ s'.peerState p = 2) ∧
      (s.peerState p ≠ 2 → exec .peeradmit s = .next s))

/-- spec/22_fleet_operations.md R390 to R392, R395 and spec/18_host_rom_boot.md R336: a clock's sags are counted and change no
result; a die goes a step down while the mean of 100 ms is over the cap or it is above 100 °C, and a step up well below both; a die
at 115 °C halts a running package; a sample comes at the next 10 ms, reads its dies and adds to the mean and the energy (when the
readings come is the model's choice of notes/assumptions/67.md); repairs, worn lasers and lost ports are recorded; a device's access needs its link
(a port, or its second half where the port is bifurcated) up and its requester mapped.
(Devices and their requesters are the model's choices of notes/assumptions/68.md, sags beyond the five depths that of 73.md, owners of
write-combining entries its reading of 48.md.) -/
def Obligations.OperatorEvents : Prop :=
  ∀ (s : State) (r : PowerReading) (d g depth n lo hi f w : Nat) (a : DmaReq),
    let link (d n : Nat) (s : State) : Bool := get s.ctrl.ports (2 * d + n % 2 + 8 * (n / 2 % 2)) false
    (s.subject = .stretch d g depth n → 1 ≤ depth → ∃ s', exec .clockStretch s = .next s' ∧ s'.mem = s.mem ∧
      s'.groups = s.groups ∧ s'.sag d g 0 = s.sag d g 0 + 1 ∧
      s'.sag d g (min depth 5) = s.sag d g (min depth 5) + n) ∧
    -- the package's mean over the samples of the last 100 ms
    let mean := s.ctrl.powers.sum / max 1 s.ctrl.powers.length
    (s.subject = .power r → let steps (x : State) := get x.ctrl.steps r.die 0
      (s.ctrl.cap * 1000 < mean → steps s < 16 → ∃ s', exec .powerStep s = .next s' ∧ steps s' = steps s + 1 ∧
        s'.mem = s.mem ∧ s'.groups = s.groups) ∧
      (800 < r.temp8 → steps s < 16 → ∃ s', exec .powerStep s = .next s' ∧ steps s' = steps s + 1) ∧
      (100 * mean ≤ 95 * (s.ctrl.cap * 1000) → r.temp8 ≤ 800 →
        ∃ s', exec .powerStep s = .next s' ∧ steps s' = steps s - 1 ∧ get s'.ctrl.throttle r.die 0 = 0) ∧
      (r.temp8 < 920 → exec .thermalTrip s = .next s) ∧
      (920 ≤ r.temp8 → s.ctrl.pkstate = 3 → s.ctrl.halting = none →
        ∃ s', exec .thermalTrip s = .next s' ∧ s'.ctrl.halting = some (0, 0) ∧ s'.mem = s.mem ∧ s'.groups = s.groups)) ∧
    (∀ mw rs, s.subject = .sample mw rs →
      ∃ s', exec .telemetrySample s = .next s' ∧ s'.ctrl.tick = s.ctrl.tick / 10 * 10 + 10 ∧
        s'.ctrl.energy = s.ctrl.energy + mw * 10 ∧ s'.ctrl.powers = (mw :: s.ctrl.powers).take 10 ∧
        (∀ x ∈ rs, (∀ y ∈ rs, y.die = x.die → y = x) → get s'.ctrl.diePower x.die 0 = x.dieMw ∧
          get s'.ctrl.temps x.die 0 = x.temp8 ∧ get s'.ctrl.volts x.die 0 = x.mv) ∧
        s'.mem = s.mem ∧ s'.groups = s.groups) ∧
    (s.subject = .ucie lo hi → ∃ s', exec .ucieLaneRepair s = .next s' ∧
      get s'.ctrl.repaired (8 * lo + hi) 0 = get s.ctrl.repaired (8 * lo + hi) 0 + 1 ∧ s'.mem = s.mem) ∧
    (s.subject = .laser d f w → ∃ s', exec .laserWorn s = .next s' ∧ (256 * d + (16 * f + w)) ∈ s'.ctrl.worn ∧
      s'.mem = s.mem) ∧
    (s.subject = .dieIdx d n → d = 4 ∨ d = 5 → link d n s = true →
      ∃ s', exec .surpriseLinkDown s = .next s' ∧ link d n s' = false ∧
        s'.ctrl.aer.length = s.ctrl.aer.length + 1 ∧ s'.mem = s.mem) ∧
    (s.subject = .dma a → link a.die a.port s = false → exec .deviceDma s = .next s) ∧
    (s.subject = .dma a → link a.die a.port s = true →
      (lookup (a.requester % 65536) s.ctrl.iommu = none → ∃ s', exec .deviceDma s = .next s' ∧ s'.mem = s.mem ∧
        s'.groups = s.groups ∧ s'.ctrl.aer = s.ctrl.aer ++ [a.requester % 65536]) ∧
      ∀ asid s1, lookup (a.requester % 65536) s.ctrl.iommu = some asid → a.store = true →
        (s.iommuTarget a.die a.requester a.va true).any (fun t => t.1.byPort) = false →
        s.engWrite (Doer.plain (coreKey a.die 48) asid false) a.va a.bytes none (lines a.bytes.length) = .ok () s1 →
        exec .deviceDma s = .next s1)

/-! ## Taking an exception -/

/-- spec/01_execution_model.md R37, R38 and spec/19_os_translation_faults.md R349, R350: the shared operations by which
every instruction takes an exception. On a SIMT core a fault parks the thread where it stands and its 32-byte record is
held, or its bytes are written at FQHEAD, which then rises by 32, where the ring has room; a record that memory refuses is held
(notes/assumptions/22.md). On a latency core the thread's frame, with an entry record of kind 1,
goes to SFRAME where it has no TFRAME, and the hardware thread is in supervisor mode, masked, at SVEC. A user trap with a
handler writes UCAUSE, UEPC and UDATA and goes to UTV; without one, or inside one, it is the fault of the same cause. -/
def Obligations.TakingAnException : Prop :=
  (∀ (s : State) (w : Who) (g : Group) (t : Thread) (cause : Word) (datum : DWord), isLatency w.slot = false →
    s.group? w.slot = some g → lookup w.lane g.members = some t →
    let s' := s.takeFault w cause datum t.pc false
    let d := dieOfSlot w.slot
    let r : FaultRec := ⟨s.agentOf w, cause, t.pc, datum, BitVec.ofNat 32 g.asid, t.cohort⟩
    s'.thread? w = some { t with run := .parked cause datum false } ∧
    (∀ l, l ≠ w.lane → s'.thread? ⟨w.slot, l⟩ = s.thread? ⟨w.slot, l⟩) ∧ (∀ k, k ≠ w.slot → s'.group? k = s.group? k) ∧
    ((s.die d).held ≠ [] ∨ s.faultRoom d = false → (s'.die d).held = (s.die d).held ++ [r] ∧ s'.mem = s.mem) ∧
    ((s.die d).held = [] → s.faultRoom d = true →
      (∀ s1, s.writePhys (recordPlace s d) (recordOf r) = .ok s1 →
        (s'.die d).held = [] ∧ s'.dreg d 0x020 = s.dreg d 0x020 + 32 ∧ s'.mem = s1.mem) ∧
      ∀ e, s.writePhys (recordPlace s d) (recordOf r) = .error e → (s'.die d).held = [r] ∧ s'.mem = s.mem)) ∧
  (∀ (s : State) (slot : Nat) (g gs : Group) (t : Thread) (cause : Word) (datum : DWord), isLatency slot = true →
    isSup slot = false → slotOf slot < 2 → s.group? slot = some g → lookup 0 g.members = some t →
    s.group? (supSlot slot) = some gs → (lookup 0 gs.members).isSome → KeysRise s.groups →
    let s' := s.takeFault ⟨slot, 0⟩ cause datum t.pc false
    (s'.hwThread slot).sup = true ∧ (s'.hwThread slot).masked = true ∧ s'.group? slot = none ∧
    (∃ x, s'.thread? ⟨supSlot slot, 0⟩ = some x ∧ x.pc = s.dreg (dieOfSlot slot) 0x0B8 ∧ x.run = .ready) ∧
    ∀ s1, s.tframe (dieOfSlot slot) g.asid t = 0 →
      s.writePhys (s.dreg (dieOfSlot slot) (0x100 + 8 * hwOnDie slot)).toNat
        (frameBytes t g.footprint g.asid t.pc 0 ⟨1, cause.toNat, datum, 1, 0⟩) = .ok s1 → s'.mem = s1.mem) ∧
  ∀ (s : State) (w : Who) (t : Thread) (cause : Nat) (datum epc : DWord), s.thread? w = some t →
    (t.utv ≠ 0 → t.inHandler = false → ∃ t', (s.takeTrap w cause datum epc).thread? w = some t' ∧
      t'.ucause = BitVec.ofNat 32 cause ∧ t'.uepc = epc ∧ t'.udata = datum ∧ t'.inHandler = true ∧ t'.utv = t.utv ∧
      WentTo w.slot t.utv t t' ∧ ∀ j < 0x1F8, holds t' j = holds t j) ∧
    (t.utv = 0 ∨ t.inHandler = true →
      s.takeTrap w cause datum epc = s.takeFault w (BitVec.ofNat 32 cause) datum t.pc false)

/-! ## The machine as a whole -/

/-- spec/03_state_formats_assembly.md R97 and spec/01_execution_model.md R33: a turn that issues a lane's subset, when it is that
subset's turn, runs the instruction that the word at its PC decodes to, as the issuing slot's mode has it (R350), with the issuer named, and
settles what it completed; a word that decodes to none takes cause 0x01 with its detail in every lane of the subset, and
one that cannot be fetched the fetch's cause (one whose page is in move, or whose peer is not up, waits); a fallow word waits for the thread's reads (R116). An event turn runs the event's
row for its subject, and a halt lets only the rows of R384 and R385 come about. What a turn's writes replaced is kept beside the state (notes/assumptions/79.md).
(The agenda by which turns come is the model's own choice, notes/assumptions/16.md; telemetry and halts, 65.md.) -/
def Obligations.StepRunsDecodedInstruction : Prop :=
  (∀ (s : State) (slot lane : Nat) (ts : List Turn) (g : Group) (t : Thread),
    let lanes := g.activeAt t.pc
    let sT : State := { s with turnNo := s.turnNo + 1, agenda := ts, writer := everyone }
    let s0 := sT.tookTurn slot lanes.head?
    s.agenda = .issue slot lane :: ts → s.group? slot = some g → lookup lane g.members = some t →
    sT.mayIssue slot g = true → t.canIssue = true → (isLatency slot = true → s.readsOut ⟨slot, lane⟩ = false) →
    sT.itsTurn slot g lanes.head? = true → (s0.boundary slot g lanes).1 = false →
    (∀ w sF, s0.fetch slot g.asid (isSup slot) t.pc = .ok (w, sF) →
      (∀ d, decode w = .ok d → isFallow w = false ∨ (∀ l ∈ lanes, s.readsOut ⟨slot, l⟩ = false) →
        let i := (forMode (isSup slot) d).i
        let s1 : State := { sF with issuer := some ⟨slot, isSup slot, t.pc, w, d.g⟩, writer := slot }
        (i = if isSup slot = true ∧ d.i = .eret then .eretSupervisor else d.i) ∧
        ∀ s2, exec i s1 = .next s2 → step s = .next (s.remember (s1.settle s2 i slot))) ∧
      (∀ e, decode w = .error e → step s = .next (s.remember (sF.faultLanes slot lanes 1 e.code w t.pc).settleAll)) ∧
      (isFallow w = true → (∃ l ∈ lanes, s.readsOut ⟨slot, l⟩ = true) → step s = .next (s.remember sF))) ∧
    ∀ c, s0.fetch slot g.asid (isSup slot) t.pc = .error c →
      (c = 0 → step s = .next (s.remember s0)) ∧
      (c ≠ 0 → ∃ x, step s = .next (s.remember (s0.faultLanes slot lanes c 0 x t.pc).settleAll) ∧
        (c ≠ 6 → x = t.pc))) ∧
  ∀ (s s1 : State) (i : Instr) (sub : Subject) (ts : List Turn), s.agenda = .event i sub :: ts → isEvent i = true →
    subjectOk sub = true →
    (s.comes i = false → step s = .next { s with turnNo := s.turnNo + 1, agenda := ts, writer := everyone }) ∧
    (s.comes i = true →
    exec i { s with turnNo := s.turnNo + 1, agenda := ts, writer := everyone, subject := sub, issuer := none } = .next s1 →
    step s = .next (s.remember s1.settleAll))

/-- spec/00_scope.md and spec/01_execution_model.md R33: no state stops the package: every step answers a next state, whatever its turn is. -/
def Obligations.EveryStepAnswers : Prop := ∀ s : State, ∃ s', step s = .next s'

/-- spec/18_host_rom_boot.md R323, R332, spec/22_fleet_operations.md R391 and spec/20_fabric_memory_bringup.md R373: the package right after reset: state ROM,
every vector masked, the mailbox empty, a cap of 2,500 W, no group, request or cohort, no core released, and the memory
of both L-dies, and of no stack, ready. Memory reads zero there by the model's choice (notes/assumptions/4.md). -/
def Obligations.ResetState : Prop :=
  let s := State.reset
  s.ctrl.pkstate = 0 ∧ s.ctrl.intmask = 0xF ∧ s.ctrl.mbstat = 0 ∧ s.ctrl.cmd = none ∧ s.ctrl.cap = 2500 ∧
  s.groups = [] ∧ s.reqs = [] ∧ s.cohorts = [] ∧ (∀ k, (s.hwThread k).released = false) ∧
  (∀ u < 18, (s.breg u 0x008).getLsbD 0 = decide (16 ≤ u)) ∧ ∀ a, memByte s.mem a = 0

/-- What the model keeps of its own data: every byte memory is in canonical form, and no slot, lane, space or frame stands twice. -/
structure Sys2Proof.Claims.Sound (s : State) : Prop where
  mem : Memory.wf s.mem = true
  host : Memory.wf s.hostMem = true
  spad : ∀ x ∈ s.spad, Memory.wf x.2 = true
  peer : ∀ x ∈ s.peers, Memory.wf x.2 = true
  cmdbuf : Memory.wf s.ctrl.cmdbuf = true
  rspbuf : Memory.wf s.ctrl.rspbuf = true
  msix : Memory.wf s.ctrl.msix = true
  groups : KeysRise s.groups
  members : ∀ x ∈ s.groups, KeysRise x.2.members
  switched : ∀ x ∈ s.dies, KeysRise x.2.switched

/-- The canonical form of memories and the order of groups, members and kept frames hold at reset. -/
def Obligations.ResetIsSound : Prop := Sound State.reset

/-- The canonical form of every memory, and the order of groups, of their members and of what frames do not hold, that other statements take as
premises: every step keeps them, from every state that has them. -/
def Obligations.StepKeepsSound : Prop := ∀ s s' : State, Sound s → step s = .next s' → Sound s'

/-! ## Words -/

/-- spec/03_state_formats_assembly.md R97 to R105, spec/04_opcode_map.md R114 to R120: the encoder and the decoder agree on every
instruction word: a well-formed instruction's word decodes to it with its guard, its keep field and every operand, and a
word that decodes to an instruction is that instruction's and is well formed. (ERET_SUPERVISOR is ERET's word in supervisor
mode, and the fallow and illegal rows have no word of their own.) -/
def Obligations.EncodingRoundTrip : Prop :=
  (∀ (x : Decoded) (w : DWord), WellFormed x → x.i ≠ .eretSupervisor → encode x = some w → decode w = .ok x) ∧
  ∀ (x : Decoded) (w : DWord), decode w = .ok x → x.i ≠ .fallowInstruction → x.i ≠ .illegalMajor →
    encode x = some w ∧ WellFormed x

/-- spec/04_opcode_map.md, the table of R97, R116, R121, R122, and the example words of spec/03, 05, 06, 07, 08, 09 and 15: words
that the spec writes out bit by bit, with what they decode to, at least one of each format, and the checks they fail. -/
def Obligations.WordsOfTheSpec : Prop :=
  let g0 : Guard := ⟨false, 0⟩
  let a : FmtA := ⟨false, false, false, 0, 0, 0, 0, 0, 0⟩
  let is (w : DWord) (i : Instr) : Prop := decode w = .ok ⟨g0, 0, i⟩
  is 0x0000000000000015 .nop ∧ is 0x0002000000000013 .exit ∧ is 0x000000000C007810 (.call ⟨30, 12⟩) ∧
  is 0x0000000200000016 (.live 0x200) ∧ decode 0xFFFFFFFFFD000290 = .ok ⟨⟨true, 2⟩, 0, .bra (-3)⟩ ∧
  is 0x0000000020081401 (.add { a with d := 5, a := 1, b := 2 }) ∧
  is 0x3F80000010002402 (.movi ⟨9, 0, 0x3F800000⟩) ∧
  is 0x040300E040181C08 (.ffma { a with mode := 1, d := 7, a := 3, b := 4, c := 7 }) ∧
  is 0xFFFFFE0100100C18 (.ld ⟨3, 2, false, 0, true, 0, 0, 0, -1⟩) ∧
  is 0x00602A666040101A (.acas ⟨4, 8, false, 3, false, 3, 4, 10, 12⟩) ∧
  is 0x2C40050200F00820 (.mmab4 ⟨2, 30, 32, 40, 0xB1⟩) ∧ is 0x1008001000001015 (.csrr ⟨false, true, 0x100, 4, 0⟩) ∧
  is 0 .illegalMajor ∧ is 0x225 .fallowInstruction ∧ decode 0x00290000000002C1 = .error .undefined ∧
  decode 0x1800000000000008 = .error .undefined ∧ decode 0x0000000100000019 = .error .reservedField
end

