-- ==== Sys2Proof/Laws/Encoding.lean ====
section
/-! SUPPORT. Each format's fields read back from its word, and the guard, keep field and major of every packed word: what a
proof about the decoder and the encoder cites instead of the words' bits. -/

namespace Sys2Proof.Laws

/-! ## Fields of a concatenation -/

theorem field_low {n m : Nat} (x : BitVec n) (y : BitVec m) (lo k : Nat) (h : lo + k ≤ m) :
    (x ++ y).extractLsb' lo k = y.extractLsb' lo k := by
  ext i hi
  simp only [BitVec.getElem_extractLsb', BitVec.getLsbD_append]
  rw [if_pos (by omega)]

theorem field_high {n m : Nat} (x : BitVec n) (y : BitVec m) (lo k : Nat) (h : m ≤ lo) :
    (x ++ y).extractLsb' lo k = x.extractLsb' (lo - m) k := by
  ext i hi
  simp only [BitVec.getElem_extractLsb', BitVec.getLsbD_append]
  rw [if_neg (by omega)]
  congr 1; omega

theorem bit_low {n m : Nat} (x : BitVec n) (y : BitVec m) (k : Nat) (h : k < m) :
    (x ++ y).getLsbD k = y.getLsbD k := by
  rw [BitVec.getLsbD_append, if_pos h]

theorem bit_high {n m : Nat} (x : BitVec n) (y : BitVec m) (k : Nat) (h : m ≤ k) :
    (x ++ y).getLsbD k = x.getLsbD (k - m) := by
  rw [BitVec.getLsbD_append, if_neg (by omega)]

theorem bit_ofBool (b : Bool) : (BitVec.ofBool b).getLsbD 0 = b := by cases b <;> rfl

theorem field_whole {n : Nat} (x : BitVec n) : x.extractLsb' 0 n = x := by simp

theorem neg_packG (g : Guard) : (packG g).getLsbD 3 = g.neg := by
  simp (disch := omega) only [packG, bit_high, bit_ofBool, Nat.reduceSub]

theorem idx_packG (g : Guard) : (packG g).extractLsb' 0 3 = g.idx := by
  simp (disch := omega) only [packG, field_low, field_whole]

/-! ## The guard, the major, the code and the fields of each format -/

theorem guardOf_packA (g k maj fn f) : guardOf (packA g k maj fn f) = g := by
  simp (disch := omega) only [bitsOf, guardOf, packA, field_low, field_high, field_whole, bit_low, bit_high, bit_ofBool,
    Nat.reduceSub, neg_packG, idx_packG]

theorem majorOf_packA (g k maj fn f) : majorOf (packA g k maj fn f) = maj.toNat := by
  simp (disch := omega) only [bitsOf, majorOf, packA, field_low, field_high, field_whole, bit_low, bit_high, bit_ofBool,
    Nat.reduceSub, neg_packG, idx_packG]

theorem guardOf_packI (g maj fn f) : guardOf (packI g maj fn f) = g := by
  simp (disch := omega) only [bitsOf, guardOf, packI, field_low, field_high, field_whole, bit_low, bit_high, bit_ofBool,
    Nat.reduceSub, neg_packG, idx_packG]

theorem majorOf_packI (g maj fn f) : majorOf (packI g maj fn f) = maj.toNat := by
  simp (disch := omega) only [bitsOf, majorOf, packI, field_low, field_high, field_whole, bit_low, bit_high, bit_ofBool,
    Nat.reduceSub, neg_packG, idx_packG]

theorem guardOf_packB (g link off) : guardOf (packB g link off) = g := by
  simp (disch := omega) only [bitsOf, guardOf, packB, field_low, field_high, field_whole, bit_low, bit_high, bit_ofBool,
    Nat.reduceSub, neg_packG, idx_packG]

theorem majorOf_packB (g link off) : majorOf (packB g link off) = 0x10 := by
  simp (disch := omega) only [bitsOf, majorOf, packB, field_low, field_high, field_whole, bit_low, bit_high, bit_ofBool,
    Nat.reduceSub, neg_packG, idx_packG]
  rfl

theorem guardOf_packM (g maj f) : guardOf (packM g maj f) = g := by
  simp (disch := omega) only [bitsOf, guardOf, packM, field_low, field_high, field_whole, bit_low, bit_high, bit_ofBool,
    Nat.reduceSub, neg_packG, idx_packG]

theorem majorOf_packM (g maj f) : majorOf (packM g maj f) = maj.toNat := by
  simp (disch := omega) only [bitsOf, majorOf, packM, field_low, field_high, field_whole, bit_low, bit_high, bit_ofBool,
    Nat.reduceSub, neg_packG, idx_packG]

theorem guardOf_packN (g maj aop f) : guardOf (packN g maj aop f) = g := by
  simp (disch := omega) only [bitsOf, guardOf, packN, field_low, field_high, field_whole, bit_low, bit_high, bit_ofBool,
    Nat.reduceSub, neg_packG, idx_packG]

theorem majorOf_packN (g maj aop f) : majorOf (packN g maj aop f) = maj.toNat := by
  simp (disch := omega) only [bitsOf, majorOf, packN, field_low, field_high, field_whole, bit_low, bit_high, bit_ofBool,
    Nat.reduceSub, neg_packG, idx_packG]

theorem guardOf_packX (g maj fn f) : guardOf (packX g maj fn f) = g := by
  simp (disch := omega) only [bitsOf, guardOf, packX, field_low, field_high, field_whole, bit_low, bit_high, bit_ofBool,
    Nat.reduceSub, neg_packG, idx_packG]

theorem majorOf_packX (g maj fn f) : majorOf (packX g maj fn f) = maj.toNat := by
  simp (disch := omega) only [bitsOf, majorOf, packX, field_low, field_high, field_whole, bit_low, bit_high, bit_ofBool,
    Nat.reduceSub, neg_packG, idx_packG]

theorem guardOf_packL (g off) : guardOf (packL g off) = g := by
  simp (disch := omega) only [bitsOf, guardOf, packL, field_low, field_high, field_whole, bit_low, bit_high, bit_ofBool,
    Nat.reduceSub, neg_packG, idx_packG]

theorem majorOf_packL (g off) : majorOf (packL g off) = 0x16 := by
  simp (disch := omega) only [bitsOf, majorOf, packL, field_low, field_high, field_whole, bit_low, bit_high, bit_ofBool,
    Nat.reduceSub, neg_packG, idx_packG]
  rfl

theorem guardOf_packC (g maj fn f) : guardOf (packC g maj fn f) = g := by
  simp (disch := omega) only [bitsOf, guardOf, packC, field_low, field_high, field_whole, bit_low, bit_high, bit_ofBool,
    Nat.reduceSub, neg_packG, idx_packG]

theorem majorOf_packC (g maj fn f) : majorOf (packC g maj fn f) = maj.toNat := by
  simp (disch := omega) only [bitsOf, majorOf, packC, field_low, field_high, field_whole, bit_low, bit_high, bit_ofBool,
    Nat.reduceSub, neg_packG, idx_packG]

theorem keep_packA (g k maj fn f) : bitsOf (packA g k maj fn f) 46 2 = k := by
  simp (disch := omega) only [bitsOf, packA, field_low, field_high, field_whole, bit_low, bit_high, bit_ofBool,
    Nat.reduceSub, neg_packG, idx_packG]

theorem code_packA (g k maj fn f) : bitsOf (packA g k maj fn f) 48 6 = BitVec.ofNat 6 fn := by
  simp (disch := omega) only [bitsOf, packA, field_low, field_high, field_whole, bit_low, bit_high, bit_ofBool,
    Nat.reduceSub, neg_packG, idx_packG]

theorem code_packI (g maj fn f) : bitsOf (packI g maj fn f) 28 4 = BitVec.ofNat 4 fn := by
  simp (disch := omega) only [bitsOf, packI, field_low, field_high, field_whole, bit_low, bit_high, bit_ofBool,
    Nat.reduceSub, neg_packG, idx_packG]

theorem code_packN (g maj aop f) : bitsOf (packN g maj aop f) 38 4 = BitVec.ofNat 4 aop := by
  simp (disch := omega) only [bitsOf, packN, field_low, field_high, field_whole, bit_low, bit_high, bit_ofBool,
    Nat.reduceSub, neg_packG, idx_packG]

theorem code_packX (g maj fn f) : bitsOf (packX g maj fn f) 46 8 = BitVec.ofNat 8 fn := by
  simp (disch := omega) only [bitsOf, packX, field_low, field_high, field_whole, bit_low, bit_high, bit_ofBool,
    Nat.reduceSub, neg_packG, idx_packG]

theorem code_packC (g maj fn f) : bitsOf (packC g maj fn f) 48 10 = BitVec.ofNat 10 fn := by
  simp (disch := omega) only [bitsOf, packC, field_low, field_high, field_whole, bit_low, bit_high, bit_ofBool,
    Nat.reduceSub, neg_packG, idx_packG]

theorem unpackA_packA (g k maj fn f) : unpackA (packA g k maj fn f) = f := by
  simp (disch := omega) only [bitsOf, unpackA, packA, field_low, field_high, field_whole, bit_low, bit_high, bit_ofBool,
    Nat.reduceSub, neg_packG, idx_packG]

theorem unpackI_packI (g maj fn f) : unpackI (packI g maj fn f) = f := by
  simp (disch := omega) only [bitsOf, unpackI, packI, field_low, field_high, field_whole, bit_low, bit_high, bit_ofBool,
    Nat.reduceSub, neg_packG, idx_packG]

theorem unpackM_packM (g maj f) : unpackM (packM g maj f) = f := by
  simp (disch := omega) only [bitsOf, unpackM, packM, field_low, field_high, field_whole, bit_low, bit_high, bit_ofBool,
    Nat.reduceSub, neg_packG, idx_packG]

theorem unpackN_packN (g maj aop f) : unpackN (packN g maj aop f) = f := by
  simp (disch := omega) only [bitsOf, unpackN, packN, field_low, field_high, field_whole, bit_low, bit_high, bit_ofBool,
    Nat.reduceSub, neg_packG, idx_packG]

theorem unpackX_packX (g maj fn f) : unpackX (packX g maj fn f) = f := by
  simp (disch := omega) only [bitsOf, unpackX, packX, field_low, field_high, field_whole, bit_low, bit_high, bit_ofBool,
    Nat.reduceSub, neg_packG, idx_packG]

theorem unpackC_packC (g maj fn f) : unpackC (packC g maj fn f) = f := by
  simp (disch := omega) only [bitsOf, unpackC, packC, field_low, field_high, field_whole, bit_low, bit_high, bit_ofBool,
    Nat.reduceSub, neg_packG, idx_packG]

theorem unpackB_packB (g : Guard) (f : FmtB) : unpackB (packB g f.link f.off) = f := by
  simp (disch := omega) only [bitsOf, unpackB, packB, field_low, field_high, field_whole, bit_low, bit_high, bit_ofBool,
    Nat.reduceSub, neg_packG, idx_packG]

theorem offset_packL (g off) : bitsOf (packL g off) 24 40 = off := by
  simp (disch := omega) only [bitsOf, packL, field_low, field_high, field_whole, bit_low, bit_high, bit_ofBool,
    Nat.reduceSub, neg_packG, idx_packG]

end Sys2Proof.Laws
end

