-- ==== Sys2Proof/Laws/Maps.lean ====
section
/-! SUPPORT. Reads after writes of maps and of byte memory, and the canonical form that every memory operation keeps. -/

namespace Sys2Proof.Machine

variable {α : Type}

/-! ## Maps -/

@[simp] theorem lookup_put_self (k : Nat) (a : α) (m : Map α) : lookup k (put k a m) = some a := by
  induction m with
  | nil => simp [put, lookup]
  | cons x m ih =>
    obtain ⟨j, b⟩ := x
    simp only [put]
    split
    · simp [lookup]
    · split
      · simp [lookup]
      · rename_i h1 h2
        simp only [beq_iff_eq] at h2
        simp [lookup, h2, h1, ih]

theorem lookup_put_ne {j k : Nat} (h : j ≠ k) (a : α) (m : Map α) : lookup j (put k a m) = lookup j m := by
  induction m with
  | nil => simp [put, lookup, Ne.symm h]
  | cons x m ih =>
    obtain ⟨i, b⟩ := x
    by_cases h1 : k < i
    · by_cases h2 : j < k
      · simp [put, lookup, h1, Ne.symm h, h2, show ¬ i = j by omega, show j < i by omega]
      · simp [put, lookup, h1, Ne.symm h, h2]
    · by_cases h2 : i = k
      · subst h2
        simp [put, lookup, Ne.symm h]
      · simp [put, lookup, h1, h2, ih]

theorem lookup_put (j k : Nat) (a : α) (m : Map α) :
    lookup j (put k a m) = if j = k then some a else lookup j m := by
  split
  · subst j; simp
  · exact lookup_put_ne ‹_› a m

theorem get_put (m : Map α) (j k : Nat) (a d : α) : get (put k a m) j d = if j = k then a else get m j d := by
  simp only [get, lookup_put]; split <;> simp

/-- A key below every key of a map is not in it. -/
theorem lookup_below {k : Nat} : ∀ {m : Map α}, (∀ x ∈ m, k < x.1) → lookup k m = none
  | [], _ => rfl
  | (j, b) :: m, h => by
    have h1 : k < j := h (j, b) (by simp)
    simp [lookup, h1, Nat.ne_of_gt h1]

/-- Keys strictly rising. -/
def Rising (m : Map α) : Prop := m.Pairwise fun a b => a.1 < b.1

theorem lookup_del {m : Map α} (hm : Rising m) (j k : Nat) :
    lookup j (del k m) = if j = k then none else lookup j m := by
  induction m with
  | nil => simp [del, lookup]
  | cons x m ih =>
    obtain ⟨i, b⟩ := x
    obtain ⟨h1, h2⟩ := List.pairwise_cons.1 hm
    simp only [del, beq_iff_eq]
    by_cases hik : i = k
    · subst hik
      by_cases hj : j = i
      · subst hj
        simp only [if_true]
        exact lookup_below fun x hx => h1 x hx
      · simp only [if_true, hj, if_false, lookup, beq_iff_eq, Ne.symm hj]
        split
        · exact lookup_below fun x hx => Nat.lt_trans ‹_› (h1 x hx)
        · rfl
    · by_cases hlt : k < i
      · simp only [hik, hlt, if_true, if_false]
        split
        · subst j
          exact lookup_below (by
            intro x hx
            rcases List.mem_cons.1 hx with rfl | hx
            · exact hlt
            · exact Nat.lt_trans hlt (h1 x hx))
        · rfl
      · simp only [hik, hlt, if_false, lookup, beq_iff_eq, ih h2]
        by_cases hj : j = k
        · subst hj
          simp [hik, hlt]
        · simp [hj]

/-! ## Byte memory -/

theorem wfFrom_cons {lo a : Nat} {b : Byte} {m : Memory} :
    Memory.wfFrom lo ((a, b) :: m) = true ↔ lo ≤ a ∧ b ≠ 0 ∧ Memory.wfFrom (a + 1) m = true := by
  simp [Memory.wfFrom, and_assoc]

theorem wfFrom_mono {lo lo' : Nat} (h : lo ≤ lo') : ∀ {m : Memory}, Memory.wfFrom lo' m = true → Memory.wfFrom lo m = true
  | [], _ => rfl
  | (a, b) :: m, hm => by
    simp only [Memory.wfFrom, Bool.and_eq_true, decide_eq_true_eq] at hm ⊢
    exact ⟨⟨Nat.le_trans h hm.1.1, hm.1.2⟩, hm.2⟩

theorem wfFrom_put {lo a : Nat} {b : Byte} (ha : lo ≤ a) (hb : b ≠ 0) :
    ∀ {m : Memory}, Memory.wfFrom lo m = true → Memory.wfFrom lo (put a b m) = true
  | [], _ => wfFrom_cons.2 ⟨ha, hb, rfl⟩
  | (j, c) :: m, hm => by
    obtain ⟨h1, h2, h3⟩ := wfFrom_cons.1 hm
    simp only [put, beq_iff_eq]
    split
    · exact wfFrom_cons.2 ⟨ha, hb, wfFrom_cons.2 ⟨by omega, h2, h3⟩⟩
    · split
      · subst j; exact wfFrom_cons.2 ⟨ha, hb, h3⟩
      · rename_i h4 h5
        exact wfFrom_cons.2 ⟨h1, h2, wfFrom_put (lo := j + 1) (by omega) hb h3⟩

theorem wfFrom_del {lo a : Nat} : ∀ {m : Memory}, Memory.wfFrom lo m = true → Memory.wfFrom lo (del a m) = true
  | [], _ => rfl
  | (j, c) :: m, hm => by
    obtain ⟨h1, h2, h3⟩ := wfFrom_cons.1 hm
    simp only [del, beq_iff_eq]
    split
    · exact wfFrom_mono (by omega) h3
    · split
      · exact hm
      · exact wfFrom_cons.2 ⟨h1, h2, wfFrom_del (lo := j + 1) h3⟩

/-- One byte written keeps the canonical form. -/
theorem memPut_wf {m : Memory} (h : Memory.wf m = true) (a : Nat) (b : Byte) : Memory.wf (memPut m a b) = true := by
  unfold memPut
  split
  · exact wfFrom_del h
  · rename_i hb
    exact wfFrom_put (Nat.zero_le _) (by simpa using hb) h

/-- Bytes written keep the canonical form. -/
theorem memWrite_wf {m : Memory} (h : Memory.wf m = true) (a : Nat) (bs : List Byte) :
    Memory.wf (memWrite m a bs) = true := by
  induction bs generalizing m a with
  | nil => exact h
  | cons b bs ih => exact ih (memPut_wf h a b) (a + 1)

/-- Cells written keep the canonical form. -/
theorem memCells_wf {m : Memory} (h : Memory.wf m = true) (cs : Memory) : Memory.wf (memCells m cs) = true := by
  induction cs generalizing m with
  | nil => exact h
  | cons c cs ih => exact ih (memPut_wf h c.1 c.2)

theorem rising_of_wfFrom {lo : Nat} : ∀ {m : Memory}, Memory.wfFrom lo m = true → (∀ x ∈ m, lo ≤ x.1) ∧ Rising m
  | [], _ => ⟨by simp, List.Pairwise.nil⟩
  | (j, c) :: m, hm => by
    simp only [Memory.wfFrom, Bool.and_eq_true, decide_eq_true_eq] at hm
    obtain ⟨h1, h2⟩ := rising_of_wfFrom (lo := j + 1) hm.2
    refine ⟨fun x hx => ?_, List.pairwise_cons.2 ⟨fun x hx => h1 x hx, h2⟩⟩
    rcases List.mem_cons.1 hx with rfl | hx
    · exact hm.1.1
    · exact Nat.le_of_succ_le (Nat.le_trans (Nat.succ_le_succ hm.1.1) (h1 x hx))

/-- A byte read after a byte is written. -/
theorem memByte_memPut {m : Memory} (h : Memory.wf m = true) (j a : Nat) (b : Byte) :
    memByte (memPut m a b) j = if j = a then b else memByte m j := by
  simp only [memByte, get, memPut]
  split
  · rename_i hb
    rw [lookup_del (rising_of_wfFrom h).2]
    split
    · exact (by simpa using hb : b = 0).symm
    · rfl
  · rw [lookup_put]; split <;> simp

/-- A byte read after bytes are written from another address on. -/
theorem memByte_memWrite {m : Memory} (h : Memory.wf m = true) (j a : Nat) (bs : List Byte) :
    memByte (memWrite m a bs) j = if h : a ≤ j ∧ j < a + bs.length then bs[j - a]'(by omega) else memByte m j := by
  induction bs generalizing m a with
  | nil => simp [memWrite, show ¬ (a ≤ j ∧ j < a) by omega]
  | cons b bs ih =>
    rw [memWrite, ih (memPut_wf h a b), memByte_memPut h]
    by_cases h1 : j = a
    · subst h1; simp [show ¬ (j + 1 ≤ j) by omega]
    · by_cases h2 : a + 1 ≤ j ∧ j < a + 1 + bs.length
      · obtain ⟨k, rfl⟩ : ∃ k, j = a + 1 + k := ⟨j - (a + 1), by omega⟩
        simp [show a + 1 + k - a = k + 1 by omega, show a + 1 + k < a + (bs.length + 1) by omega,
          show k < bs.length by omega, show a ≤ a + 1 + k by omega]
      · rw [dif_neg h2, if_neg h1, dif_neg (by simp only [List.length_cons]; omega)]

/-- Memories in canonical form that read the same are the same data. -/
theorem mem_ext {m n : Memory} (hm : Memory.wf m = true) (hn : Memory.wf n = true)
    (h : ∀ a, memByte m a = memByte n a) : m = n := by
  suffices H : ∀ (lo : Nat) (m n : Memory), Memory.wfFrom lo m = true → Memory.wfFrom lo n = true →
      (∀ a, memByte m a = memByte n a) → m = n from H 0 m n hm hn h
  intro lo m
  induction m generalizing lo with
  | nil =>
    intro n _ hn h
    cases n with
    | nil => rfl
    | cons y n =>
      simp only [Memory.wfFrom, Bool.and_eq_true, bne_iff_ne] at hn
      have := h y.1
      simp [memByte, get, lookup] at this
      exact absurd this.symm hn.1.2
  | cons x m ih =>
    intro n hm hn h
    cases n with
    | nil =>
      simp only [Memory.wfFrom, Bool.and_eq_true, bne_iff_ne] at hm
      have := h x.1
      simp [memByte, get, lookup] at this
      exact absurd this hm.1.2
    | cons y n =>
      obtain ⟨i, a⟩ := x
      obtain ⟨j, b⟩ := y
      simp only [Memory.wfFrom, Bool.and_eq_true, decide_eq_true_eq, bne_iff_ne] at hm hn
      have hij : i = j := by
        rcases Nat.lt_trichotomy i j with hlt | heq | hgt
        · have := h i
          simp [memByte, get, lookup, hlt, Nat.ne_of_gt hlt] at this
          exact absurd this hm.1.2
        · exact heq
        · have := h j
          simp [memByte, get, lookup, hgt, Nat.ne_of_gt hgt] at this
          exact absurd this.symm hn.1.2
      subst hij
      have hab : a = b := by simpa [memByte, get, lookup] using h i
      subst hab
      congr 1
      refine ih (i + 1) n hm.2 hn.2 fun k => ?_
      have := h k
      by_cases hk : k = i
      · subst hk
        have h1 := (rising_of_wfFrom hm.2).1
        have h2 := (rising_of_wfFrom hn.2).1
        simp [memByte, get, lookup_below (m := m) (k := k) (fun x hx => h1 x hx), lookup_below (m := n) (k := k) (fun x hx => h2 x hx)]
      · by_cases hlt : k < i
        · have h1 := (rising_of_wfFrom hm.2).1
          have h2 := (rising_of_wfFrom hn.2).1
          simp [memByte, get, lookup_below (m := m) (k := k) (fun x hx => Nat.lt_trans hlt (h1 x hx)), lookup_below (m := n) (k := k) (fun x hx => Nat.lt_trans hlt (h2 x hx))]
        · simpa [memByte, get, lookup, Ne.symm hk, hlt] using this

end Sys2Proof.Machine
end

