-- ==== Sys2Proof/Laws/State.lean ====
section
/-! SUPPORT. What each update of the state leaves in each field: one lemma per field per update, so that no proof
unfolds a record update; and reads after writes of the state's parts. -/

namespace Sys2Proof.Machine

variable (s : State)


/-! ## State.setCore -/

@[simp] theorem State.setCore_agenda (c : Nat) (x : Core) : (s.setCore c x).agenda = s.agenda := rfl
@[simp] theorem State.setCore_issuer (c : Nat) (x : Core) : (s.setCore c x).issuer = s.issuer := rfl
@[simp] theorem State.setCore_subject (c : Nat) (x : Core) : (s.setCore c x).subject = s.subject := rfl
@[simp] theorem State.setCore_turnNo (c : Nat) (x : Core) : (s.setCore c x).turnNo = s.turnNo := rfl
@[simp] theorem State.setCore_freeNo (c : Nat) (x : Core) : (s.setCore c x).freeNo = s.freeNo := rfl
@[simp] theorem State.setCore_reqNo (c : Nat) (x : Core) : (s.setCore c x).reqNo = s.reqNo := rfl
@[simp] theorem State.setCore_mem (c : Nat) (x : Core) : (s.setCore c x).mem = s.mem := rfl
@[simp] theorem State.setCore_hostMem (c : Nat) (x : Core) : (s.setCore c x).hostMem = s.hostMem := rfl
@[simp] theorem State.setCore_peers (c : Nat) (x : Core) : (s.setCore c x).peers = s.peers := rfl
@[simp] theorem State.setCore_spad (c : Nat) (x : Core) : (s.setCore c x).spad = s.spad := rfl
@[simp] theorem State.setCore_groups (c : Nat) (x : Core) : (s.setCore c x).groups = s.groups := rfl
@[simp] theorem State.setCore_hw (c : Nat) (x : Core) : (s.setCore c x).hw = s.hw := rfl
@[simp] theorem State.setCore_cores (c : Nat) (x : Core) : (s.setCore c x).cores = put c x s.cores := rfl
@[simp] theorem State.setCore_dies (c : Nat) (x : Core) : (s.setCore c x).dies = s.dies := rfl
@[simp] theorem State.setCore_blocks (c : Nat) (x : Core) : (s.setCore c x).blocks = s.blocks := rfl
@[simp] theorem State.setCore_cohorts (c : Nat) (x : Core) : (s.setCore c x).cohorts = s.cohorts := rfl
@[simp] theorem State.setCore_reqs (c : Nat) (x : Core) : (s.setCore c x).reqs = s.reqs := rfl
@[simp] theorem State.setCore_unsaved (c : Nat) (x : Core) : (s.setCore c x).unsaved = s.unsaved := rfl
@[simp] theorem State.setCore_asides (c : Nat) (x : Core) : (s.setCore c x).asides = s.asides := rfl
@[simp] theorem State.setCore_lives (c : Nat) (x : Core) : (s.setCore c x).lives = s.lives := rfl
@[simp] theorem State.setCore_homes (c : Nat) (x : Core) : (s.setCore c x).homes = s.homes := rfl
@[simp] theorem State.setCore_pace (c : Nat) (x : Core) : (s.setCore c x).pace = s.pace := rfl
@[simp] theorem State.setCore_past (c : Nat) (x : Core) : (s.setCore c x).past = s.past := rfl
@[simp] theorem State.setCore_guards (c : Nat) (x : Core) : (s.setCore c x).guards = s.guards := rfl
@[simp] theorem State.setCore_writer (c : Nat) (x : Core) : (s.setCore c x).writer = s.writer := rfl
@[simp] theorem State.setCore_ctrl (c : Nat) (x : Core) : (s.setCore c x).ctrl = s.ctrl := rfl

/-! ## State.setDie -/

@[simp] theorem State.setDie_agenda (d : Nat) (x : Die) : (s.setDie d x).agenda = s.agenda := rfl
@[simp] theorem State.setDie_issuer (d : Nat) (x : Die) : (s.setDie d x).issuer = s.issuer := rfl
@[simp] theorem State.setDie_subject (d : Nat) (x : Die) : (s.setDie d x).subject = s.subject := rfl
@[simp] theorem State.setDie_turnNo (d : Nat) (x : Die) : (s.setDie d x).turnNo = s.turnNo := rfl
@[simp] theorem State.setDie_freeNo (d : Nat) (x : Die) : (s.setDie d x).freeNo = s.freeNo := rfl
@[simp] theorem State.setDie_reqNo (d : Nat) (x : Die) : (s.setDie d x).reqNo = s.reqNo := rfl
@[simp] theorem State.setDie_mem (d : Nat) (x : Die) : (s.setDie d x).mem = s.mem := rfl
@[simp] theorem State.setDie_hostMem (d : Nat) (x : Die) : (s.setDie d x).hostMem = s.hostMem := rfl
@[simp] theorem State.setDie_peers (d : Nat) (x : Die) : (s.setDie d x).peers = s.peers := rfl
@[simp] theorem State.setDie_spad (d : Nat) (x : Die) : (s.setDie d x).spad = s.spad := rfl
@[simp] theorem State.setDie_groups (d : Nat) (x : Die) : (s.setDie d x).groups = s.groups := rfl
@[simp] theorem State.setDie_hw (d : Nat) (x : Die) : (s.setDie d x).hw = s.hw := rfl
@[simp] theorem State.setDie_cores (d : Nat) (x : Die) : (s.setDie d x).cores = s.cores := rfl
@[simp] theorem State.setDie_dies (d : Nat) (x : Die) : (s.setDie d x).dies = put d x s.dies := rfl
@[simp] theorem State.setDie_blocks (d : Nat) (x : Die) : (s.setDie d x).blocks = s.blocks := rfl
@[simp] theorem State.setDie_cohorts (d : Nat) (x : Die) : (s.setDie d x).cohorts = s.cohorts := rfl
@[simp] theorem State.setDie_reqs (d : Nat) (x : Die) : (s.setDie d x).reqs = s.reqs := rfl
@[simp] theorem State.setDie_unsaved (d : Nat) (x : Die) : (s.setDie d x).unsaved = s.unsaved := rfl
@[simp] theorem State.setDie_asides (d : Nat) (x : Die) : (s.setDie d x).asides = s.asides := rfl
@[simp] theorem State.setDie_lives (d : Nat) (x : Die) : (s.setDie d x).lives = s.lives := rfl
@[simp] theorem State.setDie_homes (d : Nat) (x : Die) : (s.setDie d x).homes = s.homes := rfl
@[simp] theorem State.setDie_pace (d : Nat) (x : Die) : (s.setDie d x).pace = s.pace := rfl
@[simp] theorem State.setDie_past (d : Nat) (x : Die) : (s.setDie d x).past = s.past := rfl
@[simp] theorem State.setDie_guards (d : Nat) (x : Die) : (s.setDie d x).guards = s.guards := rfl
@[simp] theorem State.setDie_writer (d : Nat) (x : Die) : (s.setDie d x).writer = s.writer := rfl
@[simp] theorem State.setDie_ctrl (d : Nat) (x : Die) : (s.setDie d x).ctrl = s.ctrl := rfl

/-! ## State.setGroup -/

@[simp] theorem State.setGroup_agenda (k : Nat) (g : Group) : (s.setGroup k g).agenda = s.agenda := rfl
@[simp] theorem State.setGroup_issuer (k : Nat) (g : Group) : (s.setGroup k g).issuer = s.issuer := rfl
@[simp] theorem State.setGroup_subject (k : Nat) (g : Group) : (s.setGroup k g).subject = s.subject := rfl
@[simp] theorem State.setGroup_turnNo (k : Nat) (g : Group) : (s.setGroup k g).turnNo = s.turnNo := rfl
@[simp] theorem State.setGroup_freeNo (k : Nat) (g : Group) : (s.setGroup k g).freeNo = s.freeNo := rfl
@[simp] theorem State.setGroup_reqNo (k : Nat) (g : Group) : (s.setGroup k g).reqNo = s.reqNo := rfl
@[simp] theorem State.setGroup_mem (k : Nat) (g : Group) : (s.setGroup k g).mem = s.mem := rfl
@[simp] theorem State.setGroup_hostMem (k : Nat) (g : Group) : (s.setGroup k g).hostMem = s.hostMem := rfl
@[simp] theorem State.setGroup_peers (k : Nat) (g : Group) : (s.setGroup k g).peers = s.peers := rfl
@[simp] theorem State.setGroup_spad (k : Nat) (g : Group) : (s.setGroup k g).spad = s.spad := rfl
@[simp] theorem State.setGroup_groups (k : Nat) (g : Group) : (s.setGroup k g).groups = put k g s.groups := rfl
@[simp] theorem State.setGroup_hw (k : Nat) (g : Group) : (s.setGroup k g).hw = s.hw := rfl
@[simp] theorem State.setGroup_cores (k : Nat) (g : Group) : (s.setGroup k g).cores = s.cores := rfl
@[simp] theorem State.setGroup_dies (k : Nat) (g : Group) : (s.setGroup k g).dies = s.dies := rfl
@[simp] theorem State.setGroup_blocks (k : Nat) (g : Group) : (s.setGroup k g).blocks = s.blocks := rfl
@[simp] theorem State.setGroup_cohorts (k : Nat) (g : Group) : (s.setGroup k g).cohorts = s.cohorts := rfl
@[simp] theorem State.setGroup_reqs (k : Nat) (g : Group) : (s.setGroup k g).reqs = s.reqs := rfl
@[simp] theorem State.setGroup_unsaved (k : Nat) (g : Group) : (s.setGroup k g).unsaved = s.unsaved := rfl
@[simp] theorem State.setGroup_asides (k : Nat) (g : Group) : (s.setGroup k g).asides = s.asides := rfl
@[simp] theorem State.setGroup_lives (k : Nat) (g : Group) : (s.setGroup k g).lives = s.lives := rfl
@[simp] theorem State.setGroup_homes (k : Nat) (g : Group) : (s.setGroup k g).homes = s.homes := rfl
@[simp] theorem State.setGroup_pace (k : Nat) (g : Group) : (s.setGroup k g).pace = s.pace := rfl
@[simp] theorem State.setGroup_past (k : Nat) (g : Group) : (s.setGroup k g).past = s.past := rfl
@[simp] theorem State.setGroup_guards (k : Nat) (g : Group) : (s.setGroup k g).guards = s.guards := rfl
@[simp] theorem State.setGroup_writer (k : Nat) (g : Group) : (s.setGroup k g).writer = s.writer := rfl
@[simp] theorem State.setGroup_ctrl (k : Nat) (g : Group) : (s.setGroup k g).ctrl = s.ctrl := rfl

/-! ## State.modGroup -/

@[simp] theorem State.modGroup_agenda (k : Nat) (f : Group → Group) : (s.modGroup k f).agenda = s.agenda := rfl
@[simp] theorem State.modGroup_issuer (k : Nat) (f : Group → Group) : (s.modGroup k f).issuer = s.issuer := rfl
@[simp] theorem State.modGroup_subject (k : Nat) (f : Group → Group) : (s.modGroup k f).subject = s.subject := rfl
@[simp] theorem State.modGroup_turnNo (k : Nat) (f : Group → Group) : (s.modGroup k f).turnNo = s.turnNo := rfl
@[simp] theorem State.modGroup_freeNo (k : Nat) (f : Group → Group) : (s.modGroup k f).freeNo = s.freeNo := rfl
@[simp] theorem State.modGroup_reqNo (k : Nat) (f : Group → Group) : (s.modGroup k f).reqNo = s.reqNo := rfl
@[simp] theorem State.modGroup_mem (k : Nat) (f : Group → Group) : (s.modGroup k f).mem = s.mem := rfl
@[simp] theorem State.modGroup_hostMem (k : Nat) (f : Group → Group) : (s.modGroup k f).hostMem = s.hostMem := rfl
@[simp] theorem State.modGroup_peers (k : Nat) (f : Group → Group) : (s.modGroup k f).peers = s.peers := rfl
@[simp] theorem State.modGroup_spad (k : Nat) (f : Group → Group) : (s.modGroup k f).spad = s.spad := rfl
@[simp] theorem State.modGroup_groups (k : Nat) (f : Group → Group) : (s.modGroup k f).groups = modify k f s.groups := rfl
@[simp] theorem State.modGroup_hw (k : Nat) (f : Group → Group) : (s.modGroup k f).hw = s.hw := rfl
@[simp] theorem State.modGroup_cores (k : Nat) (f : Group → Group) : (s.modGroup k f).cores = s.cores := rfl
@[simp] theorem State.modGroup_dies (k : Nat) (f : Group → Group) : (s.modGroup k f).dies = s.dies := rfl
@[simp] theorem State.modGroup_blocks (k : Nat) (f : Group → Group) : (s.modGroup k f).blocks = s.blocks := rfl
@[simp] theorem State.modGroup_cohorts (k : Nat) (f : Group → Group) : (s.modGroup k f).cohorts = s.cohorts := rfl
@[simp] theorem State.modGroup_reqs (k : Nat) (f : Group → Group) : (s.modGroup k f).reqs = s.reqs := rfl
@[simp] theorem State.modGroup_unsaved (k : Nat) (f : Group → Group) : (s.modGroup k f).unsaved = s.unsaved := rfl
@[simp] theorem State.modGroup_asides (k : Nat) (f : Group → Group) : (s.modGroup k f).asides = s.asides := rfl
@[simp] theorem State.modGroup_lives (k : Nat) (f : Group → Group) : (s.modGroup k f).lives = s.lives := rfl
@[simp] theorem State.modGroup_homes (k : Nat) (f : Group → Group) : (s.modGroup k f).homes = s.homes := rfl
@[simp] theorem State.modGroup_pace (k : Nat) (f : Group → Group) : (s.modGroup k f).pace = s.pace := rfl
@[simp] theorem State.modGroup_past (k : Nat) (f : Group → Group) : (s.modGroup k f).past = s.past := rfl
@[simp] theorem State.modGroup_guards (k : Nat) (f : Group → Group) : (s.modGroup k f).guards = s.guards := rfl
@[simp] theorem State.modGroup_writer (k : Nat) (f : Group → Group) : (s.modGroup k f).writer = s.writer := rfl
@[simp] theorem State.modGroup_ctrl (k : Nat) (f : Group → Group) : (s.modGroup k f).ctrl = s.ctrl := rfl

/-! ## State.setThread -/

@[simp] theorem State.setThread_agenda (w : Who) (t : Thread) : (s.setThread w t).agenda = s.agenda := rfl
@[simp] theorem State.setThread_issuer (w : Who) (t : Thread) : (s.setThread w t).issuer = s.issuer := rfl
@[simp] theorem State.setThread_subject (w : Who) (t : Thread) : (s.setThread w t).subject = s.subject := rfl
@[simp] theorem State.setThread_turnNo (w : Who) (t : Thread) : (s.setThread w t).turnNo = s.turnNo := rfl
@[simp] theorem State.setThread_freeNo (w : Who) (t : Thread) : (s.setThread w t).freeNo = s.freeNo := rfl
@[simp] theorem State.setThread_reqNo (w : Who) (t : Thread) : (s.setThread w t).reqNo = s.reqNo := rfl
@[simp] theorem State.setThread_mem (w : Who) (t : Thread) : (s.setThread w t).mem = s.mem := rfl
@[simp] theorem State.setThread_hostMem (w : Who) (t : Thread) : (s.setThread w t).hostMem = s.hostMem := rfl
@[simp] theorem State.setThread_peers (w : Who) (t : Thread) : (s.setThread w t).peers = s.peers := rfl
@[simp] theorem State.setThread_spad (w : Who) (t : Thread) : (s.setThread w t).spad = s.spad := rfl
@[simp] theorem State.setThread_groups (w : Who) (t : Thread) : (s.setThread w t).groups = modify w.slot (fun g => g.setMember w.lane t) s.groups := rfl
@[simp] theorem State.setThread_hw (w : Who) (t : Thread) : (s.setThread w t).hw = s.hw := rfl
@[simp] theorem State.setThread_cores (w : Who) (t : Thread) : (s.setThread w t).cores = s.cores := rfl
@[simp] theorem State.setThread_dies (w : Who) (t : Thread) : (s.setThread w t).dies = s.dies := rfl
@[simp] theorem State.setThread_blocks (w : Who) (t : Thread) : (s.setThread w t).blocks = s.blocks := rfl
@[simp] theorem State.setThread_cohorts (w : Who) (t : Thread) : (s.setThread w t).cohorts = s.cohorts := rfl
@[simp] theorem State.setThread_reqs (w : Who) (t : Thread) : (s.setThread w t).reqs = s.reqs := rfl
@[simp] theorem State.setThread_unsaved (w : Who) (t : Thread) : (s.setThread w t).unsaved = s.unsaved := rfl
@[simp] theorem State.setThread_asides (w : Who) (t : Thread) : (s.setThread w t).asides = s.asides := rfl
@[simp] theorem State.setThread_lives (w : Who) (t : Thread) : (s.setThread w t).lives = s.lives := rfl
@[simp] theorem State.setThread_homes (w : Who) (t : Thread) : (s.setThread w t).homes = s.homes := rfl
@[simp] theorem State.setThread_pace (w : Who) (t : Thread) : (s.setThread w t).pace = s.pace := rfl
@[simp] theorem State.setThread_past (w : Who) (t : Thread) : (s.setThread w t).past = s.past := rfl
@[simp] theorem State.setThread_guards (w : Who) (t : Thread) : (s.setThread w t).guards = s.guards := rfl
@[simp] theorem State.setThread_writer (w : Who) (t : Thread) : (s.setThread w t).writer = s.writer := rfl
@[simp] theorem State.setThread_ctrl (w : Who) (t : Thread) : (s.setThread w t).ctrl = s.ctrl := rfl

/-! ## State.modThread -/

@[simp] theorem State.modThread_agenda (w : Who) (f : Thread → Thread) : (s.modThread w f).agenda = s.agenda := rfl
@[simp] theorem State.modThread_issuer (w : Who) (f : Thread → Thread) : (s.modThread w f).issuer = s.issuer := rfl
@[simp] theorem State.modThread_subject (w : Who) (f : Thread → Thread) : (s.modThread w f).subject = s.subject := rfl
@[simp] theorem State.modThread_turnNo (w : Who) (f : Thread → Thread) : (s.modThread w f).turnNo = s.turnNo := rfl
@[simp] theorem State.modThread_freeNo (w : Who) (f : Thread → Thread) : (s.modThread w f).freeNo = s.freeNo := rfl
@[simp] theorem State.modThread_reqNo (w : Who) (f : Thread → Thread) : (s.modThread w f).reqNo = s.reqNo := rfl
@[simp] theorem State.modThread_mem (w : Who) (f : Thread → Thread) : (s.modThread w f).mem = s.mem := rfl
@[simp] theorem State.modThread_hostMem (w : Who) (f : Thread → Thread) : (s.modThread w f).hostMem = s.hostMem := rfl
@[simp] theorem State.modThread_peers (w : Who) (f : Thread → Thread) : (s.modThread w f).peers = s.peers := rfl
@[simp] theorem State.modThread_spad (w : Who) (f : Thread → Thread) : (s.modThread w f).spad = s.spad := rfl
@[simp] theorem State.modThread_groups (w : Who) (f : Thread → Thread) : (s.modThread w f).groups = modify w.slot (fun g => { g with members := modify w.lane f g.members }) s.groups := rfl
@[simp] theorem State.modThread_hw (w : Who) (f : Thread → Thread) : (s.modThread w f).hw = s.hw := rfl
@[simp] theorem State.modThread_cores (w : Who) (f : Thread → Thread) : (s.modThread w f).cores = s.cores := rfl
@[simp] theorem State.modThread_dies (w : Who) (f : Thread → Thread) : (s.modThread w f).dies = s.dies := rfl
@[simp] theorem State.modThread_blocks (w : Who) (f : Thread → Thread) : (s.modThread w f).blocks = s.blocks := rfl
@[simp] theorem State.modThread_cohorts (w : Who) (f : Thread → Thread) : (s.modThread w f).cohorts = s.cohorts := rfl
@[simp] theorem State.modThread_reqs (w : Who) (f : Thread → Thread) : (s.modThread w f).reqs = s.reqs := rfl
@[simp] theorem State.modThread_unsaved (w : Who) (f : Thread → Thread) : (s.modThread w f).unsaved = s.unsaved := rfl
@[simp] theorem State.modThread_asides (w : Who) (f : Thread → Thread) : (s.modThread w f).asides = s.asides := rfl
@[simp] theorem State.modThread_lives (w : Who) (f : Thread → Thread) : (s.modThread w f).lives = s.lives := rfl
@[simp] theorem State.modThread_homes (w : Who) (f : Thread → Thread) : (s.modThread w f).homes = s.homes := rfl
@[simp] theorem State.modThread_pace (w : Who) (f : Thread → Thread) : (s.modThread w f).pace = s.pace := rfl
@[simp] theorem State.modThread_past (w : Who) (f : Thread → Thread) : (s.modThread w f).past = s.past := rfl
@[simp] theorem State.modThread_guards (w : Who) (f : Thread → Thread) : (s.modThread w f).guards = s.guards := rfl
@[simp] theorem State.modThread_writer (w : Who) (f : Thread → Thread) : (s.modThread w f).writer = s.writer := rfl
@[simp] theorem State.modThread_ctrl (w : Who) (f : Thread → Thread) : (s.modThread w f).ctrl = s.ctrl := rfl

/-! ## State.modBlock -/

@[simp] theorem State.modBlock_agenda (u : Nat) (f : MemBlock → MemBlock) : (s.modBlock u f).agenda = s.agenda := rfl
@[simp] theorem State.modBlock_issuer (u : Nat) (f : MemBlock → MemBlock) : (s.modBlock u f).issuer = s.issuer := rfl
@[simp] theorem State.modBlock_subject (u : Nat) (f : MemBlock → MemBlock) : (s.modBlock u f).subject = s.subject := rfl
@[simp] theorem State.modBlock_turnNo (u : Nat) (f : MemBlock → MemBlock) : (s.modBlock u f).turnNo = s.turnNo := rfl
@[simp] theorem State.modBlock_freeNo (u : Nat) (f : MemBlock → MemBlock) : (s.modBlock u f).freeNo = s.freeNo := rfl
@[simp] theorem State.modBlock_reqNo (u : Nat) (f : MemBlock → MemBlock) : (s.modBlock u f).reqNo = s.reqNo := rfl
@[simp] theorem State.modBlock_mem (u : Nat) (f : MemBlock → MemBlock) : (s.modBlock u f).mem = s.mem := rfl
@[simp] theorem State.modBlock_hostMem (u : Nat) (f : MemBlock → MemBlock) : (s.modBlock u f).hostMem = s.hostMem := rfl
@[simp] theorem State.modBlock_peers (u : Nat) (f : MemBlock → MemBlock) : (s.modBlock u f).peers = s.peers := rfl
@[simp] theorem State.modBlock_spad (u : Nat) (f : MemBlock → MemBlock) : (s.modBlock u f).spad = s.spad := rfl
@[simp] theorem State.modBlock_groups (u : Nat) (f : MemBlock → MemBlock) : (s.modBlock u f).groups = s.groups := rfl
@[simp] theorem State.modBlock_hw (u : Nat) (f : MemBlock → MemBlock) : (s.modBlock u f).hw = s.hw := rfl
@[simp] theorem State.modBlock_cores (u : Nat) (f : MemBlock → MemBlock) : (s.modBlock u f).cores = s.cores := rfl
@[simp] theorem State.modBlock_dies (u : Nat) (f : MemBlock → MemBlock) : (s.modBlock u f).dies = s.dies := rfl
@[simp] theorem State.modBlock_blocks (u : Nat) (f : MemBlock → MemBlock) : (s.modBlock u f).blocks = put u (f (s.block u)) s.blocks := rfl
@[simp] theorem State.modBlock_cohorts (u : Nat) (f : MemBlock → MemBlock) : (s.modBlock u f).cohorts = s.cohorts := rfl
@[simp] theorem State.modBlock_reqs (u : Nat) (f : MemBlock → MemBlock) : (s.modBlock u f).reqs = s.reqs := rfl
@[simp] theorem State.modBlock_unsaved (u : Nat) (f : MemBlock → MemBlock) : (s.modBlock u f).unsaved = s.unsaved := rfl
@[simp] theorem State.modBlock_asides (u : Nat) (f : MemBlock → MemBlock) : (s.modBlock u f).asides = s.asides := rfl
@[simp] theorem State.modBlock_lives (u : Nat) (f : MemBlock → MemBlock) : (s.modBlock u f).lives = s.lives := rfl
@[simp] theorem State.modBlock_homes (u : Nat) (f : MemBlock → MemBlock) : (s.modBlock u f).homes = s.homes := rfl
@[simp] theorem State.modBlock_pace (u : Nat) (f : MemBlock → MemBlock) : (s.modBlock u f).pace = s.pace := rfl
@[simp] theorem State.modBlock_past (u : Nat) (f : MemBlock → MemBlock) : (s.modBlock u f).past = s.past := rfl
@[simp] theorem State.modBlock_guards (u : Nat) (f : MemBlock → MemBlock) : (s.modBlock u f).guards = s.guards := rfl
@[simp] theorem State.modBlock_writer (u : Nat) (f : MemBlock → MemBlock) : (s.modBlock u f).writer = s.writer := rfl
@[simp] theorem State.modBlock_ctrl (u : Nat) (f : MemBlock → MemBlock) : (s.modBlock u f).ctrl = s.ctrl := rfl

/-! ## State.modHw -/

@[simp] theorem State.modHw_agenda (k : Nat) (f : HwThread → HwThread) : (s.modHw k f).agenda = s.agenda := rfl
@[simp] theorem State.modHw_issuer (k : Nat) (f : HwThread → HwThread) : (s.modHw k f).issuer = s.issuer := rfl
@[simp] theorem State.modHw_subject (k : Nat) (f : HwThread → HwThread) : (s.modHw k f).subject = s.subject := rfl
@[simp] theorem State.modHw_turnNo (k : Nat) (f : HwThread → HwThread) : (s.modHw k f).turnNo = s.turnNo := rfl
@[simp] theorem State.modHw_freeNo (k : Nat) (f : HwThread → HwThread) : (s.modHw k f).freeNo = s.freeNo := rfl
@[simp] theorem State.modHw_reqNo (k : Nat) (f : HwThread → HwThread) : (s.modHw k f).reqNo = s.reqNo := rfl
@[simp] theorem State.modHw_mem (k : Nat) (f : HwThread → HwThread) : (s.modHw k f).mem = s.mem := rfl
@[simp] theorem State.modHw_hostMem (k : Nat) (f : HwThread → HwThread) : (s.modHw k f).hostMem = s.hostMem := rfl
@[simp] theorem State.modHw_peers (k : Nat) (f : HwThread → HwThread) : (s.modHw k f).peers = s.peers := rfl
@[simp] theorem State.modHw_spad (k : Nat) (f : HwThread → HwThread) : (s.modHw k f).spad = s.spad := rfl
@[simp] theorem State.modHw_groups (k : Nat) (f : HwThread → HwThread) : (s.modHw k f).groups = s.groups := rfl
@[simp] theorem State.modHw_hw (k : Nat) (f : HwThread → HwThread) : (s.modHw k f).hw = put (userSlot k) (f (s.hwThread k)) s.hw := rfl
@[simp] theorem State.modHw_cores (k : Nat) (f : HwThread → HwThread) : (s.modHw k f).cores = s.cores := rfl
@[simp] theorem State.modHw_dies (k : Nat) (f : HwThread → HwThread) : (s.modHw k f).dies = s.dies := rfl
@[simp] theorem State.modHw_blocks (k : Nat) (f : HwThread → HwThread) : (s.modHw k f).blocks = s.blocks := rfl
@[simp] theorem State.modHw_cohorts (k : Nat) (f : HwThread → HwThread) : (s.modHw k f).cohorts = s.cohorts := rfl
@[simp] theorem State.modHw_reqs (k : Nat) (f : HwThread → HwThread) : (s.modHw k f).reqs = s.reqs := rfl
@[simp] theorem State.modHw_unsaved (k : Nat) (f : HwThread → HwThread) : (s.modHw k f).unsaved = s.unsaved := rfl
@[simp] theorem State.modHw_asides (k : Nat) (f : HwThread → HwThread) : (s.modHw k f).asides = s.asides := rfl
@[simp] theorem State.modHw_lives (k : Nat) (f : HwThread → HwThread) : (s.modHw k f).lives = s.lives := rfl
@[simp] theorem State.modHw_homes (k : Nat) (f : HwThread → HwThread) : (s.modHw k f).homes = s.homes := rfl
@[simp] theorem State.modHw_pace (k : Nat) (f : HwThread → HwThread) : (s.modHw k f).pace = s.pace := rfl
@[simp] theorem State.modHw_past (k : Nat) (f : HwThread → HwThread) : (s.modHw k f).past = s.past := rfl
@[simp] theorem State.modHw_guards (k : Nat) (f : HwThread → HwThread) : (s.modHw k f).guards = s.guards := rfl
@[simp] theorem State.modHw_writer (k : Nat) (f : HwThread → HwThread) : (s.modHw k f).writer = s.writer := rfl
@[simp] theorem State.modHw_ctrl (k : Nat) (f : HwThread → HwThread) : (s.modHw k f).ctrl = s.ctrl := rfl

/-! ## State.modCtrl -/

@[simp] theorem State.modCtrl_agenda (f : Ctrl → Ctrl) : (s.modCtrl f).agenda = s.agenda := rfl
@[simp] theorem State.modCtrl_issuer (f : Ctrl → Ctrl) : (s.modCtrl f).issuer = s.issuer := rfl
@[simp] theorem State.modCtrl_subject (f : Ctrl → Ctrl) : (s.modCtrl f).subject = s.subject := rfl
@[simp] theorem State.modCtrl_turnNo (f : Ctrl → Ctrl) : (s.modCtrl f).turnNo = s.turnNo := rfl
@[simp] theorem State.modCtrl_freeNo (f : Ctrl → Ctrl) : (s.modCtrl f).freeNo = s.freeNo := rfl
@[simp] theorem State.modCtrl_reqNo (f : Ctrl → Ctrl) : (s.modCtrl f).reqNo = s.reqNo := rfl
@[simp] theorem State.modCtrl_mem (f : Ctrl → Ctrl) : (s.modCtrl f).mem = s.mem := rfl
@[simp] theorem State.modCtrl_hostMem (f : Ctrl → Ctrl) : (s.modCtrl f).hostMem = s.hostMem := rfl
@[simp] theorem State.modCtrl_peers (f : Ctrl → Ctrl) : (s.modCtrl f).peers = s.peers := rfl
@[simp] theorem State.modCtrl_spad (f : Ctrl → Ctrl) : (s.modCtrl f).spad = s.spad := rfl
@[simp] theorem State.modCtrl_groups (f : Ctrl → Ctrl) : (s.modCtrl f).groups = s.groups := rfl
@[simp] theorem State.modCtrl_hw (f : Ctrl → Ctrl) : (s.modCtrl f).hw = s.hw := rfl
@[simp] theorem State.modCtrl_cores (f : Ctrl → Ctrl) : (s.modCtrl f).cores = s.cores := rfl
@[simp] theorem State.modCtrl_dies (f : Ctrl → Ctrl) : (s.modCtrl f).dies = s.dies := rfl
@[simp] theorem State.modCtrl_blocks (f : Ctrl → Ctrl) : (s.modCtrl f).blocks = s.blocks := rfl
@[simp] theorem State.modCtrl_cohorts (f : Ctrl → Ctrl) : (s.modCtrl f).cohorts = s.cohorts := rfl
@[simp] theorem State.modCtrl_reqs (f : Ctrl → Ctrl) : (s.modCtrl f).reqs = s.reqs := rfl
@[simp] theorem State.modCtrl_unsaved (f : Ctrl → Ctrl) : (s.modCtrl f).unsaved = s.unsaved := rfl
@[simp] theorem State.modCtrl_asides (f : Ctrl → Ctrl) : (s.modCtrl f).asides = s.asides := rfl
@[simp] theorem State.modCtrl_lives (f : Ctrl → Ctrl) : (s.modCtrl f).lives = s.lives := rfl
@[simp] theorem State.modCtrl_homes (f : Ctrl → Ctrl) : (s.modCtrl f).homes = s.homes := rfl
@[simp] theorem State.modCtrl_pace (f : Ctrl → Ctrl) : (s.modCtrl f).pace = s.pace := rfl
@[simp] theorem State.modCtrl_past (f : Ctrl → Ctrl) : (s.modCtrl f).past = s.past := rfl
@[simp] theorem State.modCtrl_guards (f : Ctrl → Ctrl) : (s.modCtrl f).guards = s.guards := rfl
@[simp] theorem State.modCtrl_writer (f : Ctrl → Ctrl) : (s.modCtrl f).writer = s.writer := rfl
@[simp] theorem State.modCtrl_ctrl (f : Ctrl → Ctrl) : (s.modCtrl f).ctrl = f s.ctrl := rfl

/-! ## State.setSpad -/

@[simp] theorem State.setSpad_agenda (c : Nat) (m : Memory) : (s.setSpad c m).agenda = s.agenda := rfl
@[simp] theorem State.setSpad_issuer (c : Nat) (m : Memory) : (s.setSpad c m).issuer = s.issuer := rfl
@[simp] theorem State.setSpad_subject (c : Nat) (m : Memory) : (s.setSpad c m).subject = s.subject := rfl
@[simp] theorem State.setSpad_turnNo (c : Nat) (m : Memory) : (s.setSpad c m).turnNo = s.turnNo := rfl
@[simp] theorem State.setSpad_freeNo (c : Nat) (m : Memory) : (s.setSpad c m).freeNo = s.freeNo := rfl
@[simp] theorem State.setSpad_reqNo (c : Nat) (m : Memory) : (s.setSpad c m).reqNo = s.reqNo := rfl
@[simp] theorem State.setSpad_mem (c : Nat) (m : Memory) : (s.setSpad c m).mem = s.mem := rfl
@[simp] theorem State.setSpad_hostMem (c : Nat) (m : Memory) : (s.setSpad c m).hostMem = s.hostMem := rfl
@[simp] theorem State.setSpad_peers (c : Nat) (m : Memory) : (s.setSpad c m).peers = s.peers := rfl
@[simp] theorem State.setSpad_spad (c : Nat) (m : Memory) : (s.setSpad c m).spad = put c m s.spad := rfl
@[simp] theorem State.setSpad_groups (c : Nat) (m : Memory) : (s.setSpad c m).groups = s.groups := rfl
@[simp] theorem State.setSpad_hw (c : Nat) (m : Memory) : (s.setSpad c m).hw = s.hw := rfl
@[simp] theorem State.setSpad_cores (c : Nat) (m : Memory) : (s.setSpad c m).cores = s.cores := rfl
@[simp] theorem State.setSpad_dies (c : Nat) (m : Memory) : (s.setSpad c m).dies = s.dies := rfl
@[simp] theorem State.setSpad_blocks (c : Nat) (m : Memory) : (s.setSpad c m).blocks = s.blocks := rfl
@[simp] theorem State.setSpad_cohorts (c : Nat) (m : Memory) : (s.setSpad c m).cohorts = s.cohorts := rfl
@[simp] theorem State.setSpad_reqs (c : Nat) (m : Memory) : (s.setSpad c m).reqs = s.reqs := rfl
@[simp] theorem State.setSpad_unsaved (c : Nat) (m : Memory) : (s.setSpad c m).unsaved = s.unsaved := rfl
@[simp] theorem State.setSpad_asides (c : Nat) (m : Memory) : (s.setSpad c m).asides = s.asides := rfl
@[simp] theorem State.setSpad_lives (c : Nat) (m : Memory) : (s.setSpad c m).lives = s.lives := rfl
@[simp] theorem State.setSpad_homes (c : Nat) (m : Memory) : (s.setSpad c m).homes = s.homes := rfl
@[simp] theorem State.setSpad_pace (c : Nat) (m : Memory) : (s.setSpad c m).pace = s.pace := rfl
@[simp] theorem State.setSpad_past (c : Nat) (m : Memory) : (s.setSpad c m).past = s.past := rfl
@[simp] theorem State.setSpad_guards (c : Nat) (m : Memory) : (s.setSpad c m).guards = s.guards := rfl
@[simp] theorem State.setSpad_writer (c : Nat) (m : Memory) : (s.setSpad c m).writer = s.writer := rfl
@[simp] theorem State.setSpad_ctrl (c : Nat) (m : Memory) : (s.setSpad c m).ctrl = s.ctrl := rfl

/-! ## State.setPeer -/

@[simp] theorem State.setPeer_agenda (p : Nat) (m : Memory) : (s.setPeer p m).agenda = s.agenda := rfl
@[simp] theorem State.setPeer_issuer (p : Nat) (m : Memory) : (s.setPeer p m).issuer = s.issuer := rfl
@[simp] theorem State.setPeer_subject (p : Nat) (m : Memory) : (s.setPeer p m).subject = s.subject := rfl
@[simp] theorem State.setPeer_turnNo (p : Nat) (m : Memory) : (s.setPeer p m).turnNo = s.turnNo := rfl
@[simp] theorem State.setPeer_freeNo (p : Nat) (m : Memory) : (s.setPeer p m).freeNo = s.freeNo := rfl
@[simp] theorem State.setPeer_reqNo (p : Nat) (m : Memory) : (s.setPeer p m).reqNo = s.reqNo := rfl
@[simp] theorem State.setPeer_mem (p : Nat) (m : Memory) : (s.setPeer p m).mem = s.mem := rfl
@[simp] theorem State.setPeer_hostMem (p : Nat) (m : Memory) : (s.setPeer p m).hostMem = s.hostMem := rfl
@[simp] theorem State.setPeer_peers (p : Nat) (m : Memory) : (s.setPeer p m).peers = put p m s.peers := rfl
@[simp] theorem State.setPeer_spad (p : Nat) (m : Memory) : (s.setPeer p m).spad = s.spad := rfl
@[simp] theorem State.setPeer_groups (p : Nat) (m : Memory) : (s.setPeer p m).groups = s.groups := rfl
@[simp] theorem State.setPeer_hw (p : Nat) (m : Memory) : (s.setPeer p m).hw = s.hw := rfl
@[simp] theorem State.setPeer_cores (p : Nat) (m : Memory) : (s.setPeer p m).cores = s.cores := rfl
@[simp] theorem State.setPeer_dies (p : Nat) (m : Memory) : (s.setPeer p m).dies = s.dies := rfl
@[simp] theorem State.setPeer_blocks (p : Nat) (m : Memory) : (s.setPeer p m).blocks = s.blocks := rfl
@[simp] theorem State.setPeer_cohorts (p : Nat) (m : Memory) : (s.setPeer p m).cohorts = s.cohorts := rfl
@[simp] theorem State.setPeer_reqs (p : Nat) (m : Memory) : (s.setPeer p m).reqs = s.reqs := rfl
@[simp] theorem State.setPeer_unsaved (p : Nat) (m : Memory) : (s.setPeer p m).unsaved = s.unsaved := rfl
@[simp] theorem State.setPeer_asides (p : Nat) (m : Memory) : (s.setPeer p m).asides = s.asides := rfl
@[simp] theorem State.setPeer_lives (p : Nat) (m : Memory) : (s.setPeer p m).lives = s.lives := rfl
@[simp] theorem State.setPeer_homes (p : Nat) (m : Memory) : (s.setPeer p m).homes = s.homes := rfl
@[simp] theorem State.setPeer_pace (p : Nat) (m : Memory) : (s.setPeer p m).pace = s.pace := rfl
@[simp] theorem State.setPeer_past (p : Nat) (m : Memory) : (s.setPeer p m).past = s.past := rfl
@[simp] theorem State.setPeer_guards (p : Nat) (m : Memory) : (s.setPeer p m).guards = s.guards := rfl
@[simp] theorem State.setPeer_writer (p : Nat) (m : Memory) : (s.setPeer p m).writer = s.writer := rfl
@[simp] theorem State.setPeer_ctrl (p : Nat) (m : Memory) : (s.setPeer p m).ctrl = s.ctrl := rfl

/-! ## State.bump -/

@[simp] theorem State.bump_agenda : (s.bump).agenda = s.agenda := rfl
@[simp] theorem State.bump_issuer : (s.bump).issuer = s.issuer := rfl
@[simp] theorem State.bump_subject : (s.bump).subject = s.subject := rfl
@[simp] theorem State.bump_turnNo : (s.bump).turnNo = s.turnNo := rfl
@[simp] theorem State.bump_freeNo : (s.bump).freeNo = s.freeNo + 1 := rfl
@[simp] theorem State.bump_reqNo : (s.bump).reqNo = s.reqNo := rfl
@[simp] theorem State.bump_mem : (s.bump).mem = s.mem := rfl
@[simp] theorem State.bump_hostMem : (s.bump).hostMem = s.hostMem := rfl
@[simp] theorem State.bump_peers : (s.bump).peers = s.peers := rfl
@[simp] theorem State.bump_spad : (s.bump).spad = s.spad := rfl
@[simp] theorem State.bump_groups : (s.bump).groups = s.groups := rfl
@[simp] theorem State.bump_hw : (s.bump).hw = s.hw := rfl
@[simp] theorem State.bump_cores : (s.bump).cores = s.cores := rfl
@[simp] theorem State.bump_dies : (s.bump).dies = s.dies := rfl
@[simp] theorem State.bump_blocks : (s.bump).blocks = s.blocks := rfl
@[simp] theorem State.bump_cohorts : (s.bump).cohorts = s.cohorts := rfl
@[simp] theorem State.bump_reqs : (s.bump).reqs = s.reqs := rfl
@[simp] theorem State.bump_unsaved : (s.bump).unsaved = s.unsaved := rfl
@[simp] theorem State.bump_asides : (s.bump).asides = s.asides := rfl
@[simp] theorem State.bump_lives : (s.bump).lives = s.lives := rfl
@[simp] theorem State.bump_homes : (s.bump).homes = s.homes := rfl
@[simp] theorem State.bump_pace : (s.bump).pace = s.pace := rfl
@[simp] theorem State.bump_past : (s.bump).past = s.past := rfl
@[simp] theorem State.bump_guards : (s.bump).guards = s.guards := rfl
@[simp] theorem State.bump_writer : (s.bump).writer = s.writer := rfl
@[simp] theorem State.bump_ctrl : (s.bump).ctrl = s.ctrl := rfl

/-! ## State.modCore -/

@[simp] theorem State.modCore_agenda (c : Nat) (f : Core → Core) : (s.modCore c f).agenda = s.agenda := rfl
@[simp] theorem State.modCore_issuer (c : Nat) (f : Core → Core) : (s.modCore c f).issuer = s.issuer := rfl
@[simp] theorem State.modCore_subject (c : Nat) (f : Core → Core) : (s.modCore c f).subject = s.subject := rfl
@[simp] theorem State.modCore_turnNo (c : Nat) (f : Core → Core) : (s.modCore c f).turnNo = s.turnNo := rfl
@[simp] theorem State.modCore_freeNo (c : Nat) (f : Core → Core) : (s.modCore c f).freeNo = s.freeNo := rfl
@[simp] theorem State.modCore_reqNo (c : Nat) (f : Core → Core) : (s.modCore c f).reqNo = s.reqNo := rfl
@[simp] theorem State.modCore_mem (c : Nat) (f : Core → Core) : (s.modCore c f).mem = s.mem := rfl
@[simp] theorem State.modCore_hostMem (c : Nat) (f : Core → Core) : (s.modCore c f).hostMem = s.hostMem := rfl
@[simp] theorem State.modCore_peers (c : Nat) (f : Core → Core) : (s.modCore c f).peers = s.peers := rfl
@[simp] theorem State.modCore_spad (c : Nat) (f : Core → Core) : (s.modCore c f).spad = s.spad := rfl
@[simp] theorem State.modCore_groups (c : Nat) (f : Core → Core) : (s.modCore c f).groups = s.groups := rfl
@[simp] theorem State.modCore_hw (c : Nat) (f : Core → Core) : (s.modCore c f).hw = s.hw := rfl
@[simp] theorem State.modCore_cores (c : Nat) (f : Core → Core) : (s.modCore c f).cores = put c (f (s.core c)) s.cores := rfl
@[simp] theorem State.modCore_dies (c : Nat) (f : Core → Core) : (s.modCore c f).dies = s.dies := rfl
@[simp] theorem State.modCore_blocks (c : Nat) (f : Core → Core) : (s.modCore c f).blocks = s.blocks := rfl
@[simp] theorem State.modCore_cohorts (c : Nat) (f : Core → Core) : (s.modCore c f).cohorts = s.cohorts := rfl
@[simp] theorem State.modCore_reqs (c : Nat) (f : Core → Core) : (s.modCore c f).reqs = s.reqs := rfl
@[simp] theorem State.modCore_unsaved (c : Nat) (f : Core → Core) : (s.modCore c f).unsaved = s.unsaved := rfl
@[simp] theorem State.modCore_asides (c : Nat) (f : Core → Core) : (s.modCore c f).asides = s.asides := rfl
@[simp] theorem State.modCore_lives (c : Nat) (f : Core → Core) : (s.modCore c f).lives = s.lives := rfl
@[simp] theorem State.modCore_homes (c : Nat) (f : Core → Core) : (s.modCore c f).homes = s.homes := rfl
@[simp] theorem State.modCore_pace (c : Nat) (f : Core → Core) : (s.modCore c f).pace = s.pace := rfl
@[simp] theorem State.modCore_past (c : Nat) (f : Core → Core) : (s.modCore c f).past = s.past := rfl
@[simp] theorem State.modCore_guards (c : Nat) (f : Core → Core) : (s.modCore c f).guards = s.guards := rfl
@[simp] theorem State.modCore_writer (c : Nat) (f : Core → Core) : (s.modCore c f).writer = s.writer := rfl
@[simp] theorem State.modCore_ctrl (c : Nat) (f : Core → Core) : (s.modCore c f).ctrl = s.ctrl := rfl

/-! ## State.modDie -/

@[simp] theorem State.modDie_agenda (d : Nat) (f : Die → Die) : (s.modDie d f).agenda = s.agenda := rfl
@[simp] theorem State.modDie_issuer (d : Nat) (f : Die → Die) : (s.modDie d f).issuer = s.issuer := rfl
@[simp] theorem State.modDie_subject (d : Nat) (f : Die → Die) : (s.modDie d f).subject = s.subject := rfl
@[simp] theorem State.modDie_turnNo (d : Nat) (f : Die → Die) : (s.modDie d f).turnNo = s.turnNo := rfl
@[simp] theorem State.modDie_freeNo (d : Nat) (f : Die → Die) : (s.modDie d f).freeNo = s.freeNo := rfl
@[simp] theorem State.modDie_reqNo (d : Nat) (f : Die → Die) : (s.modDie d f).reqNo = s.reqNo := rfl
@[simp] theorem State.modDie_mem (d : Nat) (f : Die → Die) : (s.modDie d f).mem = s.mem := rfl
@[simp] theorem State.modDie_hostMem (d : Nat) (f : Die → Die) : (s.modDie d f).hostMem = s.hostMem := rfl
@[simp] theorem State.modDie_peers (d : Nat) (f : Die → Die) : (s.modDie d f).peers = s.peers := rfl
@[simp] theorem State.modDie_spad (d : Nat) (f : Die → Die) : (s.modDie d f).spad = s.spad := rfl
@[simp] theorem State.modDie_groups (d : Nat) (f : Die → Die) : (s.modDie d f).groups = s.groups := rfl
@[simp] theorem State.modDie_hw (d : Nat) (f : Die → Die) : (s.modDie d f).hw = s.hw := rfl
@[simp] theorem State.modDie_cores (d : Nat) (f : Die → Die) : (s.modDie d f).cores = s.cores := rfl
@[simp] theorem State.modDie_dies (d : Nat) (f : Die → Die) : (s.modDie d f).dies = put d (f (s.die d)) s.dies := rfl
@[simp] theorem State.modDie_blocks (d : Nat) (f : Die → Die) : (s.modDie d f).blocks = s.blocks := rfl
@[simp] theorem State.modDie_cohorts (d : Nat) (f : Die → Die) : (s.modDie d f).cohorts = s.cohorts := rfl
@[simp] theorem State.modDie_reqs (d : Nat) (f : Die → Die) : (s.modDie d f).reqs = s.reqs := rfl
@[simp] theorem State.modDie_unsaved (d : Nat) (f : Die → Die) : (s.modDie d f).unsaved = s.unsaved := rfl
@[simp] theorem State.modDie_asides (d : Nat) (f : Die → Die) : (s.modDie d f).asides = s.asides := rfl
@[simp] theorem State.modDie_lives (d : Nat) (f : Die → Die) : (s.modDie d f).lives = s.lives := rfl
@[simp] theorem State.modDie_homes (d : Nat) (f : Die → Die) : (s.modDie d f).homes = s.homes := rfl
@[simp] theorem State.modDie_pace (d : Nat) (f : Die → Die) : (s.modDie d f).pace = s.pace := rfl
@[simp] theorem State.modDie_past (d : Nat) (f : Die → Die) : (s.modDie d f).past = s.past := rfl
@[simp] theorem State.modDie_guards (d : Nat) (f : Die → Die) : (s.modDie d f).guards = s.guards := rfl
@[simp] theorem State.modDie_writer (d : Nat) (f : Die → Die) : (s.modDie d f).writer = s.writer := rfl
@[simp] theorem State.modDie_ctrl (d : Nat) (f : Die → Die) : (s.modDie d f).ctrl = s.ctrl := rfl

/-! ## State.setDreg -/

@[simp] theorem State.setDreg_agenda (d o : Nat) (v : DWord) : (s.setDreg d o v).agenda = s.agenda := rfl
@[simp] theorem State.setDreg_issuer (d o : Nat) (v : DWord) : (s.setDreg d o v).issuer = s.issuer := rfl
@[simp] theorem State.setDreg_subject (d o : Nat) (v : DWord) : (s.setDreg d o v).subject = s.subject := rfl
@[simp] theorem State.setDreg_turnNo (d o : Nat) (v : DWord) : (s.setDreg d o v).turnNo = s.turnNo := rfl
@[simp] theorem State.setDreg_freeNo (d o : Nat) (v : DWord) : (s.setDreg d o v).freeNo = s.freeNo := rfl
@[simp] theorem State.setDreg_reqNo (d o : Nat) (v : DWord) : (s.setDreg d o v).reqNo = s.reqNo := rfl
@[simp] theorem State.setDreg_mem (d o : Nat) (v : DWord) : (s.setDreg d o v).mem = s.mem := rfl
@[simp] theorem State.setDreg_hostMem (d o : Nat) (v : DWord) : (s.setDreg d o v).hostMem = s.hostMem := rfl
@[simp] theorem State.setDreg_peers (d o : Nat) (v : DWord) : (s.setDreg d o v).peers = s.peers := rfl
@[simp] theorem State.setDreg_spad (d o : Nat) (v : DWord) : (s.setDreg d o v).spad = s.spad := rfl
@[simp] theorem State.setDreg_groups (d o : Nat) (v : DWord) : (s.setDreg d o v).groups = s.groups := rfl
@[simp] theorem State.setDreg_hw (d o : Nat) (v : DWord) : (s.setDreg d o v).hw = s.hw := rfl
@[simp] theorem State.setDreg_cores (d o : Nat) (v : DWord) : (s.setDreg d o v).cores = s.cores := rfl
@[simp] theorem State.setDreg_dies (d o : Nat) (v : DWord) : (s.setDreg d o v).dies = put d ((s.die d).setReg o v) s.dies := rfl
@[simp] theorem State.setDreg_blocks (d o : Nat) (v : DWord) : (s.setDreg d o v).blocks = s.blocks := rfl
@[simp] theorem State.setDreg_cohorts (d o : Nat) (v : DWord) : (s.setDreg d o v).cohorts = s.cohorts := rfl
@[simp] theorem State.setDreg_reqs (d o : Nat) (v : DWord) : (s.setDreg d o v).reqs = s.reqs := rfl
@[simp] theorem State.setDreg_unsaved (d o : Nat) (v : DWord) : (s.setDreg d o v).unsaved = s.unsaved := rfl
@[simp] theorem State.setDreg_asides (d o : Nat) (v : DWord) : (s.setDreg d o v).asides = s.asides := rfl
@[simp] theorem State.setDreg_lives (d o : Nat) (v : DWord) : (s.setDreg d o v).lives = s.lives := rfl
@[simp] theorem State.setDreg_homes (d o : Nat) (v : DWord) : (s.setDreg d o v).homes = s.homes := rfl
@[simp] theorem State.setDreg_pace (d o : Nat) (v : DWord) : (s.setDreg d o v).pace = s.pace := rfl
@[simp] theorem State.setDreg_past (d o : Nat) (v : DWord) : (s.setDreg d o v).past = s.past := rfl
@[simp] theorem State.setDreg_guards (d o : Nat) (v : DWord) : (s.setDreg d o v).guards = s.guards := rfl
@[simp] theorem State.setDreg_writer (d o : Nat) (v : DWord) : (s.setDreg d o v).writer = s.writer := rfl
@[simp] theorem State.setDreg_ctrl (d o : Nat) (v : DWord) : (s.setDreg d o v).ctrl = s.ctrl := rfl

/-! ## State.setFreg -/

@[simp] theorem State.setFreg_agenda (d o : Nat) (v : DWord) : (s.setFreg d o v).agenda = s.agenda := rfl
@[simp] theorem State.setFreg_issuer (d o : Nat) (v : DWord) : (s.setFreg d o v).issuer = s.issuer := rfl
@[simp] theorem State.setFreg_subject (d o : Nat) (v : DWord) : (s.setFreg d o v).subject = s.subject := rfl
@[simp] theorem State.setFreg_turnNo (d o : Nat) (v : DWord) : (s.setFreg d o v).turnNo = s.turnNo := rfl
@[simp] theorem State.setFreg_freeNo (d o : Nat) (v : DWord) : (s.setFreg d o v).freeNo = s.freeNo := rfl
@[simp] theorem State.setFreg_reqNo (d o : Nat) (v : DWord) : (s.setFreg d o v).reqNo = s.reqNo := rfl
@[simp] theorem State.setFreg_mem (d o : Nat) (v : DWord) : (s.setFreg d o v).mem = s.mem := rfl
@[simp] theorem State.setFreg_hostMem (d o : Nat) (v : DWord) : (s.setFreg d o v).hostMem = s.hostMem := rfl
@[simp] theorem State.setFreg_peers (d o : Nat) (v : DWord) : (s.setFreg d o v).peers = s.peers := rfl
@[simp] theorem State.setFreg_spad (d o : Nat) (v : DWord) : (s.setFreg d o v).spad = s.spad := rfl
@[simp] theorem State.setFreg_groups (d o : Nat) (v : DWord) : (s.setFreg d o v).groups = s.groups := rfl
@[simp] theorem State.setFreg_hw (d o : Nat) (v : DWord) : (s.setFreg d o v).hw = s.hw := rfl
@[simp] theorem State.setFreg_cores (d o : Nat) (v : DWord) : (s.setFreg d o v).cores = s.cores := rfl
@[simp] theorem State.setFreg_dies (d o : Nat) (v : DWord) : (s.setFreg d o v).dies = put d { s.die d with fabric := put o v (s.die d).fabric } s.dies := rfl
@[simp] theorem State.setFreg_blocks (d o : Nat) (v : DWord) : (s.setFreg d o v).blocks = s.blocks := rfl
@[simp] theorem State.setFreg_cohorts (d o : Nat) (v : DWord) : (s.setFreg d o v).cohorts = s.cohorts := rfl
@[simp] theorem State.setFreg_reqs (d o : Nat) (v : DWord) : (s.setFreg d o v).reqs = s.reqs := rfl
@[simp] theorem State.setFreg_unsaved (d o : Nat) (v : DWord) : (s.setFreg d o v).unsaved = s.unsaved := rfl
@[simp] theorem State.setFreg_asides (d o : Nat) (v : DWord) : (s.setFreg d o v).asides = s.asides := rfl
@[simp] theorem State.setFreg_lives (d o : Nat) (v : DWord) : (s.setFreg d o v).lives = s.lives := rfl
@[simp] theorem State.setFreg_homes (d o : Nat) (v : DWord) : (s.setFreg d o v).homes = s.homes := rfl
@[simp] theorem State.setFreg_pace (d o : Nat) (v : DWord) : (s.setFreg d o v).pace = s.pace := rfl
@[simp] theorem State.setFreg_past (d o : Nat) (v : DWord) : (s.setFreg d o v).past = s.past := rfl
@[simp] theorem State.setFreg_guards (d o : Nat) (v : DWord) : (s.setFreg d o v).guards = s.guards := rfl
@[simp] theorem State.setFreg_writer (d o : Nat) (v : DWord) : (s.setFreg d o v).writer = s.writer := rfl
@[simp] theorem State.setFreg_ctrl (d o : Nat) (v : DWord) : (s.setFreg d o v).ctrl = s.ctrl := rfl

/-! ## State.setBreg -/

@[simp] theorem State.setBreg_agenda (u o : Nat) (v : DWord) : (s.setBreg u o v).agenda = s.agenda := rfl
@[simp] theorem State.setBreg_issuer (u o : Nat) (v : DWord) : (s.setBreg u o v).issuer = s.issuer := rfl
@[simp] theorem State.setBreg_subject (u o : Nat) (v : DWord) : (s.setBreg u o v).subject = s.subject := rfl
@[simp] theorem State.setBreg_turnNo (u o : Nat) (v : DWord) : (s.setBreg u o v).turnNo = s.turnNo := rfl
@[simp] theorem State.setBreg_freeNo (u o : Nat) (v : DWord) : (s.setBreg u o v).freeNo = s.freeNo := rfl
@[simp] theorem State.setBreg_reqNo (u o : Nat) (v : DWord) : (s.setBreg u o v).reqNo = s.reqNo := rfl
@[simp] theorem State.setBreg_mem (u o : Nat) (v : DWord) : (s.setBreg u o v).mem = s.mem := rfl
@[simp] theorem State.setBreg_hostMem (u o : Nat) (v : DWord) : (s.setBreg u o v).hostMem = s.hostMem := rfl
@[simp] theorem State.setBreg_peers (u o : Nat) (v : DWord) : (s.setBreg u o v).peers = s.peers := rfl
@[simp] theorem State.setBreg_spad (u o : Nat) (v : DWord) : (s.setBreg u o v).spad = s.spad := rfl
@[simp] theorem State.setBreg_groups (u o : Nat) (v : DWord) : (s.setBreg u o v).groups = s.groups := rfl
@[simp] theorem State.setBreg_hw (u o : Nat) (v : DWord) : (s.setBreg u o v).hw = s.hw := rfl
@[simp] theorem State.setBreg_cores (u o : Nat) (v : DWord) : (s.setBreg u o v).cores = s.cores := rfl
@[simp] theorem State.setBreg_dies (u o : Nat) (v : DWord) : (s.setBreg u o v).dies = s.dies := rfl
@[simp] theorem State.setBreg_blocks (u o : Nat) (v : DWord) : (s.setBreg u o v).blocks = put u { s.block u with regs := put o v (s.block u).regs } s.blocks := rfl
@[simp] theorem State.setBreg_cohorts (u o : Nat) (v : DWord) : (s.setBreg u o v).cohorts = s.cohorts := rfl
@[simp] theorem State.setBreg_reqs (u o : Nat) (v : DWord) : (s.setBreg u o v).reqs = s.reqs := rfl
@[simp] theorem State.setBreg_unsaved (u o : Nat) (v : DWord) : (s.setBreg u o v).unsaved = s.unsaved := rfl
@[simp] theorem State.setBreg_asides (u o : Nat) (v : DWord) : (s.setBreg u o v).asides = s.asides := rfl
@[simp] theorem State.setBreg_lives (u o : Nat) (v : DWord) : (s.setBreg u o v).lives = s.lives := rfl
@[simp] theorem State.setBreg_homes (u o : Nat) (v : DWord) : (s.setBreg u o v).homes = s.homes := rfl
@[simp] theorem State.setBreg_pace (u o : Nat) (v : DWord) : (s.setBreg u o v).pace = s.pace := rfl
@[simp] theorem State.setBreg_past (u o : Nat) (v : DWord) : (s.setBreg u o v).past = s.past := rfl
@[simp] theorem State.setBreg_guards (u o : Nat) (v : DWord) : (s.setBreg u o v).guards = s.guards := rfl
@[simp] theorem State.setBreg_writer (u o : Nat) (v : DWord) : (s.setBreg u o v).writer = s.writer := rfl
@[simp] theorem State.setBreg_ctrl (u o : Nat) (v : DWord) : (s.setBreg u o v).ctrl = s.ctrl := rfl

/-! ## Parts read after they are written -/

theorem lookup_modify {α : Type} (j k : Nat) (f : α → α) (m : Map α) :
    lookup j (modify k f m) = if j = k then (lookup k m).map f else lookup j m := by
  unfold modify
  split
  · rename_i a h
    rw [lookup_put]; split <;> simp [h]
  · rename_i h
    split
    · subst j; simp [h]
    · rfl

theorem State.core_setCore (c d : Nat) (x : Core) : (s.setCore c x).core d = if d = c then x else s.core d :=
  get_put _ _ _ _ _
theorem State.die_setDie (d e : Nat) (x : Die) : (s.setDie d x).die e = if e = d then x else s.die e := get_put _ _ _ _ _
theorem State.block_modBlock (u v : Nat) (f : MemBlock → MemBlock) :
    (s.modBlock u f).block v = if v = u then f (s.block u) else s.block v := get_put _ _ _ _ _
theorem State.group_setGroup (k j : Nat) (g : Group) : (s.setGroup k g).group? j = if j = k then some g else s.group? j :=
  lookup_put _ _ _ _
theorem State.group_modGroup (k j : Nat) (f : Group → Group) :
    (s.modGroup k f).group? j = if j = k then (s.group? k).map f else s.group? j := lookup_modify _ _ _ _
theorem State.spad_setSpad (c d : Nat) (m : Memory) : (s.setSpad c m).spadOf d = if d = c then m else s.spadOf d :=
  get_put _ _ _ _ _
theorem State.peer_setPeer (p q : Nat) (m : Memory) : (s.setPeer p m).peerMem q = if q = p then m else s.peerMem q :=
  get_put _ _ _ _ _
theorem Die.reg_setReg (d : Die) (o p : Nat) (v : DWord) : (d.setReg o v).reg p = if p = o then v else d.reg p :=
  get_put _ _ _ _ _
theorem Core.reg_setRegRaw (c : Core) (i j : Nat) (v : DWord) : (c.setRegRaw i v).reg j = if j = i then v else c.reg j :=
  get_put _ _ _ _ _

/-- A thread read after a thread is written: the one written, if its group is there; every other as before. -/
theorem State.thread_setThread (w v : Who) (t : Thread) :
    (s.setThread w t).thread? v = if v = w then (s.group? w.slot).map fun _ => t else s.thread? v := by
  simp only [State.thread?, State.setThread, State.group_modGroup]
  by_cases h : v.slot = w.slot
  · simp only [h, if_true]
    cases s.group? w.slot with
    | none => simp
    | some g =>
      simp only [Option.map_some, Option.bind_some, Group.setMember, lookup_put]
      by_cases h2 : v.lane = w.lane
      · have : v = w := by cases v; cases w; simp_all
        simp [this]
      · have : v ≠ w := fun e => h2 (by rw [e])
        simp [h2, this]
  · have : v ≠ w := fun e => h (by rw [e])
    simp [h, this]

theorem State.thread_modThread (w v : Who) (f : Thread → Thread) :
    (s.modThread w f).thread? v = if v = w then (s.thread? w).map f else s.thread? v := by
  simp only [State.thread?, State.modThread, State.group_modGroup]
  by_cases h : v.slot = w.slot
  · simp only [h, if_true]
    cases s.group? w.slot with
    | none => simp
    | some g =>
      simp only [Option.map_some, Option.bind_some, lookup_modify]
      by_cases h2 : v.lane = w.lane
      · have : v = w := by cases v; cases w; simp_all
        simp [this]
      · have : v ≠ w := fun e => h2 (by rw [e])
        simp [h2, this]
  · have : v ≠ w := fun e => h (by rw [e])
    simp [h, this]

/-! ## Registers read after they are written -/

/-- What a v-context register holds after a write: index 0 discards it (R84). -/
theorem Thread.get_setReg (t : Thread) (i j : Nat) (v : Word) (x : Val 32) :
    get (t.setReg i v).regs j x = if i ≠ 0 ∧ j = i then .known v else get t.regs j x := by
  unfold Thread.setReg
  by_cases hi : i = 0
  · simp [hi]
  · simp [hi, get_put]

/-- A register that holds a value reads as it. -/
theorem Thread.reg_known {t : Thread} {j : Nat} {v : Word} (h : get t.regs j (.known 0) = .known v) (hj : j ≠ 0) :
    t.reg j = v := by
  unfold Thread.reg
  rw [h]; simp [hj]

/-- Index 0 reads zero (R84). -/
@[simp] theorem Thread.reg_zero (t : Thread) : t.reg 0 = 0 := rfl

/-- A v-context register just written reads as what was written. -/
theorem Thread.reg_setReg_same (t : Thread) {i : Nat} (v : Word) (hi : i ≠ 0) : (t.setReg i v).reg i = v :=
  Thread.reg_known (by simp [Thread.get_setReg, hi]) hi

theorem Thread.setReg_keeps (t : Thread) (i : Nat) (v : Word) :
    t.setReg i v = { t with regs := (t.setReg i v).regs, held := (t.setReg i v).held } := by
  unfold Thread.setReg; split <;> rfl

theorem Thread.setGuard_keeps (t : Thread) (i : Nat) (b : Bool) :
    t.setGuard i b = { t with guards := (t.setGuard i b).guards } := by
  unfold Thread.setGuard; split <;> rfl

/-- What an s-register holds after a write: s0 discards it (R14). -/
theorem Group.get_setSreg (g : Group) (i j : Nat) (v : DWord) (x : Val 64) :
    get (g.setSreg i v).sregs j x = if i ≠ 0 ∧ j = i then .known v else get g.sregs j x := by
  unfold Group.setSreg
  by_cases hi : i = 0
  · simp [hi]
  · simp [hi, get_put]

/-- An s-register that holds a value reads as it. -/
theorem Group.sreg_known {g : Group} {j : Nat} {v : DWord} (h : get g.sregs j (.known 0) = .known v) (hj : j ≠ 0) :
    g.sreg j = v := by
  unfold Group.sreg
  rw [h]; simp [hj]

/-- s0 reads zero (R14). -/
@[simp] theorem Group.sreg_zero (g : Group) : g.sreg 0 = 0 := rfl

/-- A fold over a list keeps what each of its steps keeps. -/
theorem over_keeps {α σ : Type} (P : σ → Prop) (f : α → σ → σ) (h : ∀ a s, P s → P (f a s)) (xs : List α) (s : σ)
    (hs : P s) : P (each f xs s) := by
  induction xs generalizing s with
  | nil => exact hs
  | cons x xs ih => exact ih (f x s) (h x s hs)

end Sys2Proof.Machine
end

