-- ==== Sys2Proof/Laws/Issue.lean ====
section
/-! SUPPORT. What issuing a register instruction does, once for all of them: regInstr at issue answers a next state in
which each lane's thread holds its Out's writes and goes on, and nothing else has changed. A statement of one
instruction follows from its meaning's Out alone (gives32_of_regInstr, gives64_of_regInstr). -/

namespace Sys2Proof.Claims
open Machine

/-! ## Threads -/

theorem Thread_loopNext_keeps (t : Thread) :
    t.loopNext.1 = { t with lc0 := t.loopNext.1.lc0, lc1 := t.loopNext.1.lc1 } := by
  simp only [Thread.loopNext]
  by_cases h1 : (t.lc1.count != 0 && t.lc1.stop == t.pc) = true <;>
    by_cases h2 : (t.lc1.count - 1 != 0) = true <;>
    by_cases h3 : (t.lc0.count != 0 && t.lc0.stop == t.pc) = true <;>
    simp only [h1, h2, h3, if_true, if_false, Bool.false_eq_true]

theorem Thread_loopNext_regs (t : Thread) (rs : Map (Val 32)) (ld : List Nat) (gs : BitVec 8) (fl sd : Word)
    (hs : List Word) :
    ({ t with regs := rs, loaded := ld, guards := gs, fpsr := fl, srseed := sd, held := hs } : Thread).loopNext.2 =
      t.loopNext.2 := by
  simp only [Thread.loopNext]
  by_cases h1 : (t.lc1.count != 0 && t.lc1.stop == t.pc) = true <;>
    by_cases h2 : (t.lc1.count - 1 != 0) = true <;>
    by_cases h3 : (t.lc0.count != 0 && t.lc0.stop == t.pc) = true <;>
    simp only [h1, h2, h3, if_true, if_false, Bool.false_eq_true]

/-- A thread that goes on keeps all but its PC, hold and loop contexts. -/
theorem Thread_advance_keeps (t : Thread) (lat : Bool) :
    t.advance lat = { t with pc := (t.advance lat).pc, run := (t.advance lat).run, lc0 := (t.advance lat).lc0,
                             lc1 := (t.advance lat).lc1 } := by
  simp only [Thread.advance, Thread.arrive, Thread.loopNext]
  by_cases h1 : (t.lc1.count != 0 && t.lc1.stop == t.pc) = true <;>
    by_cases h2 : (t.lc1.count - 1 != 0) = true <;>
    by_cases h3 : (t.lc0.count != 0 && t.lc0.stop == t.pc) = true <;>
    simp only [h1, h2, h3, if_true, if_false, Bool.false_eq_true]

@[simp] theorem Thread_advance_pc (t : Thread) (lat : Bool) : (t.advance lat).pc = t.loopNext.2 := rfl

theorem Thread_advance_holds (t : Thread) (lat : Bool) (j : Nat) : holds (t.advance lat) j = holds t j := by
  rw [Thread_advance_keeps]; rfl

/-! ## Lanes -/

/-- Two changes of groups alone, one after the other. -/
theorem groups_trans {s x y : State} (h1 : y = { x with groups := y.groups }) (h2 : x = { s with groups := x.groups }) :
    y = { s with groups := y.groups } := h1.trans (congrArg (fun z : State => { z with groups := y.groups }) h2)

theorem bump_rest {s x : State} (h : x = { s with groups := x.groups }) :
    x.bump = { s with groups := x.bump.groups, freeNo := x.bump.freeNo } :=
  (congrArg State.bump h).trans
    (congrArg (fun n => ({ s with groups := x.groups, freeNo := n + 1 } : State)) (congrArg State.freeNo h).symm)

/-- A change of groups after one of groups and the counter of free values. -/
theorem groups_free_trans {s x y : State} (h1 : y = { x with groups := y.groups })
    (h2 : x = { s with groups := x.groups, freeNo := x.freeNo }) :
    y = { s with groups := y.groups, freeNo := y.freeNo } :=
  (h1.trans (congrArg (fun z : State => { z with groups := y.groups }) h2)).trans
    (congrArg (fun n => ({ s with groups := y.groups, freeNo := n } : State)) (congrArg State.freeNo h1).symm)

/-- One lane's thread set: the group keeps all but that member. -/
theorem State_group_setThread (s : State) (w : Who) (t : Thread) (k : Nat) :
    (s.setThread w t).group? k = if k = w.slot then (s.group? w.slot).map (·.setMember w.lane t) else s.group? k :=
  State.group_modGroup _ _ _ _

theorem State_setThread_rest (s : State) (w : Who) (t : Thread) :
    s.setThread w t = { s with groups := (s.setThread w t).groups } := rfl

/-- Lanes that each set their own thread, from the state at issue: what every one of them and every other holds. -/
theorem over_setThread (slot : Nat) (f : Nat → State → State) (G : Nat → Thread → Thread)
    (hf : ∀ l s, f l s = match s.thread? ⟨slot, l⟩ with
      | some t => s.setThread ⟨slot, l⟩ (G l t)
      | none => s) (lanes : List Nat) (nd : lanes.Nodup) (s : State) :
    each f lanes s = { s with groups := (each f lanes s).groups } ∧
    (∀ k, k ≠ slot → (each f lanes s).group? k = s.group? k) ∧
    (∀ g, s.group? slot = some g → ∃ m, (each f lanes s).group? slot = some { g with members := m }) ∧
    (∀ l, (each f lanes s).thread? ⟨slot, l⟩ =
      if l ∈ lanes then (s.thread? ⟨slot, l⟩).map (G l) else s.thread? ⟨slot, l⟩) := by
  induction lanes generalizing s with
  | nil => exact ⟨rfl, fun _ _ => rfl, fun g h => ⟨g.members, h⟩, fun _ => by simp [each]⟩
  | cons a as ih =>
    obtain ⟨ha, nd⟩ := List.nodup_cons.1 nd
    obtain ⟨h1, h2, h3, h4⟩ := ih nd (f a s)
    have hr : f a s = { s with groups := (f a s).groups } := by
      rw [hf]; split <;> rfl
    have hg : ∀ k, k ≠ slot → (f a s).group? k = s.group? k := by
      intro k hk
      rw [hf]; split
      · rw [State_group_setThread]; simp [hk]
      · rfl
    have hm : ∀ g, s.group? slot = some g → ∃ m, (f a s).group? slot = some { g with members := m } := by
      intro g hgs
      rw [hf]; split
      · rename_i t _
        refine ⟨put a (G a t) g.members, ?_⟩
        rw [State_group_setThread]; simp [hgs, Group.setMember]
      · exact ⟨g.members, hgs⟩
    have ht : ∀ l, (f a s).thread? ⟨slot, l⟩ = if l = a then (s.thread? ⟨slot, l⟩).map (G l) else s.thread? ⟨slot, l⟩ := by
      intro l
      rw [hf]
      by_cases hl : l = a
      · subst hl
        cases e : s.thread? ⟨slot, l⟩ with
        | none => simp [e]
        | some t =>
          have : (s.group? slot).isSome := by
            cases e2 : s.group? slot with
            | none => simp [State.thread?, e2] at e
            | some g => rfl
          obtain ⟨g, hg⟩ := Option.isSome_iff_exists.1 this
          simp [State.thread_setThread, hg]
      · cases e : s.thread? ⟨slot, a⟩ with
        | none => simp [hl]
        | some t => simp [State.thread_setThread, hl]
    refine ⟨?_, fun k hk => ?_, fun g hgs => ?_, fun l => ?_⟩
    · exact groups_trans h1 hr
    · exact (h2 k hk).trans (hg k hk)
    · obtain ⟨m, hm⟩ := hm g hgs
      obtain ⟨m', hm'⟩ := h3 _ hm
      exact ⟨m', hm'⟩
    · show (each f as (f a s)).thread? _ = _
      rw [h4, ht]
      by_cases hl : l = a
      · subst hl; simp [ha]
      · simp [hl]

/-! ## Issue -/

theorem activeAt_nodup (g : Group) (pc : DWord) : (g.activeAt pc).Nodup := List.nodup_range.filter _

/-- The body runs, from the entry state and the group as it stands there. -/
theorem issue_next {i : Instr} {s : State} {u : Issuer} {g : Group} (h : AtIssue s i u g) (body : Ctx → State → State) :
    issue i s body = .next (body ⟨u, groupAt s i u g, g.activeAt u.pc⟩ (entry s i u g)) := by
  simp only [issue, h.issuer, h.group, h.legal, h.ready]
  rfl

/-- Making q undefined in lanes changes threads of those lanes and the counter of free values. -/
theorem dropQs_frame (s : State) (slot : Nat) (lanes : List Nat) (g : Group) (hg : s.group? slot = some g) :
    s.dropQs slot lanes = { s with groups := (s.dropQs slot lanes).groups, freeNo := (s.dropQs slot lanes).freeNo } ∧
    (∀ k, k ≠ slot → (s.dropQs slot lanes).group? k = s.group? k) ∧
    (∃ m, (s.dropQs slot lanes).group? slot = some { g with members := m }) ∧
    ∀ l, l ∉ lanes → (s.dropQs slot lanes).thread? ⟨slot, l⟩ = s.thread? ⟨slot, l⟩ := by
  unfold State.dropQs
  split
  · exact ⟨rfl, fun _ _ => rfl, ⟨g.members, hg⟩, fun _ _ => rfl⟩
  · have key : ∀ (ls : List Nat) (x : State) (n : Nat), (∃ m, x.group? slot = some { g with members := m }) →
        let y := each (fun l s' => s'.modThread ⟨slot, l⟩ fun t => t.dropQ n) ls x
        y = { x with groups := y.groups } ∧ (∀ k, k ≠ slot → y.group? k = x.group? k) ∧
        (∃ m, y.group? slot = some { g with members := m }) ∧ ∀ l, l ∉ ls → y.thread? ⟨slot, l⟩ = x.thread? ⟨slot, l⟩ := by
      intro ls
      induction ls with
      | nil => exact fun x n hx => ⟨rfl, fun _ _ => rfl, hx, fun _ _ => rfl⟩
      | cons a as ih =>
        intro x n hx
        obtain ⟨m, hm⟩ := hx
        obtain ⟨h1, h2, h3, h4⟩ := ih (x.modThread ⟨slot, a⟩ fun t => t.dropQ n) n
          ⟨modify a (fun t => t.dropQ n) m, by simp [State.modThread, State.group_modGroup, hm]⟩
        refine ⟨?_, fun k hk => ?_, h3, fun l hl => ?_⟩
        · exact groups_trans h1 rfl
        · rw [show (each (fun l s' => State.modThread s' ⟨slot, l⟩ fun t => t.dropQ n) (a :: as) x).group? k = _ from h2 k hk]
          simp [State.modThread, State.group_modGroup, hk]
        · obtain ⟨hl1, hl2⟩ := by simpa using hl
          rw [show (each (fun l s' => State.modThread s' ⟨slot, l⟩ fun t => t.dropQ n) (a :: as) x).thread? ⟨slot, l⟩ = _ from h4 l hl2]
          simp [State.thread_modThread, hl1]
    obtain ⟨h1, h2, h3, h4⟩ := key lanes s s.stamp ⟨g.members, hg⟩
    refine ⟨?_, fun k hk => h2 k hk, h3, fun l hl => h4 l hl⟩
    exact bump_rest h1

theorem volatile_active {g : Group} {gd : Guard} {lanes : List Nat} {f : Form} {l : Nat}
    (h : l ∈ volatileLanes g gd lanes f) : l ∈ lanes := (List.mem_filter.1 h).1

theorem entry_frame {i : Instr} {s : State} {u : Issuer} {g : Group} (h : AtIssue s i u g) :
    entry s i u g = { s with groups := (entry s i u g).groups, freeNo := (entry s i u g).freeNo } ∧
    (∀ k, k ≠ u.slot → (entry s i u g).group? k = s.group? k) ∧
    (∃ m, (entry s i u g).group? u.slot = some { g with members := m }) ∧
    ∀ l, l ∉ g.activeAt u.pc → (entry s i u g).thread? ⟨u.slot, l⟩ = s.thread? ⟨u.slot, l⟩ := by
  obtain ⟨h1, h2, h3, h4⟩ := dropQs_frame s u.slot (volatileLanes g u.g (g.activeAt u.pc) (formOf ⟨u.g, 0, i⟩)) g h.group
  exact ⟨h1, h2, h3, fun l hl => h4 l fun hv => hl (volatile_active hv)⟩

/-- An instruction whose body sets each issuing lane's thread: it completes, changes only those lanes, and each holds
what its body gives, or goes on where its guard is false. -/
theorem eachLane_next {i : Instr} {s : State} {u : Issuer} {g : Group} (h : AtIssue s i u g)
    (f : Ctx → Nat → Thread → State → State) (G : Nat → Thread → Thread)
    (hf : ∀ l t s', f ⟨u, groupAt s i u g, g.activeAt u.pc⟩ l t s' = s'.setThread ⟨u.slot, l⟩ (G l t)) :
    ∃ s', issue i s (eachLane f) = .next s' ∧ OnlyLanes s s' u g ∧ EachLane s i u g s' fun l t t' => t' = G l t := by
  refine ⟨_, issue_next h _, ?_, ?_⟩
  all_goals
    obtain ⟨e1, e2, ⟨m, e3⟩, e4⟩ := entry_frame h
    obtain ⟨o1, o2, o3, o4⟩ := over_setThread u.slot
      (fun l s' => match s'.thread? ⟨u.slot, l⟩ with
        | some t => if t.guardHolds u.g then f ⟨u, groupAt s i u g, g.activeAt u.pc⟩ l t s'
            else s'.setThread ⟨u.slot, l⟩ (t.advance (isLatency u.slot))
        | none => s')
      (fun l t => if t.guardHolds u.g then G l t else t.advance (isLatency u.slot))
      (by intro l s'; split
          · split <;> simp [*]
          · rfl)
      (g.activeAt u.pc) (activeAt_nodup g u.pc) (entry s i u g)
  · refine ⟨?_, fun k hk => (o2 k hk).trans (e2 k hk), ?_, fun l hl => ?_⟩
    · exact groups_free_trans o1 e1
    · obtain ⟨m', hm'⟩ := o3 _ e3
      exact ⟨m', hm'⟩
    · exact ((o4 l).trans (by simp [hl])).trans (e4 l hl)
  · intro l t hl
    have := o4 l
    rw [if_pos hl.mem, hl.thread] at this
    refine ⟨_, this, ?_⟩
    by_cases hg : t.guardHolds u.g = true
    · simp only [hg, if_true]
    · simp only [hg, if_false, Bool.false_eq_true]

/-! ## Register instructions -/

/-- A lane whose Out ends in sequence with no event. -/
theorem lane_seq (s : State) (w : Who) (asid : Nat) (t : Thread) (o : Out) (h1 : o.fin = .seq) (h2 : o.events = []) :
    s.lane w asid t o = s.setThread w ((t.effect o).advance (isLatency w.slot)) := by
  simp [State.lane, h1, h2, State.finish, State.countEvents, each]

/-- A register instruction whose Outs end in sequence with no event. -/
theorem regInstr_next {i : Instr} {s : State} {u : Issuer} {g : Group} (h : AtIssue s i u g) (f : Ctx → Nat → Thread → Out)
    (hf : ∀ l t, (f ⟨u, groupAt s i u g, g.activeAt u.pc⟩ l t).fin = .seq ∧
      (f ⟨u, groupAt s i u g, g.activeAt u.pc⟩ l t).events = []) :
    ∃ s', regInstr i s f = .next s' ∧ OnlyLanes s s' u g ∧ EachLane s i u g s' fun l t t' =>
      t' = (t.effect (f ⟨u, groupAt s i u g, g.activeAt u.pc⟩ l t)).advance (isLatency u.slot) :=
  eachLane_next h _ _ fun l t s' => lane_seq s' _ _ t _ (hf l t).1 (hf l t).2

/-- A thread with registers written goes on. -/
theorem wentOn_advance (t : Thread) (rs : Map (Val 32)) (ld : List Nat) (hs : List Word) (lat : Bool) :
    WentOn t (({ t with regs := rs, loaded := ld, held := hs } : Thread).advance lat) := by
  unfold WentOn
  rw [Thread_advance_keeps]

theorem nextPc_advance (t : Thread) (rs : Map (Val 32)) (ld : List Nat) (hs : List Word) (lat : Bool) :
    NextPc t (({ t with regs := rs, loaded := ld, held := hs } : Thread).advance lat) :=
  Thread_loopNext_regs t rs ld t.guards t.fpsr t.srseed hs

/-- Register writes of an Out, as a change of registers and marks. -/
theorem effect_regs (t : Thread) (ws : List (Nat × Word)) :
    ∃ ld hs, t.effect { regs := ws } =
      { t with regs := (each (fun w t => t.setReg w.1 w.2) ws t).regs, loaded := ld, held := hs } := by
  have h : ∀ (ws : List (Nat × Word)) (t : Thread), each (fun w t => t.setReg w.1 w.2) ws t =
      { t with regs := (each (fun w t => t.setReg w.1 w.2) ws t).regs,
               held := (each (fun w t => t.setReg w.1 w.2) ws t).held } := by
    intro ws
    induction ws with
    | nil => exact fun _ => rfl
    | cons a as ih =>
      intro t
      let y := each (fun (w : Nat × Word) (t : Thread) => t.setReg w.1 w.2) as (t.setReg a.1 a.2)
      exact (ih (t.setReg a.1 a.2)).trans
        (congrArg (fun x : Thread => { x with regs := y.regs, held := y.held }) (Thread.setReg_keeps t a.1 a.2))
  have e : t.effect { regs := ws } = { each (fun w t => t.setReg w.1 w.2) ws t with
      loaded := (t.effect { regs := ws }).loaded } := by
    simp [Thread.effect, Thread.write, Thread.writeGuards, each]
  exact ⟨_, _, e.trans (congrArg (fun x : Thread => { x with loaded := (t.effect { regs := ws }).loaded }) (h ws t))⟩

/-- What one register write leaves in a thread. -/
theorem effect_one (t : Thread) (d : BitVec 9) (v : Word) (lat : Bool) :
    Wrote32 d v t ((t.effect { regs := [(d.toNat, v)] }).advance lat) := by
  have hd : (d.toNat = 0) = (d = 0) := by simp [← BitVec.toNat_inj]
  obtain ⟨ld, hs, e⟩ := effect_regs t [(d.toNat, v)]
  rw [e]
  refine ⟨fun j => ?_, wentOn_advance _ _ _ _ _, nextPc_advance _ _ _ _ _⟩
  rw [Thread_advance_holds]
  show get (t.setReg d.toNat v).regs j _ = _
  rw [Thread.get_setReg]
  simp [hd, holds]

/-- What a pair's write leaves in a thread. -/
theorem effect_pair (t : Thread) (d : BitVec 9) (v : DWord) (lat : Bool) :
    Wrote64 d v t ((t.effect { regs := pairOut d.toNat v }).advance lat) := by
  obtain ⟨ld, hs, e⟩ := effect_regs t (pairOut d.toNat v)
  rw [e]
  refine ⟨fun j => ?_, wentOn_advance _ _ _ _ _, nextPc_advance _ _ _ _ _⟩
  rw [Thread_advance_holds]
  show get (each (fun w t => Thread.setReg t w.1 w.2) (pairOut d.toNat v) t).regs j _ = _
  by_cases h0 : d = 0
  · subst h0; rfl
  · have hn : d.toNat ≠ 0 := fun x => h0 (by rw [← BitVec.toNat_inj]; simpa using x)
    have hp : pairOut d.toNat v = [(d.toNat, v.setWidth 32), (d.toNat + 1, (v >>> 32).setWidth 32)] := by
      unfold pairOut; rw [if_neg (by simpa using hn)]
    rw [hp]
    show get ((t.setReg d.toNat (v.setWidth 32)).setReg (d.toNat + 1) ((v >>> 32).setWidth 32)).regs j _ = _
    rw [Thread.get_setReg, Thread.get_setReg]
    by_cases h1 : j = d.toNat
    · subst h1
      rw [if_neg (by omega), if_pos ⟨hn, rfl⟩, if_pos ⟨h0, rfl⟩]
    · rw [if_neg (c := d ≠ 0 ∧ j = d.toNat) (by tauto)]
      by_cases h2 : j = d.toNat + 1
      · rw [if_pos ⟨by omega, h2⟩, if_pos ⟨h0, h2⟩]
      · rw [if_neg (by tauto), if_neg (by tauto), if_neg (by tauto)]; rfl

/-- An instruction whose Out is one register write. -/
theorem gives32_of_regInstr {i : Instr} {d : BitVec 9} {v : Group → Thread → Word} (f : Ctx → Nat → Thread → Out)
    (he : ∀ s, exec i s = regInstr i s f) (hf : ∀ c l t, f c l t = { regs := [(d.toNat, v c.g t)] }) : Gives32 i d v := by
  intro s u g h
  obtain ⟨s', h1, h2, h3⟩ := regInstr_next h f (fun l t => by simp [hf])
  refine ⟨s', (he s).trans h1, h2, fun l t hl => ?_⟩
  obtain ⟨t', ht, hp⟩ := h3 l t hl
  refine ⟨t', ht, ?_⟩
  split at hp <;> rename_i hg <;> simp only [hg, if_true, if_false]
  · rw [hp, hf]; exact effect_one t d _ _
  · simpa using hp

/-- An instruction whose Out is a pair's write. -/
theorem gives64_of_regInstr {i : Instr} {d : BitVec 9} {v : Group → Thread → DWord} (f : Ctx → Nat → Thread → Out)
    (he : ∀ s, exec i s = regInstr i s f) (hf : ∀ c l t, f c l t = { regs := pairOut d.toNat (v c.g t) }) :
    Gives64 i d v := by
  intro s u g h
  obtain ⟨s', h1, h2, h3⟩ := regInstr_next h f (fun l t => by simp [hf])
  refine ⟨s', (he s).trans h1, h2, fun l t hl => ?_⟩
  obtain ⟨t', ht, hp⟩ := h3 l t hl
  refine ⟨t', ht, ?_⟩
  split at hp <;> rename_i hg <;> simp only [hg, if_true, if_false]
  · rw [hp, hf]; exact effect_pair t d _ _
  · simpa using hp

end Sys2Proof.Claims
end

