-- ==== Sys2Proof/Laws/PerInstr.lean ====
section
/-! SUPPORT. WordForm: what the word of every instruction holds. The word that the encoder gives an instruction has the
guard it was given, the keep field in the formats that have one and 0 in the others, and a major that is neither fallow
nor illegal (R97, R98, R114 to R116); a row of the table that names no instruction word has none. -/

/-- What the encoder's word of `i` holds. -/
def Sys2Proof.Laws.WordForm.Statement (i : Sys2Proof.Instr) : Prop :=
  ∀ (g : Sys2Proof.Guard) (k : BitVec 2) (w : Sys2Proof.DWord), Sys2Proof.encode ⟨g, k, i⟩ = some w →
    Sys2Proof.guardOf w = g ∧ Sys2Proof.keepOf w i = (if Sys2Proof.Machine.hasKeep i then k else 0) ∧
    Sys2Proof.Machine.isFallow w = false ∧ Sys2Proof.Machine.isIllegalMajor w = false

open Sys2Proof Sys2Proof.Machine Sys2Proof.Laws

/-- A major that names instructions (R114). -/
def Sys2Proof.Laws.liveMajor (m : Nat) : Bool :=
  !(0x25 ≤ m && m ≤ 0x3E) && !(List.contains [0x00, 0x0F, 0x1E, 0x1F, 0x24, 0x3F] m)

/-- A word with a live major is neither fallow nor illegal. -/
theorem Sys2Proof.Laws.majors_of_live {w : DWord} (h : liveMajor (majorOf w) = true) :
    isFallow w = false ∧ isIllegalMajor w = false := by
  simp only [liveMajor, majorOf, Bool.and_eq_true, Bool.not_eq_true'] at h
  exact h

theorem Sys2Proof.Laws.wordA (i : Instr) (maj : BitVec 6) (fn : Nat) (f : FmtA)
    (he : ∀ g k, encode ⟨g, k, i⟩ = some (packA g k maj fn f)) (hm : liveMajor maj.toNat = true)
    (hk : hasKeep i = true) : WordForm.Statement i := by
  intro g k w h
  rw [he] at h
  obtain rfl := Option.some.inj h
  exact ⟨guardOf_packA .., by simp only [keepOf, hk, if_true]; exact keep_packA .., majors_of_live (by rw [majorOf_packA]; exact hm)⟩

theorem Sys2Proof.Laws.wordI (i : Instr) (maj : BitVec 6) (fn : Nat) (f : FmtI)
    (he : ∀ g k, encode ⟨g, k, i⟩ = some (packI g maj fn f)) (hm : liveMajor maj.toNat = true)
    (hk : hasKeep i = false) : WordForm.Statement i := by
  intro g k w h
  rw [he] at h
  obtain rfl := Option.some.inj h
  exact ⟨guardOf_packI .., by simp [keepOf, hk], majors_of_live (by rw [majorOf_packI]; exact hm)⟩

theorem Sys2Proof.Laws.wordX (i : Instr) (maj : BitVec 6) (fn : Nat) (f : FmtX)
    (he : ∀ g k, encode ⟨g, k, i⟩ = some (packX g maj fn f)) (hm : liveMajor maj.toNat = true)
    (hk : hasKeep i = false) : WordForm.Statement i := by
  intro g k w h
  rw [he] at h
  obtain rfl := Option.some.inj h
  exact ⟨guardOf_packX .., by simp [keepOf, hk], majors_of_live (by rw [majorOf_packX]; exact hm)⟩

theorem Sys2Proof.Laws.wordC (i : Instr) (maj : BitVec 6) (fn : Nat) (f : FmtC)
    (he : ∀ g k, encode ⟨g, k, i⟩ = some (packC g maj fn f)) (hm : liveMajor maj.toNat = true)
    (hk : hasKeep i = false) : WordForm.Statement i := by
  intro g k w h
  rw [he] at h
  obtain rfl := Option.some.inj h
  exact ⟨guardOf_packC .., by simp [keepOf, hk], majors_of_live (by rw [majorOf_packC]; exact hm)⟩

theorem Sys2Proof.Laws.wordM (i : Instr) (maj : BitVec 6) (f : FmtM)
    (he : ∀ g k, encode ⟨g, k, i⟩ = some (packM g maj f)) (hm : liveMajor maj.toNat = true)
    (hk : hasKeep i = false) : WordForm.Statement i := by
  intro g k w h
  rw [he] at h
  obtain rfl := Option.some.inj h
  exact ⟨guardOf_packM .., by simp [keepOf, hk], majors_of_live (by rw [majorOf_packM]; exact hm)⟩

theorem Sys2Proof.Laws.wordN (i : Instr) (maj : BitVec 6) (aop : Nat) (f : FmtN)
    (he : ∀ g k, encode ⟨g, k, i⟩ = some (packN g maj aop f)) (hm : liveMajor maj.toNat = true)
    (hk : hasKeep i = false) : WordForm.Statement i := by
  intro g k w h
  rw [he] at h
  obtain rfl := Option.some.inj h
  exact ⟨guardOf_packN .., by simp [keepOf, hk], majors_of_live (by rw [majorOf_packN]; exact hm)⟩

theorem Sys2Proof.Laws.wordB (i : Instr) (link : BitVec 9) (off : BitVec 40)
    (he : ∀ g k, encode ⟨g, k, i⟩ = some (packB g link off))
    (hk : hasKeep i = false) : WordForm.Statement i := by
  intro g k w h
  rw [he] at h
  obtain rfl := Option.some.inj h
  exact ⟨guardOf_packB .., by simp [keepOf, hk], majors_of_live (by rw [majorOf_packB]; rfl)⟩

theorem Sys2Proof.Laws.wordL (i : Instr) (off : BitVec 40)
    (he : ∀ g k, encode ⟨g, k, i⟩ = some (packL g off))
    (hk : hasKeep i = false) : WordForm.Statement i := by
  intro g k w h
  rw [he] at h
  obtain rfl := Option.some.inj h
  exact ⟨guardOf_packL .., by simp [keepOf, hk], majors_of_live (by rw [majorOf_packL]; rfl)⟩

theorem Sys2Proof.Laws.noWord (i : Instr) (he : ∀ g k, encode ⟨g, k, i⟩ = none) : WordForm.Statement i := by
  intro g k w h
  rw [he] at h
  cases h

theorem Sys2Proof.Laws.WordForm.add (f : FmtA) : Sys2Proof.Laws.WordForm.Statement (.add f) :=
  wordA _ 0x01#6 0x00 f (fun _ _ => rfl) rfl rfl
theorem Sys2Proof.Laws.WordForm.sub (f : FmtA) : Sys2Proof.Laws.WordForm.Statement (.sub f) :=
  wordA _ 0x01#6 0x01 f (fun _ _ => rfl) rfl rfl
theorem Sys2Proof.Laws.WordForm.mul (f : FmtA) : Sys2Proof.Laws.WordForm.Statement (.mul f) :=
  wordA _ 0x01#6 0x02 f (fun _ _ => rfl) rfl rfl
theorem Sys2Proof.Laws.WordForm.mulh (f : FmtA) : Sys2Proof.Laws.WordForm.Statement (.mulh f) :=
  wordA _ 0x01#6 0x03 f (fun _ _ => rfl) rfl rfl
theorem Sys2Proof.Laws.WordForm.mulhu (f : FmtA) : Sys2Proof.Laws.WordForm.Statement (.mulhu f) :=
  wordA _ 0x01#6 0x04 f (fun _ _ => rfl) rfl rfl
theorem Sys2Proof.Laws.WordForm.mad (f : FmtA) : Sys2Proof.Laws.WordForm.Statement (.mad f) :=
  wordA _ 0x01#6 0x05 f (fun _ _ => rfl) rfl rfl
theorem Sys2Proof.Laws.WordForm.madw (f : FmtA) : Sys2Proof.Laws.WordForm.Statement (.madw f) :=
  wordA _ 0x01#6 0x06 f (fun _ _ => rfl) rfl rfl
theorem Sys2Proof.Laws.WordForm.div (f : FmtA) : Sys2Proof.Laws.WordForm.Statement (.div f) :=
  wordA _ 0x01#6 0x07 f (fun _ _ => rfl) rfl rfl
theorem Sys2Proof.Laws.WordForm.divu (f : FmtA) : Sys2Proof.Laws.WordForm.Statement (.divu f) :=
  wordA _ 0x01#6 0x08 f (fun _ _ => rfl) rfl rfl
theorem Sys2Proof.Laws.WordForm.rem (f : FmtA) : Sys2Proof.Laws.WordForm.Statement (.rem f) :=
  wordA _ 0x01#6 0x09 f (fun _ _ => rfl) rfl rfl
theorem Sys2Proof.Laws.WordForm.remu (f : FmtA) : Sys2Proof.Laws.WordForm.Statement (.remu f) :=
  wordA _ 0x01#6 0x0A f (fun _ _ => rfl) rfl rfl
theorem Sys2Proof.Laws.WordForm.min (f : FmtA) : Sys2Proof.Laws.WordForm.Statement (.min f) :=
  wordA _ 0x01#6 0x0B f (fun _ _ => rfl) rfl rfl
theorem Sys2Proof.Laws.WordForm.max (f : FmtA) : Sys2Proof.Laws.WordForm.Statement (.max f) :=
  wordA _ 0x01#6 0x0C f (fun _ _ => rfl) rfl rfl
theorem Sys2Proof.Laws.WordForm.minu (f : FmtA) : Sys2Proof.Laws.WordForm.Statement (.minu f) :=
  wordA _ 0x01#6 0x0D f (fun _ _ => rfl) rfl rfl
theorem Sys2Proof.Laws.WordForm.maxu (f : FmtA) : Sys2Proof.Laws.WordForm.Statement (.maxu f) :=
  wordA _ 0x01#6 0x0E f (fun _ _ => rfl) rfl rfl
theorem Sys2Proof.Laws.WordForm.abs (f : FmtA) : Sys2Proof.Laws.WordForm.Statement (.abs f) :=
  wordA _ 0x01#6 0x0F f (fun _ _ => rfl) rfl rfl
theorem Sys2Proof.Laws.WordForm.neg (f : FmtA) : Sys2Proof.Laws.WordForm.Statement (.neg f) :=
  wordA _ 0x01#6 0x10 f (fun _ _ => rfl) rfl rfl
theorem Sys2Proof.Laws.WordForm.addsat (f : FmtA) : Sys2Proof.Laws.WordForm.Statement (.addsat f) :=
  wordA _ 0x01#6 0x11 f (fun _ _ => rfl) rfl rfl
theorem Sys2Proof.Laws.WordForm.subsat (f : FmtA) : Sys2Proof.Laws.WordForm.Statement (.subsat f) :=
  wordA _ 0x01#6 0x12 f (fun _ _ => rfl) rfl rfl
theorem Sys2Proof.Laws.WordForm.addx (f : FmtA) : Sys2Proof.Laws.WordForm.Statement (.addx f) :=
  wordA _ 0x01#6 0x13 f (fun _ _ => rfl) rfl rfl
theorem Sys2Proof.Laws.WordForm.and (f : FmtA) : Sys2Proof.Laws.WordForm.Statement (.and f) :=
  wordA _ 0x01#6 0x14 f (fun _ _ => rfl) rfl rfl
theorem Sys2Proof.Laws.WordForm.or (f : FmtA) : Sys2Proof.Laws.WordForm.Statement (.or f) :=
  wordA _ 0x01#6 0x15 f (fun _ _ => rfl) rfl rfl
theorem Sys2Proof.Laws.WordForm.xor (f : FmtA) : Sys2Proof.Laws.WordForm.Statement (.xor f) :=
  wordA _ 0x01#6 0x16 f (fun _ _ => rfl) rfl rfl
theorem Sys2Proof.Laws.WordForm.andn (f : FmtA) : Sys2Proof.Laws.WordForm.Statement (.andn f) :=
  wordA _ 0x01#6 0x17 f (fun _ _ => rfl) rfl rfl
theorem Sys2Proof.Laws.WordForm.not (f : FmtA) : Sys2Proof.Laws.WordForm.Statement (.not f) :=
  wordA _ 0x01#6 0x18 f (fun _ _ => rfl) rfl rfl
theorem Sys2Proof.Laws.WordForm.shl (f : FmtA) : Sys2Proof.Laws.WordForm.Statement (.shl f) :=
  wordA _ 0x01#6 0x19 f (fun _ _ => rfl) rfl rfl
theorem Sys2Proof.Laws.WordForm.shr (f : FmtA) : Sys2Proof.Laws.WordForm.Statement (.shr f) :=
  wordA _ 0x01#6 0x1A f (fun _ _ => rfl) rfl rfl
theorem Sys2Proof.Laws.WordForm.sar (f : FmtA) : Sys2Proof.Laws.WordForm.Statement (.sar f) :=
  wordA _ 0x01#6 0x1B f (fun _ _ => rfl) rfl rfl
theorem Sys2Proof.Laws.WordForm.rol (f : FmtA) : Sys2Proof.Laws.WordForm.Statement (.rol f) :=
  wordA _ 0x01#6 0x1C f (fun _ _ => rfl) rfl rfl
theorem Sys2Proof.Laws.WordForm.ror (f : FmtA) : Sys2Proof.Laws.WordForm.Statement (.ror f) :=
  wordA _ 0x01#6 0x1D f (fun _ _ => rfl) rfl rfl
theorem Sys2Proof.Laws.WordForm.bfx (f : FmtA) : Sys2Proof.Laws.WordForm.Statement (.bfx f) :=
  wordA _ 0x01#6 0x1E f (fun _ _ => rfl) rfl rfl
theorem Sys2Proof.Laws.WordForm.bfi (f : FmtA) : Sys2Proof.Laws.WordForm.Statement (.bfi f) :=
  wordA _ 0x01#6 0x1F f (fun _ _ => rfl) rfl rfl
theorem Sys2Proof.Laws.WordForm.popc (f : FmtA) : Sys2Proof.Laws.WordForm.Statement (.popc f) :=
  wordA _ 0x01#6 0x20 f (fun _ _ => rfl) rfl rfl
theorem Sys2Proof.Laws.WordForm.clz (f : FmtA) : Sys2Proof.Laws.WordForm.Statement (.clz f) :=
  wordA _ 0x01#6 0x21 f (fun _ _ => rfl) rfl rfl
theorem Sys2Proof.Laws.WordForm.ctz (f : FmtA) : Sys2Proof.Laws.WordForm.Statement (.ctz f) :=
  wordA _ 0x01#6 0x22 f (fun _ _ => rfl) rfl rfl
theorem Sys2Proof.Laws.WordForm.brev (f : FmtA) : Sys2Proof.Laws.WordForm.Statement (.brev f) :=
  wordA _ 0x01#6 0x23 f (fun _ _ => rfl) rfl rfl
theorem Sys2Proof.Laws.WordForm.prmt (f : FmtA) : Sys2Proof.Laws.WordForm.Statement (.prmt f) :=
  wordA _ 0x01#6 0x24 f (fun _ _ => rfl) rfl rfl
theorem Sys2Proof.Laws.WordForm.sel (f : FmtA) : Sys2Proof.Laws.WordForm.Statement (.sel f) :=
  wordA _ 0x01#6 0x25 f (fun _ _ => rfl) rfl rfl
theorem Sys2Proof.Laws.WordForm.lea (f : FmtA) : Sys2Proof.Laws.WordForm.Statement (.lea f) :=
  wordA _ 0x01#6 0x26 f (fun _ _ => rfl) rfl rfl
theorem Sys2Proof.Laws.WordForm.dp4 (f : FmtA) : Sys2Proof.Laws.WordForm.Statement (.dp4 f) :=
  wordA _ 0x01#6 0x27 f (fun _ _ => rfl) rfl rfl
theorem Sys2Proof.Laws.WordForm.dp2 (f : FmtA) : Sys2Proof.Laws.WordForm.Statement (.dp2 f) :=
  wordA _ 0x01#6 0x28 f (fun _ _ => rfl) rfl rfl
theorem Sys2Proof.Laws.WordForm.addImm (f : FmtI) : Sys2Proof.Laws.WordForm.Statement (.addImm f) :=
  wordI _ 0x02#6 0x00 f (fun _ _ => rfl) rfl rfl
theorem Sys2Proof.Laws.WordForm.movi (f : FmtI) : Sys2Proof.Laws.WordForm.Statement (.movi f) :=
  wordI _ 0x02#6 0x01 f (fun _ _ => rfl) rfl rfl
theorem Sys2Proof.Laws.WordForm.mulImm (f : FmtI) : Sys2Proof.Laws.WordForm.Statement (.mulImm f) :=
  wordI _ 0x02#6 0x02 f (fun _ _ => rfl) rfl rfl
theorem Sys2Proof.Laws.WordForm.minImm (f : FmtI) : Sys2Proof.Laws.WordForm.Statement (.minImm f) :=
  wordI _ 0x02#6 0x03 f (fun _ _ => rfl) rfl rfl
theorem Sys2Proof.Laws.WordForm.maxImm (f : FmtI) : Sys2Proof.Laws.WordForm.Statement (.maxImm f) :=
  wordI _ 0x02#6 0x04 f (fun _ _ => rfl) rfl rfl
theorem Sys2Proof.Laws.WordForm.minuImm (f : FmtI) : Sys2Proof.Laws.WordForm.Statement (.minuImm f) :=
  wordI _ 0x02#6 0x05 f (fun _ _ => rfl) rfl rfl
theorem Sys2Proof.Laws.WordForm.maxuImm (f : FmtI) : Sys2Proof.Laws.WordForm.Statement (.maxuImm f) :=
  wordI _ 0x02#6 0x06 f (fun _ _ => rfl) rfl rfl
theorem Sys2Proof.Laws.WordForm.andImm (f : FmtI) : Sys2Proof.Laws.WordForm.Statement (.andImm f) :=
  wordI _ 0x02#6 0x07 f (fun _ _ => rfl) rfl rfl
theorem Sys2Proof.Laws.WordForm.orImm (f : FmtI) : Sys2Proof.Laws.WordForm.Statement (.orImm f) :=
  wordI _ 0x02#6 0x08 f (fun _ _ => rfl) rfl rfl
theorem Sys2Proof.Laws.WordForm.xorImm (f : FmtI) : Sys2Proof.Laws.WordForm.Statement (.xorImm f) :=
  wordI _ 0x02#6 0x09 f (fun _ _ => rfl) rfl rfl
theorem Sys2Proof.Laws.WordForm.shlImm (f : FmtI) : Sys2Proof.Laws.WordForm.Statement (.shlImm f) :=
  wordI _ 0x02#6 0x0A f (fun _ _ => rfl) rfl rfl
theorem Sys2Proof.Laws.WordForm.shrImm (f : FmtI) : Sys2Proof.Laws.WordForm.Statement (.shrImm f) :=
  wordI _ 0x02#6 0x0B f (fun _ _ => rfl) rfl rfl
theorem Sys2Proof.Laws.WordForm.sarImm (f : FmtI) : Sys2Proof.Laws.WordForm.Statement (.sarImm f) :=
  wordI _ 0x02#6 0x0C f (fun _ _ => rfl) rfl rfl
theorem Sys2Proof.Laws.WordForm.rolImm (f : FmtI) : Sys2Proof.Laws.WordForm.Statement (.rolImm f) :=
  wordI _ 0x02#6 0x0D f (fun _ _ => rfl) rfl rfl
theorem Sys2Proof.Laws.WordForm.rorImm (f : FmtI) : Sys2Proof.Laws.WordForm.Statement (.rorImm f) :=
  wordI _ 0x02#6 0x0E f (fun _ _ => rfl) rfl rfl
theorem Sys2Proof.Laws.WordForm.bfxImm (f : FmtI) : Sys2Proof.Laws.WordForm.Statement (.bfxImm f) :=
  wordI _ 0x02#6 0x0F f (fun _ _ => rfl) rfl rfl
theorem Sys2Proof.Laws.WordForm.addd (f : FmtA) : Sys2Proof.Laws.WordForm.Statement (.addd f) :=
  wordA _ 0x03#6 0x00 f (fun _ _ => rfl) rfl rfl
theorem Sys2Proof.Laws.WordForm.subd (f : FmtA) : Sys2Proof.Laws.WordForm.Statement (.subd f) :=
  wordA _ 0x03#6 0x01 f (fun _ _ => rfl) rfl rfl
theorem Sys2Proof.Laws.WordForm.shld (f : FmtA) : Sys2Proof.Laws.WordForm.Statement (.shld f) :=
  wordA _ 0x03#6 0x02 f (fun _ _ => rfl) rfl rfl
theorem Sys2Proof.Laws.WordForm.shrd (f : FmtA) : Sys2Proof.Laws.WordForm.Statement (.shrd f) :=
  wordA _ 0x03#6 0x03 f (fun _ _ => rfl) rfl rfl
theorem Sys2Proof.Laws.WordForm.mulwd (f : FmtA) : Sys2Proof.Laws.WordForm.Statement (.mulwd f) :=
  wordA _ 0x03#6 0x04 f (fun _ _ => rfl) rfl rfl
theorem Sys2Proof.Laws.WordForm.madwd (f : FmtA) : Sys2Proof.Laws.WordForm.Statement (.madwd f) :=
  wordA _ 0x03#6 0x05 f (fun _ _ => rfl) rfl rfl
theorem Sys2Proof.Laws.WordForm.lead (f : FmtA) : Sys2Proof.Laws.WordForm.Statement (.lead f) :=
  wordA _ 0x03#6 0x06 f (fun _ _ => rfl) rfl rfl
theorem Sys2Proof.Laws.WordForm.adddImm (f : FmtI) : Sys2Proof.Laws.WordForm.Statement (.adddImm f) :=
  wordI _ 0x04#6 0x00 f (fun _ _ => rfl) rfl rfl
theorem Sys2Proof.Laws.WordForm.subdImm (f : FmtI) : Sys2Proof.Laws.WordForm.Statement (.subdImm f) :=
  wordI _ 0x04#6 0x01 f (fun _ _ => rfl) rfl rfl
theorem Sys2Proof.Laws.WordForm.shldImm (f : FmtI) : Sys2Proof.Laws.WordForm.Statement (.shldImm f) :=
  wordI _ 0x04#6 0x02 f (fun _ _ => rfl) rfl rfl
theorem Sys2Proof.Laws.WordForm.shrdImm (f : FmtI) : Sys2Proof.Laws.WordForm.Statement (.shrdImm f) :=
  wordI _ 0x04#6 0x03 f (fun _ _ => rfl) rfl rfl
theorem Sys2Proof.Laws.WordForm.mulwdImm (f : FmtI) : Sys2Proof.Laws.WordForm.Statement (.mulwdImm f) :=
  wordI _ 0x04#6 0x04 f (fun _ _ => rfl) rfl rfl
theorem Sys2Proof.Laws.WordForm.leadImm (f : FmtI) : Sys2Proof.Laws.WordForm.Statement (.leadImm f) :=
  wordI _ 0x04#6 0x05 f (fun _ _ => rfl) rfl rfl
theorem Sys2Proof.Laws.WordForm.leapc (f : FmtI) : Sys2Proof.Laws.WordForm.Statement (.leapc f) :=
  wordI _ 0x04#6 0x06 f (fun _ _ => rfl) rfl rfl
theorem Sys2Proof.Laws.WordForm.sadd (f : FmtA) : Sys2Proof.Laws.WordForm.Statement (.sadd f) :=
  wordA _ 0x05#6 0x00 f (fun _ _ => rfl) rfl rfl
theorem Sys2Proof.Laws.WordForm.ssub (f : FmtA) : Sys2Proof.Laws.WordForm.Statement (.ssub f) :=
  wordA _ 0x05#6 0x01 f (fun _ _ => rfl) rfl rfl
theorem Sys2Proof.Laws.WordForm.smul (f : FmtA) : Sys2Proof.Laws.WordForm.Statement (.smul f) :=
  wordA _ 0x05#6 0x02 f (fun _ _ => rfl) rfl rfl
theorem Sys2Proof.Laws.WordForm.sand (f : FmtA) : Sys2Proof.Laws.WordForm.Statement (.sand f) :=
  wordA _ 0x05#6 0x03 f (fun _ _ => rfl) rfl rfl
theorem Sys2Proof.Laws.WordForm.sor (f : FmtA) : Sys2Proof.Laws.WordForm.Statement (.sor f) :=
  wordA _ 0x05#6 0x04 f (fun _ _ => rfl) rfl rfl
theorem Sys2Proof.Laws.WordForm.sxor (f : FmtA) : Sys2Proof.Laws.WordForm.Statement (.sxor f) :=
  wordA _ 0x05#6 0x05 f (fun _ _ => rfl) rfl rfl
theorem Sys2Proof.Laws.WordForm.sshl (f : FmtA) : Sys2Proof.Laws.WordForm.Statement (.sshl f) :=
  wordA _ 0x05#6 0x06 f (fun _ _ => rfl) rfl rfl
theorem Sys2Proof.Laws.WordForm.sshr (f : FmtA) : Sys2Proof.Laws.WordForm.Statement (.sshr f) :=
  wordA _ 0x05#6 0x07 f (fun _ _ => rfl) rfl rfl
theorem Sys2Proof.Laws.WordForm.ssar (f : FmtA) : Sys2Proof.Laws.WordForm.Statement (.ssar f) :=
  wordA _ 0x05#6 0x08 f (fun _ _ => rfl) rfl rfl
theorem Sys2Proof.Laws.WordForm.smin (f : FmtA) : Sys2Proof.Laws.WordForm.Statement (.smin f) :=
  wordA _ 0x05#6 0x09 f (fun _ _ => rfl) rfl rfl
theorem Sys2Proof.Laws.WordForm.smax (f : FmtA) : Sys2Proof.Laws.WordForm.Statement (.smax f) :=
  wordA _ 0x05#6 0x0A f (fun _ _ => rfl) rfl rfl
theorem Sys2Proof.Laws.WordForm.smov (f : FmtA) : Sys2Proof.Laws.WordForm.Statement (.smov f) :=
  wordA _ 0x05#6 0x0B f (fun _ _ => rfl) rfl rfl
theorem Sys2Proof.Laws.WordForm.sld (f : FmtA) : Sys2Proof.Laws.WordForm.Statement (.sld f) :=
  wordA _ 0x05#6 0x0C f (fun _ _ => rfl) rfl rfl
theorem Sys2Proof.Laws.WordForm.saddImm (f : FmtI) : Sys2Proof.Laws.WordForm.Statement (.saddImm f) :=
  wordI _ 0x06#6 0x00 f (fun _ _ => rfl) rfl rfl
theorem Sys2Proof.Laws.WordForm.smovi (f : FmtI) : Sys2Proof.Laws.WordForm.Statement (.smovi f) :=
  wordI _ 0x06#6 0x01 f (fun _ _ => rfl) rfl rfl
theorem Sys2Proof.Laws.WordForm.smulImm (f : FmtI) : Sys2Proof.Laws.WordForm.Statement (.smulImm f) :=
  wordI _ 0x06#6 0x02 f (fun _ _ => rfl) rfl rfl
theorem Sys2Proof.Laws.WordForm.sandImm (f : FmtI) : Sys2Proof.Laws.WordForm.Statement (.sandImm f) :=
  wordI _ 0x06#6 0x03 f (fun _ _ => rfl) rfl rfl
theorem Sys2Proof.Laws.WordForm.sorImm (f : FmtI) : Sys2Proof.Laws.WordForm.Statement (.sorImm f) :=
  wordI _ 0x06#6 0x04 f (fun _ _ => rfl) rfl rfl
theorem Sys2Proof.Laws.WordForm.sxorImm (f : FmtI) : Sys2Proof.Laws.WordForm.Statement (.sxorImm f) :=
  wordI _ 0x06#6 0x05 f (fun _ _ => rfl) rfl rfl
theorem Sys2Proof.Laws.WordForm.sshlImm (f : FmtI) : Sys2Proof.Laws.WordForm.Statement (.sshlImm f) :=
  wordI _ 0x06#6 0x06 f (fun _ _ => rfl) rfl rfl
theorem Sys2Proof.Laws.WordForm.sshrImm (f : FmtI) : Sys2Proof.Laws.WordForm.Statement (.sshrImm f) :=
  wordI _ 0x06#6 0x07 f (fun _ _ => rfl) rfl rfl
theorem Sys2Proof.Laws.WordForm.ssarImm (f : FmtI) : Sys2Proof.Laws.WordForm.Statement (.ssarImm f) :=
  wordI _ 0x06#6 0x08 f (fun _ _ => rfl) rfl rfl
theorem Sys2Proof.Laws.WordForm.sminImm (f : FmtI) : Sys2Proof.Laws.WordForm.Statement (.sminImm f) :=
  wordI _ 0x06#6 0x09 f (fun _ _ => rfl) rfl rfl
theorem Sys2Proof.Laws.WordForm.smaxImm (f : FmtI) : Sys2Proof.Laws.WordForm.Statement (.smaxImm f) :=
  wordI _ 0x06#6 0x0A f (fun _ _ => rfl) rfl rfl
theorem Sys2Proof.Laws.WordForm.sldImm (f : FmtI) : Sys2Proof.Laws.WordForm.Statement (.sldImm f) :=
  wordI _ 0x06#6 0x0B f (fun _ _ => rfl) rfl rfl
theorem Sys2Proof.Laws.WordForm.mov (f : FmtA) : Sys2Proof.Laws.WordForm.Statement (.mov f) :=
  wordA _ 0x07#6 0x00 f (fun _ _ => rfl) rfl rfl
theorem Sys2Proof.Laws.WordForm.rdfl (f : FmtA) : Sys2Proof.Laws.WordForm.Statement (.rdfl f) :=
  wordA _ 0x07#6 0x01 f (fun _ _ => rfl) rfl rfl
theorem Sys2Proof.Laws.WordForm.rdflS (f : FmtA) : Sys2Proof.Laws.WordForm.Statement (.rdflS f) :=
  wordA _ 0x07#6 0x02 f (fun _ _ => rfl) rfl rfl
theorem Sys2Proof.Laws.WordForm.rdln (f : FmtA) : Sys2Proof.Laws.WordForm.Statement (.rdln f) :=
  wordA _ 0x07#6 0x03 f (fun _ _ => rfl) rfl rfl
theorem Sys2Proof.Laws.WordForm.bcast (f : FmtA) : Sys2Proof.Laws.WordForm.Statement (.bcast f) :=
  wordA _ 0x07#6 0x04 f (fun _ _ => rfl) rfl rfl
theorem Sys2Proof.Laws.WordForm.shfl (f : FmtA) : Sys2Proof.Laws.WordForm.Statement (.shfl f) :=
  wordA _ 0x07#6 0x05 f (fun _ _ => rfl) rfl rfl
theorem Sys2Proof.Laws.WordForm.elect (f : FmtA) : Sys2Proof.Laws.WordForm.Statement (.elect f) :=
  wordA _ 0x07#6 0x06 f (fun _ _ => rfl) rfl rfl
theorem Sys2Proof.Laws.WordForm.ballot (f : FmtA) : Sys2Proof.Laws.WordForm.Statement (.ballot f) :=
  wordA _ 0x07#6 0x07 f (fun _ _ => rfl) rfl rfl
theorem Sys2Proof.Laws.WordForm.ballotS (f : FmtA) : Sys2Proof.Laws.WordForm.Statement (.ballotS f) :=
  wordA _ 0x07#6 0x08 f (fun _ _ => rfl) rfl rfl
theorem Sys2Proof.Laws.WordForm.matchEq (f : FmtA) : Sys2Proof.Laws.WordForm.Statement (.matchEq f) :=
  wordA _ 0x07#6 0x09 f (fun _ _ => rfl) rfl rfl
theorem Sys2Proof.Laws.WordForm.pmov (f : FmtA) : Sys2Proof.Laws.WordForm.Statement (.pmov f) :=
  wordA _ 0x07#6 0x0A f (fun _ _ => rfl) rfl rfl
theorem Sys2Proof.Laws.WordForm.pmovToGuards (f : FmtA) : Sys2Proof.Laws.WordForm.Statement (.pmovToGuards f) :=
  wordA _ 0x07#6 0x0A f (fun _ _ => rfl) rfl rfl
theorem Sys2Proof.Laws.WordForm.fadd (f : FmtA) : Sys2Proof.Laws.WordForm.Statement (.fadd f) :=
  wordA _ 0x08#6 0x00 f (fun _ _ => rfl) rfl rfl
theorem Sys2Proof.Laws.WordForm.fsub (f : FmtA) : Sys2Proof.Laws.WordForm.Statement (.fsub f) :=
  wordA _ 0x08#6 0x01 f (fun _ _ => rfl) rfl rfl
theorem Sys2Proof.Laws.WordForm.fmul (f : FmtA) : Sys2Proof.Laws.WordForm.Statement (.fmul f) :=
  wordA _ 0x08#6 0x02 f (fun _ _ => rfl) rfl rfl
theorem Sys2Proof.Laws.WordForm.ffma (f : FmtA) : Sys2Proof.Laws.WordForm.Statement (.ffma f) :=
  wordA _ 0x08#6 0x03 f (fun _ _ => rfl) rfl rfl
theorem Sys2Proof.Laws.WordForm.fmin (f : FmtA) : Sys2Proof.Laws.WordForm.Statement (.fmin f) :=
  wordA _ 0x08#6 0x04 f (fun _ _ => rfl) rfl rfl
theorem Sys2Proof.Laws.WordForm.fmax (f : FmtA) : Sys2Proof.Laws.WordForm.Statement (.fmax f) :=
  wordA _ 0x08#6 0x05 f (fun _ _ => rfl) rfl rfl
theorem Sys2Proof.Laws.WordForm.fclamp (f : FmtA) : Sys2Proof.Laws.WordForm.Statement (.fclamp f) :=
  wordA _ 0x08#6 0x06 f (fun _ _ => rfl) rfl rfl
theorem Sys2Proof.Laws.WordForm.frint (f : FmtA) : Sys2Proof.Laws.WordForm.Statement (.frint f) :=
  wordA _ 0x08#6 0x07 f (fun _ _ => rfl) rfl rfl
theorem Sys2Proof.Laws.WordForm.fscale (f : FmtA) : Sys2Proof.Laws.WordForm.Statement (.fscale f) :=
  wordA _ 0x08#6 0x08 f (fun _ _ => rfl) rfl rfl
theorem Sys2Proof.Laws.WordForm.fdiv (f : FmtA) : Sys2Proof.Laws.WordForm.Statement (.fdiv f) :=
  wordA _ 0x08#6 0x09 f (fun _ _ => rfl) rfl rfl
theorem Sys2Proof.Laws.WordForm.fsqrt (f : FmtA) : Sys2Proof.Laws.WordForm.Statement (.fsqrt f) :=
  wordA _ 0x08#6 0x0A f (fun _ _ => rfl) rfl rfl
theorem Sys2Proof.Laws.WordForm.fabsneg (f : FmtA) : Sys2Proof.Laws.WordForm.Statement (.fabsneg f) :=
  wordA _ 0x08#6 0x0B f (fun _ _ => rfl) rfl rfl
theorem Sys2Proof.Laws.WordForm.hadd2 (f : FmtA) : Sys2Proof.Laws.WordForm.Statement (.hadd2 f) :=
  wordA _ 0x09#6 0x00 f (fun _ _ => rfl) rfl rfl
theorem Sys2Proof.Laws.WordForm.hsub2 (f : FmtA) : Sys2Proof.Laws.WordForm.Statement (.hsub2 f) :=
  wordA _ 0x09#6 0x01 f (fun _ _ => rfl) rfl rfl
theorem Sys2Proof.Laws.WordForm.hmul2 (f : FmtA) : Sys2Proof.Laws.WordForm.Statement (.hmul2 f) :=
  wordA _ 0x09#6 0x02 f (fun _ _ => rfl) rfl rfl
theorem Sys2Proof.Laws.WordForm.hfma2 (f : FmtA) : Sys2Proof.Laws.WordForm.Statement (.hfma2 f) :=
  wordA _ 0x09#6 0x03 f (fun _ _ => rfl) rfl rfl
theorem Sys2Proof.Laws.WordForm.hmin2 (f : FmtA) : Sys2Proof.Laws.WordForm.Statement (.hmin2 f) :=
  wordA _ 0x09#6 0x04 f (fun _ _ => rfl) rfl rfl
theorem Sys2Proof.Laws.WordForm.hmax2 (f : FmtA) : Sys2Proof.Laws.WordForm.Statement (.hmax2 f) :=
  wordA _ 0x09#6 0x05 f (fun _ _ => rfl) rfl rfl
theorem Sys2Proof.Laws.WordForm.hdot2 (f : FmtA) : Sys2Proof.Laws.WordForm.Statement (.hdot2 f) :=
  wordA _ 0x09#6 0x06 f (fun _ _ => rfl) rfl rfl
theorem Sys2Proof.Laws.WordForm.dadd (f : FmtA) : Sys2Proof.Laws.WordForm.Statement (.dadd f) :=
  wordA _ 0x0A#6 0x00 f (fun _ _ => rfl) rfl rfl
theorem Sys2Proof.Laws.WordForm.dmul (f : FmtA) : Sys2Proof.Laws.WordForm.Statement (.dmul f) :=
  wordA _ 0x0A#6 0x01 f (fun _ _ => rfl) rfl rfl
theorem Sys2Proof.Laws.WordForm.dfma (f : FmtA) : Sys2Proof.Laws.WordForm.Statement (.dfma f) :=
  wordA _ 0x0A#6 0x02 f (fun _ _ => rfl) rfl rfl
theorem Sys2Proof.Laws.WordForm.dmin (f : FmtA) : Sys2Proof.Laws.WordForm.Statement (.dmin f) :=
  wordA _ 0x0A#6 0x03 f (fun _ _ => rfl) rfl rfl
theorem Sys2Proof.Laws.WordForm.dmax (f : FmtA) : Sys2Proof.Laws.WordForm.Statement (.dmax f) :=
  wordA _ 0x0A#6 0x04 f (fun _ _ => rfl) rfl rfl
theorem Sys2Proof.Laws.WordForm.ddiv (f : FmtA) : Sys2Proof.Laws.WordForm.Statement (.ddiv f) :=
  wordA _ 0x0A#6 0x05 f (fun _ _ => rfl) rfl rfl
theorem Sys2Proof.Laws.WordForm.dsqrt (f : FmtA) : Sys2Proof.Laws.WordForm.Statement (.dsqrt f) :=
  wordA _ 0x0A#6 0x06 f (fun _ _ => rfl) rfl rfl
theorem Sys2Proof.Laws.WordForm.cvtif (f : FmtA) : Sys2Proof.Laws.WordForm.Statement (.cvtif f) :=
  wordA _ 0x0B#6 0x00 f (fun _ _ => rfl) rfl rfl
theorem Sys2Proof.Laws.WordForm.cvtfi (f : FmtA) : Sys2Proof.Laws.WordForm.Statement (.cvtfi f) :=
  wordA _ 0x0B#6 0x01 f (fun _ _ => rfl) rfl rfl
theorem Sys2Proof.Laws.WordForm.cvtff (f : FmtA) : Sys2Proof.Laws.WordForm.Statement (.cvtff f) :=
  wordA _ 0x0B#6 0x02 f (fun _ _ => rfl) rfl rfl
theorem Sys2Proof.Laws.WordForm.pkf8 (f : FmtA) : Sys2Proof.Laws.WordForm.Statement (.pkf8 f) :=
  wordA _ 0x0B#6 0x03 f (fun _ _ => rfl) rfl rfl
theorem Sys2Proof.Laws.WordForm.upf8 (f : FmtA) : Sys2Proof.Laws.WordForm.Statement (.upf8 f) :=
  wordA _ 0x0B#6 0x04 f (fun _ _ => rfl) rfl rfl
theorem Sys2Proof.Laws.WordForm.pkh (f : FmtA) : Sys2Proof.Laws.WordForm.Statement (.pkh f) :=
  wordA _ 0x0B#6 0x05 f (fun _ _ => rfl) rfl rfl
theorem Sys2Proof.Laws.WordForm.rcp (f : FmtA) : Sys2Proof.Laws.WordForm.Statement (.rcp f) :=
  wordA _ 0x0C#6 0x00 f (fun _ _ => rfl) rfl rfl
theorem Sys2Proof.Laws.WordForm.rsq (f : FmtA) : Sys2Proof.Laws.WordForm.Statement (.rsq f) :=
  wordA _ 0x0C#6 0x01 f (fun _ _ => rfl) rfl rfl
theorem Sys2Proof.Laws.WordForm.sqrta (f : FmtA) : Sys2Proof.Laws.WordForm.Statement (.sqrta f) :=
  wordA _ 0x0C#6 0x02 f (fun _ _ => rfl) rfl rfl
theorem Sys2Proof.Laws.WordForm.exp2 (f : FmtA) : Sys2Proof.Laws.WordForm.Statement (.exp2 f) :=
  wordA _ 0x0C#6 0x03 f (fun _ _ => rfl) rfl rfl
theorem Sys2Proof.Laws.WordForm.log2 (f : FmtA) : Sys2Proof.Laws.WordForm.Statement (.log2 f) :=
  wordA _ 0x0C#6 0x04 f (fun _ _ => rfl) rfl rfl
theorem Sys2Proof.Laws.WordForm.sin (f : FmtA) : Sys2Proof.Laws.WordForm.Statement (.sin f) :=
  wordA _ 0x0C#6 0x05 f (fun _ _ => rfl) rfl rfl
theorem Sys2Proof.Laws.WordForm.cos (f : FmtA) : Sys2Proof.Laws.WordForm.Statement (.cos f) :=
  wordA _ 0x0C#6 0x06 f (fun _ _ => rfl) rfl rfl
theorem Sys2Proof.Laws.WordForm.tanh (f : FmtA) : Sys2Proof.Laws.WordForm.Statement (.tanh f) :=
  wordA _ 0x0C#6 0x07 f (fun _ _ => rfl) rfl rfl
theorem Sys2Proof.Laws.WordForm.bpack (f : FmtA) : Sys2Proof.Laws.WordForm.Statement (.bpack f) :=
  wordA _ 0x0D#6 0x00 f (fun _ _ => rfl) rfl rfl
theorem Sys2Proof.Laws.WordForm.bunpk (f : FmtA) : Sys2Proof.Laws.WordForm.Statement (.bunpk f) :=
  wordA _ 0x0D#6 0x01 f (fun _ _ => rfl) rfl rfl
theorem Sys2Proof.Laws.WordForm.bexp (f : FmtA) : Sys2Proof.Laws.WordForm.Statement (.bexp f) :=
  wordA _ 0x0D#6 0x02 f (fun _ _ => rfl) rfl rfl
theorem Sys2Proof.Laws.WordForm.setp (f : FmtA) : Sys2Proof.Laws.WordForm.Statement (.setp f) :=
  wordA _ 0x0E#6 0x00 f (fun _ _ => rfl) rfl rfl
theorem Sys2Proof.Laws.WordForm.fsetp (f : FmtA) : Sys2Proof.Laws.WordForm.Statement (.fsetp f) :=
  wordA _ 0x0E#6 0x01 f (fun _ _ => rfl) rfl rfl
theorem Sys2Proof.Laws.WordForm.pand (f : FmtA) : Sys2Proof.Laws.WordForm.Statement (.pand f) :=
  wordA _ 0x0E#6 0x02 f (fun _ _ => rfl) rfl rfl
theorem Sys2Proof.Laws.WordForm.por (f : FmtA) : Sys2Proof.Laws.WordForm.Statement (.por f) :=
  wordA _ 0x0E#6 0x03 f (fun _ _ => rfl) rfl rfl
theorem Sys2Proof.Laws.WordForm.pxor (f : FmtA) : Sys2Proof.Laws.WordForm.Statement (.pxor f) :=
  wordA _ 0x0E#6 0x04 f (fun _ _ => rfl) rfl rfl
theorem Sys2Proof.Laws.WordForm.pnot (f : FmtA) : Sys2Proof.Laws.WordForm.Statement (.pnot f) :=
  wordA _ 0x0E#6 0x05 f (fun _ _ => rfl) rfl rfl
theorem Sys2Proof.Laws.WordForm.vote (f : FmtA) : Sys2Proof.Laws.WordForm.Statement (.vote f) :=
  wordA _ 0x0E#6 0x06 f (fun _ _ => rfl) rfl rfl
theorem Sys2Proof.Laws.WordForm.alwp (f : FmtA) : Sys2Proof.Laws.WordForm.Statement (.alwp f) :=
  wordA _ 0x0E#6 0x07 f (fun _ _ => rfl) rfl rfl
theorem Sys2Proof.Laws.WordForm.ssetp (f : FmtA) : Sys2Proof.Laws.WordForm.Statement (.ssetp f) :=
  wordA _ 0x0E#6 0x08 f (fun _ _ => rfl) rfl rfl
theorem Sys2Proof.Laws.WordForm.bra (off : BitVec 40) : Sys2Proof.Laws.WordForm.Statement (.bra off) :=
  wordB _ _ _ (fun _ _ => rfl) rfl
theorem Sys2Proof.Laws.WordForm.call (f : FmtB) : Sys2Proof.Laws.WordForm.Statement (.call f) :=
  wordB _ _ _ (fun _ _ => rfl) rfl
theorem Sys2Proof.Laws.WordForm.jr (f : FmtA) : Sys2Proof.Laws.WordForm.Statement (.jr f) :=
  wordA _ 0x11#6 0x00 f (fun _ _ => rfl) rfl rfl
theorem Sys2Proof.Laws.WordForm.callr (f : FmtA) : Sys2Proof.Laws.WordForm.Statement (.callr f) :=
  wordA _ 0x11#6 0x01 f (fun _ _ => rfl) rfl rfl
theorem Sys2Proof.Laws.WordForm.ret (f : FmtA) : Sys2Proof.Laws.WordForm.Statement (.ret f) :=
  wordA _ 0x11#6 0x02 f (fun _ _ => rfl) rfl rfl
theorem Sys2Proof.Laws.WordForm.jrs (f : FmtA) : Sys2Proof.Laws.WordForm.Statement (.jrs f) :=
  wordA _ 0x11#6 0x03 f (fun _ _ => rfl) rfl rfl
theorem Sys2Proof.Laws.WordForm.meet (f : FmtA) : Sys2Proof.Laws.WordForm.Statement (.meet f) :=
  wordA _ 0x12#6 0x00 f (fun _ _ => rfl) rfl rfl
theorem Sys2Proof.Laws.WordForm.rejoin (f : FmtA) : Sys2Proof.Laws.WordForm.Statement (.rejoin f) :=
  wordA _ 0x12#6 0x01 f (fun _ _ => rfl) rfl rfl
theorem Sys2Proof.Laws.WordForm.loop (f : FmtA) : Sys2Proof.Laws.WordForm.Statement (.loop f) :=
  wordA _ 0x12#6 0x03 f (fun _ _ => rfl) rfl rfl
theorem Sys2Proof.Laws.WordForm.lpexit (f : FmtA) : Sys2Proof.Laws.WordForm.Statement (.lpexit f) :=
  wordA _ 0x12#6 0x04 f (fun _ _ => rfl) rfl rfl
theorem Sys2Proof.Laws.WordForm.migrate (f : FmtA) : Sys2Proof.Laws.WordForm.Statement (.migrate f) :=
  wordA _ 0x13#6 0x00 f (fun _ _ => rfl) rfl rfl
theorem Sys2Proof.Laws.WordForm.fanout (f : FmtA) : Sys2Proof.Laws.WordForm.Statement (.fanout f) :=
  wordA _ 0x13#6 0x01 f (fun _ _ => rfl) rfl rfl
theorem Sys2Proof.Laws.WordForm.sleep (f : FmtA) : Sys2Proof.Laws.WordForm.Statement (.sleep f) :=
  wordA _ 0x13#6 0x04 f (fun _ _ => rfl) rfl rfl
theorem Sys2Proof.Laws.WordForm.wake (f : FmtA) : Sys2Proof.Laws.WordForm.Statement (.wake f) :=
  wordA _ 0x13#6 0x05 f (fun _ _ => rfl) rfl rfl
theorem Sys2Proof.Laws.WordForm.bar (f : FmtA) : Sys2Proof.Laws.WordForm.Statement (.bar f) :=
  wordA _ 0x14#6 0x00 f (fun _ _ => rfl) rfl rfl
theorem Sys2Proof.Laws.WordForm.waitv (f : FmtA) : Sys2Proof.Laws.WordForm.Statement (.waitv f) :=
  wordA _ 0x14#6 0x01 f (fun _ _ => rfl) rfl rfl
theorem Sys2Proof.Laws.WordForm.waits (f : FmtA) : Sys2Proof.Laws.WordForm.Statement (.waits f) :=
  wordA _ 0x14#6 0x02 f (fun _ _ => rfl) rfl rfl
theorem Sys2Proof.Laws.WordForm.waitp (f : FmtA) : Sys2Proof.Laws.WordForm.Statement (.waitp f) :=
  wordA _ 0x14#6 0x03 f (fun _ _ => rfl) rfl rfl
theorem Sys2Proof.Laws.WordForm.trap (f : FmtA) : Sys2Proof.Laws.WordForm.Statement (.trap f) :=
  wordA _ 0x15#6 0x02 f (fun _ _ => rfl) rfl rfl
theorem Sys2Proof.Laws.WordForm.brkpt (f : FmtA) : Sys2Proof.Laws.WordForm.Statement (.brkpt f) :=
  wordA _ 0x15#6 0x04 f (fun _ _ => rfl) rfl rfl
theorem Sys2Proof.Laws.WordForm.csrr (f : FmtC) : Sys2Proof.Laws.WordForm.Statement (.csrr f) :=
  wordC _ 0x15#6 0x08 f (fun _ _ => rfl) rfl rfl
theorem Sys2Proof.Laws.WordForm.csrw (f : FmtC) : Sys2Proof.Laws.WordForm.Statement (.csrw f) :=
  wordC _ 0x15#6 0x09 f (fun _ _ => rfl) rfl rfl
theorem Sys2Proof.Laws.WordForm.csrset (f : FmtC) : Sys2Proof.Laws.WordForm.Statement (.csrset f) :=
  wordC _ 0x15#6 0x0A f (fun _ _ => rfl) rfl rfl
theorem Sys2Proof.Laws.WordForm.csrclr (f : FmtC) : Sys2Proof.Laws.WordForm.Statement (.csrclr f) :=
  wordC _ 0x15#6 0x0B f (fun _ _ => rfl) rfl rfl
theorem Sys2Proof.Laws.WordForm.live (off : BitVec 40) : Sys2Proof.Laws.WordForm.Statement (.live off) :=
  wordL _ _ (fun _ _ => rfl) rfl
theorem Sys2Proof.Laws.WordForm.stepBegin (f : FmtA) : Sys2Proof.Laws.WordForm.Statement (.stepBegin f) :=
  wordA _ 0x17#6 0x00 f (fun _ _ => rfl) rfl rfl
theorem Sys2Proof.Laws.WordForm.stepEnd (f : FmtA) : Sys2Proof.Laws.WordForm.Statement (.stepEnd f) :=
  wordA _ 0x17#6 0x00 f (fun _ _ => rfl) rfl rfl
theorem Sys2Proof.Laws.WordForm.ptag (f : FmtA) : Sys2Proof.Laws.WordForm.Statement (.ptag f) :=
  wordA _ 0x17#6 0x01 f (fun _ _ => rfl) rfl rfl
theorem Sys2Proof.Laws.WordForm.ld (f : FmtM) : Sys2Proof.Laws.WordForm.Statement (.ld f) :=
  wordM _ 0x18#6 f (fun _ _ => rfl) rfl rfl
theorem Sys2Proof.Laws.WordForm.st (f : FmtM) : Sys2Proof.Laws.WordForm.Statement (.st f) :=
  wordM _ 0x19#6 f (fun _ _ => rfl) rfl rfl
theorem Sys2Proof.Laws.WordForm.aadd (f : FmtN) : Sys2Proof.Laws.WordForm.Statement (.aadd f) :=
  wordN _ 0x1A#6 0x00 f (fun _ _ => rfl) rfl rfl
theorem Sys2Proof.Laws.WordForm.aand (f : FmtN) : Sys2Proof.Laws.WordForm.Statement (.aand f) :=
  wordN _ 0x1A#6 0x01 f (fun _ _ => rfl) rfl rfl
theorem Sys2Proof.Laws.WordForm.aor (f : FmtN) : Sys2Proof.Laws.WordForm.Statement (.aor f) :=
  wordN _ 0x1A#6 0x02 f (fun _ _ => rfl) rfl rfl
theorem Sys2Proof.Laws.WordForm.axor (f : FmtN) : Sys2Proof.Laws.WordForm.Statement (.axor f) :=
  wordN _ 0x1A#6 0x03 f (fun _ _ => rfl) rfl rfl
theorem Sys2Proof.Laws.WordForm.amin (f : FmtN) : Sys2Proof.Laws.WordForm.Statement (.amin f) :=
  wordN _ 0x1A#6 0x04 f (fun _ _ => rfl) rfl rfl
theorem Sys2Proof.Laws.WordForm.amax (f : FmtN) : Sys2Proof.Laws.WordForm.Statement (.amax f) :=
  wordN _ 0x1A#6 0x05 f (fun _ _ => rfl) rfl rfl
theorem Sys2Proof.Laws.WordForm.aminn (f : FmtN) : Sys2Proof.Laws.WordForm.Statement (.aminn f) :=
  wordN _ 0x1A#6 0x06 f (fun _ _ => rfl) rfl rfl
theorem Sys2Proof.Laws.WordForm.amaxn (f : FmtN) : Sys2Proof.Laws.WordForm.Statement (.amaxn f) :=
  wordN _ 0x1A#6 0x07 f (fun _ _ => rfl) rfl rfl
theorem Sys2Proof.Laws.WordForm.aswap (f : FmtN) : Sys2Proof.Laws.WordForm.Statement (.aswap f) :=
  wordN _ 0x1A#6 0x08 f (fun _ _ => rfl) rfl rfl
theorem Sys2Proof.Laws.WordForm.acas (f : FmtN) : Sys2Proof.Laws.WordForm.Statement (.acas f) :=
  wordN _ 0x1A#6 0x09 f (fun _ _ => rfl) rfl rfl
theorem Sys2Proof.Laws.WordForm.afadd (f : FmtN) : Sys2Proof.Laws.WordForm.Statement (.afadd f) :=
  wordN _ 0x1A#6 0x0A f (fun _ _ => rfl) rfl rfl
theorem Sys2Proof.Laws.WordForm.aaddSpad (f : FmtN) : Sys2Proof.Laws.WordForm.Statement (.aaddSpad f) :=
  wordN _ 0x1D#6 0x00 f (fun _ _ => rfl) rfl rfl
theorem Sys2Proof.Laws.WordForm.aandSpad (f : FmtN) : Sys2Proof.Laws.WordForm.Statement (.aandSpad f) :=
  wordN _ 0x1D#6 0x01 f (fun _ _ => rfl) rfl rfl
theorem Sys2Proof.Laws.WordForm.aorSpad (f : FmtN) : Sys2Proof.Laws.WordForm.Statement (.aorSpad f) :=
  wordN _ 0x1D#6 0x02 f (fun _ _ => rfl) rfl rfl
theorem Sys2Proof.Laws.WordForm.axorSpad (f : FmtN) : Sys2Proof.Laws.WordForm.Statement (.axorSpad f) :=
  wordN _ 0x1D#6 0x03 f (fun _ _ => rfl) rfl rfl
theorem Sys2Proof.Laws.WordForm.aminSpad (f : FmtN) : Sys2Proof.Laws.WordForm.Statement (.aminSpad f) :=
  wordN _ 0x1D#6 0x04 f (fun _ _ => rfl) rfl rfl
theorem Sys2Proof.Laws.WordForm.amaxSpad (f : FmtN) : Sys2Proof.Laws.WordForm.Statement (.amaxSpad f) :=
  wordN _ 0x1D#6 0x05 f (fun _ _ => rfl) rfl rfl
theorem Sys2Proof.Laws.WordForm.aminnSpad (f : FmtN) : Sys2Proof.Laws.WordForm.Statement (.aminnSpad f) :=
  wordN _ 0x1D#6 0x06 f (fun _ _ => rfl) rfl rfl
theorem Sys2Proof.Laws.WordForm.amaxnSpad (f : FmtN) : Sys2Proof.Laws.WordForm.Statement (.amaxnSpad f) :=
  wordN _ 0x1D#6 0x07 f (fun _ _ => rfl) rfl rfl
theorem Sys2Proof.Laws.WordForm.aswapSpad (f : FmtN) : Sys2Proof.Laws.WordForm.Statement (.aswapSpad f) :=
  wordN _ 0x1D#6 0x08 f (fun _ _ => rfl) rfl rfl
theorem Sys2Proof.Laws.WordForm.acasSpad (f : FmtN) : Sys2Proof.Laws.WordForm.Statement (.acasSpad f) :=
  wordN _ 0x1D#6 0x09 f (fun _ _ => rfl) rfl rfl
theorem Sys2Proof.Laws.WordForm.afaddSpad (f : FmtN) : Sys2Proof.Laws.WordForm.Statement (.afaddSpad f) :=
  wordN _ 0x1D#6 0x0A f (fun _ _ => rfl) rfl rfl
theorem Sys2Proof.Laws.WordForm.lds (f : FmtN) : Sys2Proof.Laws.WordForm.Statement (.lds f) :=
  wordN _ 0x1D#6 0x0C f (fun _ _ => rfl) rfl rfl
theorem Sys2Proof.Laws.WordForm.sts (f : FmtN) : Sys2Proof.Laws.WordForm.Statement (.sts f) :=
  wordN _ 0x1D#6 0x0D f (fun _ _ => rfl) rfl rfl
theorem Sys2Proof.Laws.WordForm.fence (f : FmtN) : Sys2Proof.Laws.WordForm.Statement (.fence f) :=
  wordN _ 0x1B#6 0x00 f (fun _ _ => rfl) rfl rfl
theorem Sys2Proof.Laws.WordForm.iinv (f : FmtN) : Sys2Proof.Laws.WordForm.Statement (.iinv f) :=
  wordN _ 0x1B#6 0x01 f (fun _ _ => rfl) rfl rfl
theorem Sys2Proof.Laws.WordForm.clean (f : FmtN) : Sys2Proof.Laws.WordForm.Statement (.clean f) :=
  wordN _ 0x1B#6 0x02 f (fun _ _ => rfl) rfl rfl
theorem Sys2Proof.Laws.WordForm.pref (f : FmtN) : Sys2Proof.Laws.WordForm.Statement (.pref f) :=
  wordN _ 0x1B#6 0x03 f (fun _ _ => rfl) rfl rfl
theorem Sys2Proof.Laws.WordForm.tlbi (f : FmtN) : Sys2Proof.Laws.WordForm.Statement (.tlbi f) :=
  wordN _ 0x1B#6 0x04 f (fun _ _ => rfl) rfl rfl
theorem Sys2Proof.Laws.WordForm.stand (f : FmtN) : Sys2Proof.Laws.WordForm.Statement (.stand f) :=
  wordN _ 0x1C#6 0x00 f (fun _ _ => rfl) rfl rfl
theorem Sys2Proof.Laws.WordForm.unstand (f : FmtN) : Sys2Proof.Laws.WordForm.Statement (.unstand f) :=
  wordN _ 0x1C#6 0x01 f (fun _ _ => rfl) rfl rfl
theorem Sys2Proof.Laws.WordForm.mmab4 (f : FmtX) : Sys2Proof.Laws.WordForm.Statement (.mmab4 f) :=
  wordX _ 0x20#6 0x00 f (fun _ _ => rfl) rfl rfl
theorem Sys2Proof.Laws.WordForm.mmab6 (f : FmtX) : Sys2Proof.Laws.WordForm.Statement (.mmab6 f) :=
  wordX _ 0x20#6 0x01 f (fun _ _ => rfl) rfl rfl
theorem Sys2Proof.Laws.WordForm.mmab8 (f : FmtX) : Sys2Proof.Laws.WordForm.Statement (.mmab8 f) :=
  wordX _ 0x20#6 0x02 f (fun _ _ => rfl) rfl rfl
theorem Sys2Proof.Laws.WordForm.mmaf8 (f : FmtX) : Sys2Proof.Laws.WordForm.Statement (.mmaf8 f) :=
  wordX _ 0x20#6 0x03 f (fun _ _ => rfl) rfl rfl
theorem Sys2Proof.Laws.WordForm.mmah (f : FmtX) : Sys2Proof.Laws.WordForm.Statement (.mmah f) :=
  wordX _ 0x20#6 0x04 f (fun _ _ => rfl) rfl rfl
theorem Sys2Proof.Laws.WordForm.mmai8 (f : FmtX) : Sys2Proof.Laws.WordForm.Statement (.mmai8 f) :=
  wordX _ 0x20#6 0x05 f (fun _ _ => rfl) rfl rfl
theorem Sys2Proof.Laws.WordForm.mmag (f : FmtX) : Sys2Proof.Laws.WordForm.Statement (.mmag f) :=
  wordX _ 0x20#6 0x06 f (fun _ _ => rfl) rfl rfl
theorem Sys2Proof.Laws.WordForm.mmas (f : FmtX) : Sys2Proof.Laws.WordForm.Statement (.mmas f) :=
  wordX _ 0x20#6 0x07 f (fun _ _ => rfl) rfl rfl
theorem Sys2Proof.Laws.WordForm.azero (f : FmtX) : Sys2Proof.Laws.WordForm.Statement (.azero f) :=
  wordX _ 0x21#6 0x00 f (fun _ _ => rfl) rfl rfl
theorem Sys2Proof.Laws.WordForm.ald (f : FmtX) : Sys2Proof.Laws.WordForm.Statement (.ald f) :=
  wordX _ 0x21#6 0x01 f (fun _ _ => rfl) rfl rfl
theorem Sys2Proof.Laws.WordForm.ast (f : FmtX) : Sys2Proof.Laws.WordForm.Statement (.ast f) :=
  wordX _ 0x21#6 0x02 f (fun _ _ => rfl) rfl rfl
theorem Sys2Proof.Laws.WordForm.mtrn (f : FmtX) : Sys2Proof.Laws.WordForm.Statement (.mtrn f) :=
  wordX _ 0x21#6 0x03 f (fun _ _ => rfl) rfl rfl
theorem Sys2Proof.Laws.WordForm.mprm (f : FmtX) : Sys2Proof.Laws.WordForm.Statement (.mprm f) :=
  wordX _ 0x21#6 0x04 f (fun _ _ => rfl) rfl rfl
theorem Sys2Proof.Laws.WordForm.mred (f : FmtX) : Sys2Proof.Laws.WordForm.Statement (.mred f) :=
  wordX _ 0x21#6 0x05 f (fun _ _ => rfl) rfl rfl
theorem Sys2Proof.Laws.WordForm.tcpy (f : FmtX) : Sys2Proof.Laws.WordForm.Statement (.tcpy f) :=
  wordX _ 0x22#6 0x00 f (fun _ _ => rfl) rfl rfl
theorem Sys2Proof.Laws.WordForm.tcpym (f : FmtX) : Sys2Proof.Laws.WordForm.Statement (.tcpym f) :=
  wordX _ 0x22#6 0x01 f (fun _ _ => rfl) rfl rfl
theorem Sys2Proof.Laws.WordForm.tgath (f : FmtX) : Sys2Proof.Laws.WordForm.Statement (.tgath f) :=
  wordX _ 0x22#6 0x02 f (fun _ _ => rfl) rfl rfl
theorem Sys2Proof.Laws.WordForm.cchn (f : FmtX) : Sys2Proof.Laws.WordForm.Statement (.cchn f) :=
  wordX _ 0x22#6 0x03 f (fun _ _ => rfl) rfl rfl
theorem Sys2Proof.Laws.WordForm.swinit (f : FmtX) : Sys2Proof.Laws.WordForm.Statement (.swinit f) :=
  wordX _ 0x22#6 0x04 f (fun _ _ => rfl) rfl rfl
theorem Sys2Proof.Laws.WordForm.swadd (f : FmtX) : Sys2Proof.Laws.WordForm.Statement (.swadd f) :=
  wordX _ 0x22#6 0x05 f (fun _ _ => rfl) rfl rfl
theorem Sys2Proof.Laws.WordForm.shape (f : FmtX) : Sys2Proof.Laws.WordForm.Statement (.shape f) :=
  wordX _ 0x23#6 0x00 f (fun _ _ => rfl) rfl rfl
theorem Sys2Proof.Laws.WordForm.gsync : Sys2Proof.Laws.WordForm.Statement .gsync :=
  wordA _ 0x12#6 0x02 _ (fun _ _ => rfl) rfl rfl
theorem Sys2Proof.Laws.WordForm.exit : Sys2Proof.Laws.WordForm.Statement .exit :=
  wordA _ 0x13#6 0x02 _ (fun _ _ => rfl) rfl rfl
theorem Sys2Proof.Laws.WordForm.yield : Sys2Proof.Laws.WordForm.Statement .yield :=
  wordA _ 0x13#6 0x03 _ (fun _ _ => rfl) rfl rfl
theorem Sys2Proof.Laws.WordForm.nop : Sys2Proof.Laws.WordForm.Statement .nop :=
  wordA _ 0x15#6 0x00 _ (fun _ _ => rfl) rfl rfl
theorem Sys2Proof.Laws.WordForm.syscall : Sys2Proof.Laws.WordForm.Statement .syscall :=
  wordA _ 0x15#6 0x01 _ (fun _ _ => rfl) rfl rfl
theorem Sys2Proof.Laws.WordForm.eret : Sys2Proof.Laws.WordForm.Statement .eret :=
  wordA _ 0x15#6 0x03 _ (fun _ _ => rfl) rfl rfl
theorem Sys2Proof.Laws.WordForm.eretSupervisor : Sys2Proof.Laws.WordForm.Statement .eretSupervisor :=
  wordA _ 0x15#6 0x03 _ (fun _ _ => rfl) rfl rfl
theorem Sys2Proof.Laws.WordForm.fallowInstruction : Sys2Proof.Laws.WordForm.Statement .fallowInstruction :=
  noWord _ fun _ _ => rfl
theorem Sys2Proof.Laws.WordForm.illegalMajor : Sys2Proof.Laws.WordForm.Statement .illegalMajor :=
  noWord _ fun _ _ => rfl
theorem Sys2Proof.Laws.WordForm.holdlimExpiry : Sys2Proof.Laws.WordForm.Statement .holdlimExpiry :=
  noWord _ fun _ _ => rfl
theorem Sys2Proof.Laws.WordForm.frameAccept : Sys2Proof.Laws.WordForm.Statement .frameAccept := noWord _ fun _ _ => rfl
theorem Sys2Proof.Laws.WordForm.packwinExpiry : Sys2Proof.Laws.WordForm.Statement .packwinExpiry :=
  noWord _ fun _ _ => rfl
theorem Sys2Proof.Laws.WordForm.readyQueueAccept : Sys2Proof.Laws.WordForm.Statement .readyQueueAccept :=
  noWord _ fun _ _ => rfl
theorem Sys2Proof.Laws.WordForm.admissionPlacement : Sys2Proof.Laws.WordForm.Statement .admissionPlacement :=
  noWord _ fun _ _ => rfl
theorem Sys2Proof.Laws.WordForm.timerExpiry : Sys2Proof.Laws.WordForm.Statement .timerExpiry := noWord _ fun _ _ => rfl
theorem Sys2Proof.Laws.WordForm.ageing : Sys2Proof.Laws.WordForm.Statement .ageing := noWord _ fun _ _ => rfl
theorem Sys2Proof.Laws.WordForm.prelimExpiry : Sys2Proof.Laws.WordForm.Statement .prelimExpiry :=
  noWord _ fun _ _ => rfl
theorem Sys2Proof.Laws.WordForm.preemptComplete : Sys2Proof.Laws.WordForm.Statement .preemptComplete :=
  noWord _ fun _ _ => rfl
theorem Sys2Proof.Laws.WordForm.signal : Sys2Proof.Laws.WordForm.Statement .signal := noWord _ fun _ _ => rfl
theorem Sys2Proof.Laws.WordForm.sleepTimeout : Sys2Proof.Laws.WordForm.Statement .sleepTimeout :=
  noWord _ fun _ _ => rfl
theorem Sys2Proof.Laws.WordForm.waitvReread : Sys2Proof.Laws.WordForm.Statement .waitvReread := noWord _ fun _ _ => rfl
theorem Sys2Proof.Laws.WordForm.loadReply : Sys2Proof.Laws.WordForm.Statement .loadReply := noWord _ fun _ _ => rfl
theorem Sys2Proof.Laws.WordForm.deferredFault : Sys2Proof.Laws.WordForm.Statement .deferredFault :=
  noWord _ fun _ _ => rfl
theorem Sys2Proof.Laws.WordForm.queueFaultRecord : Sys2Proof.Laws.WordForm.Statement .queueFaultRecord :=
  noWord _ fun _ _ => rfl
theorem Sys2Proof.Laws.WordForm.wcageExpiry : Sys2Proof.Laws.WordForm.Statement .wcageExpiry := noWord _ fun _ _ => rfl
theorem Sys2Proof.Laws.WordForm.acknowledge : Sys2Proof.Laws.WordForm.Statement .acknowledge := noWord _ fun _ _ => rfl
theorem Sys2Proof.Laws.WordForm.homeRequest : Sys2Proof.Laws.WordForm.Statement .homeRequest := noWord _ fun _ _ => rfl
theorem Sys2Proof.Laws.WordForm.iinvComplete : Sys2Proof.Laws.WordForm.Statement .iinvComplete :=
  noWord _ fun _ _ => rfl
theorem Sys2Proof.Laws.WordForm.cleanComplete : Sys2Proof.Laws.WordForm.Statement .cleanComplete :=
  noWord _ fun _ _ => rfl
theorem Sys2Proof.Laws.WordForm.tlbiComplete : Sys2Proof.Laws.WordForm.Statement .tlbiComplete :=
  noWord _ fun _ _ => rfl
theorem Sys2Proof.Laws.WordForm.standReply : Sys2Proof.Laws.WordForm.Statement .standReply := noWord _ fun _ _ => rfl
theorem Sys2Proof.Laws.WordForm.push : Sys2Proof.Laws.WordForm.Statement .push := noWord _ fun _ _ => rfl
theorem Sys2Proof.Laws.WordForm.owedPush : Sys2Proof.Laws.WordForm.Statement .owedPush := noWord _ fun _ _ => rfl
theorem Sys2Proof.Laws.WordForm.unstandAck : Sys2Proof.Laws.WordForm.Statement .unstandAck := noWord _ fun _ _ => rfl
theorem Sys2Proof.Laws.WordForm.copyCommandStart : Sys2Proof.Laws.WordForm.Statement .copyCommandStart :=
  noWord _ fun _ _ => rfl
theorem Sys2Proof.Laws.WordForm.syncWordArrival : Sys2Proof.Laws.WordForm.Statement .syncWordArrival :=
  noWord _ fun _ _ => rfl
theorem Sys2Proof.Laws.WordForm.copyError : Sys2Proof.Laws.WordForm.Statement .copyError := noWord _ fun _ _ => rfl
theorem Sys2Proof.Laws.WordForm.cchnRecord : Sys2Proof.Laws.WordForm.Statement .cchnRecord := noWord _ fun _ _ => rfl
theorem Sys2Proof.Laws.WordForm.matrixCommandStart : Sys2Proof.Laws.WordForm.Statement .matrixCommandStart :=
  noWord _ fun _ _ => rfl
theorem Sys2Proof.Laws.WordForm.matrixCommandComplete : Sys2Proof.Laws.WordForm.Statement .matrixCommandComplete :=
  noWord _ fun _ _ => rfl
theorem Sys2Proof.Laws.WordForm.nwinExpiry : Sys2Proof.Laws.WordForm.Statement .nwinExpiry := noWord _ fun _ _ => rfl
theorem Sys2Proof.Laws.WordForm.queueEdgeThreshold : Sys2Proof.Laws.WordForm.Statement .queueEdgeThreshold :=
  noWord _ fun _ _ => rfl
theorem Sys2Proof.Laws.WordForm.gapRecord : Sys2Proof.Laws.WordForm.Statement .gapRecord := noWord _ fun _ _ => rfl
theorem Sys2Proof.Laws.WordForm.hotPageWindowExpiry : Sys2Proof.Laws.WordForm.Statement .hotPageWindowExpiry :=
  noWord _ fun _ _ => rfl
theorem Sys2Proof.Laws.WordForm.supervisorEntry : Sys2Proof.Laws.WordForm.Statement .supervisorEntry :=
  noWord _ fun _ _ => rfl
theorem Sys2Proof.Laws.WordForm.interrupt : Sys2Proof.Laws.WordForm.Statement .interrupt := noWord _ fun _ _ => rfl
theorem Sys2Proof.Laws.WordForm.deviceDma : Sys2Proof.Laws.WordForm.Statement .deviceDma := noWord _ fun _ _ => rfl
theorem Sys2Proof.Laws.WordForm.resume : Sys2Proof.Laws.WordForm.Statement .resume := noWord _ fun _ _ => rfl
theorem Sys2Proof.Laws.WordForm.kill : Sys2Proof.Laws.WordForm.Statement .kill := noWord _ fun _ _ => rfl
theorem Sys2Proof.Laws.WordForm.migrateCommand : Sys2Proof.Laws.WordForm.Statement .migrateCommand :=
  noWord _ fun _ _ => rfl
theorem Sys2Proof.Laws.WordForm.extract : Sys2Proof.Laws.WordForm.Statement .extract := noWord _ fun _ _ => rfl
theorem Sys2Proof.Laws.WordForm.loadresume : Sys2Proof.Laws.WordForm.Statement .loadresume := noWord _ fun _ _ => rfl
theorem Sys2Proof.Laws.WordForm.preempt : Sys2Proof.Laws.WordForm.Statement .preempt := noWord _ fun _ _ => rfl
theorem Sys2Proof.Laws.WordForm.restore : Sys2Proof.Laws.WordForm.Statement .restore := noWord _ fun _ _ => rfl
theorem Sys2Proof.Laws.WordForm.movepage : Sys2Proof.Laws.WordForm.Statement .movepage := noWord _ fun _ _ => rfl
theorem Sys2Proof.Laws.WordForm.movepageComplete : Sys2Proof.Laws.WordForm.Statement .movepageComplete :=
  noWord _ fun _ _ => rfl
theorem Sys2Proof.Laws.WordForm.finishmove : Sys2Proof.Laws.WordForm.Statement .finishmove := noWord _ fun _ _ => rfl
theorem Sys2Proof.Laws.WordForm.rqpop : Sys2Proof.Laws.WordForm.Statement .rqpop := noWord _ fun _ _ => rfl
theorem Sys2Proof.Laws.WordForm.ccdataRead : Sys2Proof.Laws.WordForm.Statement .ccdataRead := noWord _ fun _ _ => rfl
theorem Sys2Proof.Laws.WordForm.ccdataWrite : Sys2Proof.Laws.WordForm.Statement .ccdataWrite := noWord _ fun _ _ => rfl
theorem Sys2Proof.Laws.WordForm.cenWrite : Sys2Proof.Laws.WordForm.Statement .cenWrite := noWord _ fun _ _ => rfl
theorem Sys2Proof.Laws.WordForm.htenWrite : Sys2Proof.Laws.WordForm.Statement .htenWrite := noWord _ fun _ _ => rfl
theorem Sys2Proof.Laws.WordForm.registerWrite : Sys2Proof.Laws.WordForm.Statement .registerWrite :=
  noWord _ fun _ _ => rfl
theorem Sys2Proof.Laws.WordForm.identify : Sys2Proof.Laws.WordForm.Statement .identify := noWord _ fun _ _ => rfl
theorem Sys2Proof.Laws.WordForm.attest : Sys2Proof.Laws.WordForm.Statement .attest := noWord _ fun _ _ => rfl
theorem Sys2Proof.Laws.WordForm.loadImage : Sys2Proof.Laws.WordForm.Statement .loadImage := noWord _ fun _ _ => rfl
theorem Sys2Proof.Laws.WordForm.verify : Sys2Proof.Laws.WordForm.Statement .verify := noWord _ fun _ _ => rfl
theorem Sys2Proof.Laws.WordForm.boot : Sys2Proof.Laws.WordForm.Statement .boot := noWord _ fun _ _ => rfl
theorem Sys2Proof.Laws.WordForm.resetCold : Sys2Proof.Laws.WordForm.Statement .resetCold := noWord _ fun _ _ => rfl
theorem Sys2Proof.Laws.WordForm.resetWarm : Sys2Proof.Laws.WordForm.Statement .resetWarm := noWord _ fun _ _ => rfl
theorem Sys2Proof.Laws.WordForm.halt : Sys2Proof.Laws.WordForm.Statement .halt := noWord _ fun _ _ => rfl
theorem Sys2Proof.Laws.WordForm.haltdrainExpiry : Sys2Proof.Laws.WordForm.Statement .haltdrainExpiry :=
  noWord _ fun _ _ => rfl
theorem Sys2Proof.Laws.WordForm.haltComplete : Sys2Proof.Laws.WordForm.Statement .haltComplete :=
  noWord _ fun _ _ => rfl
theorem Sys2Proof.Laws.WordForm.dump : Sys2Proof.Laws.WordForm.Statement .dump := noWord _ fun _ _ => rfl
theorem Sys2Proof.Laws.WordForm.telem : Sys2Proof.Laws.WordForm.Statement .telem := noWord _ fun _ _ => rfl
theorem Sys2Proof.Laws.WordForm.health : Sys2Proof.Laws.WordForm.Statement .health := noWord _ fun _ _ => rfl
theorem Sys2Proof.Laws.WordForm.fwupdateRomPatch : Sys2Proof.Laws.WordForm.Statement .fwupdateRomPatch :=
  noWord _ fun _ _ => rfl
theorem Sys2Proof.Laws.WordForm.fwupdateEnrol : Sys2Proof.Laws.WordForm.Statement .fwupdateEnrol :=
  noWord _ fun _ _ => rfl
theorem Sys2Proof.Laws.WordForm.fwupdateRevoke : Sys2Proof.Laws.WordForm.Statement .fwupdateRevoke :=
  noWord _ fun _ _ => rfl
theorem Sys2Proof.Laws.WordForm.fwupdateSvmin : Sys2Proof.Laws.WordForm.Statement .fwupdateSvmin :=
  noWord _ fun _ _ => rfl
theorem Sys2Proof.Laws.WordForm.setpower : Sys2Proof.Laws.WordForm.Statement .setpower := noWord _ fun _ _ => rfl
theorem Sys2Proof.Laws.WordForm.endpointReset : Sys2Proof.Laws.WordForm.Statement .endpointReset :=
  noWord _ fun _ _ => rfl
theorem Sys2Proof.Laws.WordForm.powerOn : Sys2Proof.Laws.WordForm.Statement .powerOn := noWord _ fun _ _ => rfl
theorem Sys2Proof.Laws.WordForm.yagonEnable : Sys2Proof.Laws.WordForm.Statement .yagonEnable := noWord _ fun _ _ => rfl
theorem Sys2Proof.Laws.WordForm.channelTrained : Sys2Proof.Laws.WordForm.Statement .channelTrained :=
  noWord _ fun _ _ => rfl
theorem Sys2Proof.Laws.WordForm.flitReceive : Sys2Proof.Laws.WordForm.Statement .flitReceive := noWord _ fun _ _ => rfl
theorem Sys2Proof.Laws.WordForm.negativeAcknowledge : Sys2Proof.Laws.WordForm.Statement .negativeAcknowledge :=
  noWord _ fun _ _ => rfl
theorem Sys2Proof.Laws.WordForm.cumulativeAcknowledge : Sys2Proof.Laws.WordForm.Statement .cumulativeAcknowledge :=
  noWord _ fun _ _ => rfl
theorem Sys2Proof.Laws.WordForm.replayTimeout : Sys2Proof.Laws.WordForm.Statement .replayTimeout :=
  noWord _ fun _ _ => rfl
theorem Sys2Proof.Laws.WordForm.channelDrop : Sys2Proof.Laws.WordForm.Statement .channelDrop := noWord _ fun _ _ => rfl
theorem Sys2Proof.Laws.WordForm.lockLost : Sys2Proof.Laws.WordForm.Statement .lockLost := noWord _ fun _ _ => rfl
theorem Sys2Proof.Laws.WordForm.parkChannel : Sys2Proof.Laws.WordForm.Statement .parkChannel := noWord _ fun _ _ => rfl
theorem Sys2Proof.Laws.WordForm.wakeTimeout : Sys2Proof.Laws.WordForm.Statement .wakeTimeout := noWord _ fun _ _ => rfl
theorem Sys2Proof.Laws.WordForm.peerLost : Sys2Proof.Laws.WordForm.Statement .peerLost := noWord _ fun _ _ => rfl
theorem Sys2Proof.Laws.WordForm.peeradmit : Sys2Proof.Laws.WordForm.Statement .peeradmit := noWord _ fun _ _ => rfl
theorem Sys2Proof.Laws.WordForm.stackInit : Sys2Proof.Laws.WordForm.Statement .stackInit := noWord _ fun _ _ => rfl
theorem Sys2Proof.Laws.WordForm.stackReady : Sys2Proof.Laws.WordForm.Statement .stackReady := noWord _ fun _ _ => rfl
theorem Sys2Proof.Laws.WordForm.stackZero : Sys2Proof.Laws.WordForm.Statement .stackZero := noWord _ fun _ _ => rfl
theorem Sys2Proof.Laws.WordForm.zeroDone : Sys2Proof.Laws.WordForm.Statement .zeroDone := noWord _ fun _ _ => rfl
theorem Sys2Proof.Laws.WordForm.mscEnable : Sys2Proof.Laws.WordForm.Statement .mscEnable := noWord _ fun _ _ => rfl
theorem Sys2Proof.Laws.WordForm.poisonpa : Sys2Proof.Laws.WordForm.Statement .poisonpa := noWord _ fun _ _ => rfl
theorem Sys2Proof.Laws.WordForm.patrolScrub : Sys2Proof.Laws.WordForm.Statement .patrolScrub := noWord _ fun _ _ => rfl
theorem Sys2Proof.Laws.WordForm.retrain : Sys2Proof.Laws.WordForm.Statement .retrain := noWord _ fun _ _ => rfl
theorem Sys2Proof.Laws.WordForm.clockStretch : Sys2Proof.Laws.WordForm.Statement .clockStretch :=
  noWord _ fun _ _ => rfl
theorem Sys2Proof.Laws.WordForm.powerStep : Sys2Proof.Laws.WordForm.Statement .powerStep := noWord _ fun _ _ => rfl
theorem Sys2Proof.Laws.WordForm.thermalTrip : Sys2Proof.Laws.WordForm.Statement .thermalTrip := noWord _ fun _ _ => rfl
theorem Sys2Proof.Laws.WordForm.telemetrySample : Sys2Proof.Laws.WordForm.Statement .telemetrySample :=
  noWord _ fun _ _ => rfl
theorem Sys2Proof.Laws.WordForm.doorbell : Sys2Proof.Laws.WordForm.Statement .doorbell := noWord _ fun _ _ => rfl
theorem Sys2Proof.Laws.WordForm.channelJoinsStripe : Sys2Proof.Laws.WordForm.Statement .channelJoinsStripe :=
  noWord _ fun _ _ => rfl
theorem Sys2Proof.Laws.WordForm.ucieLaneRepair : Sys2Proof.Laws.WordForm.Statement .ucieLaneRepair :=
  noWord _ fun _ _ => rfl
theorem Sys2Proof.Laws.WordForm.laserWorn : Sys2Proof.Laws.WordForm.Statement .laserWorn := noWord _ fun _ _ => rfl
theorem Sys2Proof.Laws.WordForm.surpriseLinkDown : Sys2Proof.Laws.WordForm.Statement .surpriseLinkDown :=
  noWord _ fun _ _ => rfl
end

