-- ==== Sys2Proof/Tests/Slice0.lean ====
section
/-! SUPPORT. Tests of the model against the spec's own words and numbers, and for every statement of
Certificates/Slice0/Obligations.lean concrete states and operands that meet its hypotheses (witness_<statement>, or
one for each conjunct of it). Expected values come from the tables and worked examples of spec/, or from hand
calculation by its rules; each test names its source. A witness says only that the hypotheses of a statement's clauses hold together somewhere. -/

namespace Sys2Proof.Tests
set_option Elab.async false
open Sys2Proof Machine Claims

/-! ## Words of the spec -/

def g0 : Guard := ⟨false, 0⟩
/-- Format A with every field zero. -/
def fa : FmtA := ⟨false, false, false, 0, 0, 0, 0, 0, 0⟩
def fn0 : FmtN := ⟨0, 0, false, 0, false, 0, 0, 0, 0⟩
def fm0 : FmtM := ⟨0, 0, false, 0, false, 0, 0, 0, 0⟩
def fx0 : FmtX := ⟨0, 0, 0, 0, 0⟩

/-- The word decodes to `i` under guard g0. -/
def reads (w : DWord) (i : Instr) : Bool := decide (decode w = .ok ⟨g0, 0, i⟩)
/-- The word decodes to `i` under guard `g`. -/
def readsG (w : DWord) (g : Guard) (i : Instr) : Bool := decide (decode w = .ok ⟨g, 0, i⟩)
def refuses (w : DWord) (x : Detail) : Bool := decide (decode w = .error x)

/-- spec/03_state_formats_assembly.md, the worked encodings after R105. -/
theorem test_words_memory_and_branch :
    reads 0x0000801A40401418 (.ld { fm0 with t := 5, ba := 8, sz := 2, ord := 1, sc := 3, off := 64 }) ∧
    reads 0x0000001C40501419 (.st { fm0 with t := 5, ba := 10, sz := 2, ord := 2, sc := 3 }) ∧
    reads 0x0000000200000016 (.live 0x200) ∧
    readsG 0xFFFFFFFFFD000290 ⟨true, 2⟩ (.bra (-3)) := by decide +kernel

/-- spec/04_opcode_map.md, the table after R122: what decodes, and which check of R97 a word fails first. -/
theorem test_words_of_the_opcode_map :
    reads 0x0000000000000015 .nop ∧ reads 0x0000001E0000001B (.fence { fn0 with ord := 3, sc := 3 }) ∧
    reads 0 .illegalMajor ∧ reads 0xFFFFFFFFFFFFFFFF .illegalMajor ∧ reads 0x225 .fallowInstruction ∧
    refuses 0x00290000000002C1 .undefined ∧ refuses 0x1800000000000008 .undefined ∧
    refuses 0x0000000100000019 .reservedField ∧ reads 0x000001000000001B (.tlbi fn0) ∧
    reads 0x0000020000000020 (.mmab4 { fx0 with c := 16 }) ∧ refuses 0x0000000000000020 .undefined := by decide +kernel

/-- spec/05_instr_control_thread_system.md, the table of worked encodings. -/
theorem test_words_control_and_system :
    reads 0x000000000C007810 (.call ⟨30, 12⟩) ∧ reads 0x0080000000000014 (.bar { fa with var := 2 }) ∧
    reads 0x0041016060401414 (.waitv { fa with var := 1, d := 5, a := 8, b := 6, c := 0x0B }) ∧
    reads 0x1008001000001015 (.csrr ⟨false, true, 0x100, 4, 0⟩) ∧ reads 0x0002000000000013 .exit := by decide +kernel

/-- spec/06_instr_integer_scalar.md, the table of worked encodings. -/
theorem test_words_integer_and_lanes :
    reads 0x0000000020081401 (.add { fa with d := 5, a := 1, b := 2 }) ∧
    reads 0x0111000040181C01 (.addsat { fa with var := 4, d := 7, a := 3, b := 4 }) ∧
    reads 0x3F80000010002402 (.movi ⟨9, 0, 0x3F800000⟩) ∧
    reads 0x028000003010040E (.setp { fa with var := 10, d := 1, a := 2, b := 3 }) ∧
    reads 0x0085004070281807 (.shfl { fa with var := 2, d := 6, a := 5, b := 7, c := 2 }) ∧
    reads 0x0006000000000407 (.elect { fa with d := 1 }) ∧ reads 0x0000000100201006 (.saddImm ⟨4, 4, 1⟩) ∧
    reads 0x0000004060001004 (.leapc ⟨4, 0, 0x40⟩) := by decide +kernel

/-- spec/07_instr_float_convert_blockfp.md, the table of worked encodings. -/
theorem test_words_numeric :
    reads 0x040300E040181C08 (.ffma { fa with mode := 1, d := 7, a := 3, b := 4, c := 7 }) ∧
    reads 0x158200000040240B (.cvtff { fa with mode := 5, var := 6, d := 9, a := 8 }) ∧
    reads 0x000300004010140B (.pkf8 { fa with d := 5, a := 2, b := 4 }) ∧
    reads 0x000000000010280D (.bpack { fa with d := 10, a := 2 }) := by decide +kernel

/-- spec/08_instr_memory_atomic_standing.md, the table of worked encodings. -/
theorem test_words_memory_and_atomics :
    reads 0xFFFFFE0100100C18 (.ld { fm0 with t := 3, ba := 2, sx := true, off := -1 }) ∧
    reads 0x000003126030101D (.lds { fn0 with t := 4, ba := 6, sz := 3, ord := 1, sc := 2 }) ∧
    reads 0x00602A666040101A (.acas ⟨4, 8, false, 3, false, 3, 4, 10, 12⟩) ∧
    reads 0x00000C206020181C (.stand { fn0 with t := 6, ba := 4, sz := 3, sc := 4, db := 3 }) := by decide +kernel

/-- spec/09_instr_matrix_copy.md, the table of worked encodings. -/
theorem test_words_matrix_and_copy :
    reads 0x0340030080B05022 (.tcpy ⟨20, 22, 8, 24, 0x0D⟩) ∧ reads 0x2C40050200F00820 (.mmab4 ⟨2, 30, 32, 40, 0xB1⟩) ∧
    reads 0x0001000090300822 (.swinit ⟨2, 6, 9, 0, 0⟩) ∧ reads 0x00000000E0604023 (.shape ⟨16, 12, 14, 0, 0⟩) := by
  decide +kernel

/-- spec/14_program_migration.md and spec/15_program_grouped_gemm.md, the words of their listings. -/
theorem test_words_of_the_programs :
    reads 0x00080000A0000415 (.csrr ⟨false, false, 0x00A, 1, 0⟩) ∧ reads 0x0000000000100013 (.migrate { fa with a := 2 }) ∧
    reads 0x000000E860001004 (.leapc ⟨4, 0, 0xE8⟩) ∧ reads 0x0003000050580012 (.loop { fa with a := 11, b := 5 }) ∧
    reads 0x0000000040403419 (.st { fm0 with t := 13, ba := 8, sz := 2 }) ∧
    reads 0x8040000000081807 (.mov { fa with sA := true, var := 1, d := 6, a := 1 }) ∧
    reads 0x00004000A0106018 (.ld { fm0 with t := 24, ba := 2, sz := 5, off := 32 }) ∧
    reads 0x04404580A0401822 (.tcpym ⟨6, 8, 10, 44, 0x11⟩) ∧ reads 0x1041820281500020 (.mmag ⟨0, 42, 40, 16, 0x41⟩) ∧
    reads 0x0000860000300021 (.ast ⟨0, 6, 0, 48, 0⟩) ∧ reads 0x0C800580A0401822 (.tcpy ⟨6, 8, 10, 44, 0x32⟩) ∧
    reads 0x000000220000001B (.fence { fn0 with ord := 1, sc := 4 }) ∧ reads 0x0004000000000413 (.sleep { fa with d := 1 }) := by
  decide +kernel

/-- spec/16_program_sample_sort.md and spec/17_program_standing_litmus.md, the words of their listings. -/
theorem test_words_of_the_litmus_programs :
    reads 0x088000807098100E (.setp { fa with mode := 2, var := 2, d := 4, a := 19, b := 7, c := 4 }) ∧
    reads 0x0000C00001400022 (.cchn ⟨0, 40, 0, 0, 0⟩) ∧
    reads 0x0041018000A00014 (.waitv { fa with var := 1, a := 20, c := 0x0C }) ∧
    reads 0x0003000120900412 (.loop { fa with d := 1, a := 18, b := 18 }) ∧
    reads 0x00000C2860A0601C (.stand { fn0 with t := 24, ba := 20, sz := 3, sc := 5, db := 3 }) ∧
    reads 0x0003000160C00014 (.waitp { fa with a := 24, b := 22 }) ∧
    reads 0x0000032A80C0301D (.lds { fn0 with t := 12, ba := 24, sz := 4, ord := 1, sc := 5 }) ∧
    reads 0x000000406000601C (.unstand { fn0 with t := 24, sz := 3 }) ∧
    reads 0x00004000A080A019 (.st { fm0 with t := 40, ba := 16, sz := 5, off := 32 }) ∧
    reads 0x0004000000480013 (.sleep { fa with a := 9 }) ∧ reads 0x000300003008100E (.por { fa with d := 4, a := 1, b := 3 }) ∧
    readsG 0x000000240000009B ⟨false, 2⟩ (.fence { fn0 with ord := 2, sc := 4 }) ∧
    readsG 0x0000002040202719 ⟨true, 4⟩ (.st { fm0 with t := 9, ba := 4, sz := 2, sc := 4 }) := by decide +kernel

/-- spec/12_kernel_placement_peers.md: ALWP g1 of peer v10 and n v10 + 1; its die form has variant 1. -/
theorem test_words_alwp : (decode 0x0007000150A0040E).isOk ∧ (decode 0x0047000150A0040E).isOk := by decide +kernel

/-- The same word through the bytes that R97 lays out, and through the host's name for it. -/
theorem test_table_word : decodeTableWord 64 0x0000000020081401 = some (.add { fa with d := 5, a := 1, b := 2 }) := by
  decide +kernel

/-- Every word above is the encoder's word of what it decodes to. -/
theorem test_encode_words :
    encode ⟨g0, 0, .add { fa with d := 5, a := 1, b := 2 }⟩ = some 0x0000000020081401 ∧
    encode ⟨⟨true, 2⟩, 0, .bra (-3)⟩ = some 0xFFFFFFFFFD000290 ∧
    encode ⟨g0, 0, .acas ⟨4, 8, false, 3, false, 3, 4, 10, 12⟩⟩ = some 0x00602A666040101A ∧
    encode ⟨g0, 0, .mmab4 ⟨2, 30, 32, 40, 0xB1⟩⟩ = some 0x2C40050200F00820 ∧
    encode ⟨g0, 0, .csrr ⟨false, true, 0x100, 4, 0⟩⟩ = some 0x1008001000001015 := by decide +kernel

/-! ## What WellFormed refuses: one ill-formed term for each check -/

/-- R97 order 2: guard (!g0). -/
theorem smoke_guard : wellFormed ⟨⟨true, 0⟩, 0, .nop⟩ = false ∧ wellFormed ⟨g0, 0, .nop⟩ = true := by decide +kernel
/-- R97 order 2: an odd pair (R86). -/
theorem smoke_undefined_field :
    staticCheck ⟨g0, 0, .add { fa with var := 1, d := 5 }⟩ = some .undefined ∧
    wellFormed ⟨g0, 0, .add { fa with var := 1, d := 4 }⟩ = true := by decide +kernel
/-- R97 order 3: LIVE has no guard (R104). -/
theorem smoke_reserved_guard : staticCheck ⟨⟨false, 1⟩, 0, .live 0⟩ = some .reservedField := by decide +kernel
/-- R97 order 3: a nonzero C in a two-source instruction (R155). -/
theorem smoke_reserved_field : staticCheck ⟨g0, 0, .add { fa with c := 1 }⟩ = some .reservedField := by decide +kernel
/-- R98: a keep field outside format A. -/
theorem smoke_keep : wellFormed ⟨g0, 1, .movi ⟨1, 0, 0⟩⟩ = false ∧ wellFormed ⟨g0, 1, .add fa⟩ = true := by decide +kernel

/-! ## Small states -/

/-- A thread at 0x400000 with guards g0 to g3 true. -/
def thr (rs : Map (Val 32)) : Thread := { Thread.fresh with pc := 0x400000, regs := rs, guards := 0x0F }
/-- v2 = 9, v3 = 0, v4 = 2, v5 = 0, v6 = 1: a nonzero operand in every source of `f32a` and `f64a`. -/
def some5 : Map (Val 32) := [(2, .known 9), (4, .known 2), (6, .known 1)]
/-- A group of address space 5 with 128 v-, 64 s-registers, a scratchpad region of 4 units and 16 tiles. -/
def grp (ms : Map Thread) : Machine.Group :=
  { Group.supervisor 0 with footprint := w32 (128 + 64 * 512 + 4 * 2 ^ 18 + 16 * 2 ^ 24), asid := 5, members := ms,
                            sregs := [(2, .known 7)] }
def iss (slot : Nat) (sup : Bool) : Issuer := ⟨slot, sup, 0x400000, 0, g0⟩
/-- Hardware thread 0 of latency core 0 of die 4, in user mode; its supervisor context stands two slots above. -/
def hw0 : Nat := slotKey (coreKey 4 0) 0
/-- A group in slot 5 of core 0 of die 0, issuing at 0x400000. -/
def simt (ms : Map Thread) : State :=
  { State.reset with issuer := some (iss 5 false), groups := [(5, grp ms)] }
/-- A user thread on a latency core, and a supervisor context beside it. -/
def latency (t : Thread) : State :=
  { State.reset with
      issuer := some (iss hw0 false), groups := [(hw0, grp [(0, t)]), (hw0 + 2, Group.supervisor 0x800)],
      hw := [(hw0, ⟨true, false, false, false⟩)] }
/-- One lane, and two. -/
def one : State := simt [(0, thr some5)]
def two : State := simt [(0, thr some5), (3, thr [(2, .known 5)])]
def g1 : Machine.Group := grp [(0, thr some5)]
def g2 : Machine.Group := grp [(0, thr some5), (3, thr [(2, .known 5)])]
def u5 : Issuer := iss 5 false

/-! ## Hypotheses as computations -/

def atIssue (s : State) (u : Issuer) (g : Machine.Group) (i : Instr) : Bool :=
  decide (s.issuer = some u) && decide (s.group? u.slot = some g) &&
    decide (gate i (formOf ⟨u.g, 0, i⟩) u.sup (isLatency u.slot) g.footprint = none) &&
    !s.outstanding u.slot (g.activeAt u.pc) (formOf ⟨u.g, 0, i⟩)

theorem atIssue_of {s u g i} (h : atIssue s u g i = true) : AtIssue s i u g := by
  simp only [atIssue, Bool.and_eq_true, Bool.not_eq_true', decide_eq_true_eq] at h
  exact ⟨h.1.1.1, h.1.1.2, h.1.2, h.2⟩

theorem atIssue_all {s u g} {is : List Instr} (h : is.all (atIssue s u g) = true) : ∀ i ∈ is, AtIssue s i u g :=
  fun i hi => atIssue_of (List.all_eq_true.mp h i hi)

def solo (s : State) (u : Issuer) (g : Machine.Group) (l : Nat) (t : Thread) (i : Instr) : Bool :=
  atIssue s u g i && decide (g.activeAt u.pc = [l]) && decide ((entry s i u g).thread? ⟨u.slot, l⟩ = some t) &&
    t.guardHolds u.g

theorem solo_of {s u g l t i} (h : solo s u g l t i = true) : Solo s i u g l t := by
  simp only [solo, Bool.and_eq_true, decide_eq_true_eq] at h
  exact { toAtIssue := atIssue_of h.1.1.1, lanes := h.1.1.2, thread := h.1.2, holds := h.2 }

theorem solo_all {s u g l t} {is : List Instr} (h : is.all (solo s u g l t) = true) : ∀ i ∈ is, Solo s i u g l t :=
  fun i hi => solo_of (List.all_eq_true.mp h i hi)

def laneAt (s : State) (u : Issuer) (g : Machine.Group) (l : Nat) (t : Thread) (i : Instr) : Bool :=
  atIssue s u g i && decide (l ∈ g.activeAt u.pc) && decide ((entry s i u g).thread? ⟨u.slot, l⟩ = some t)

theorem laneAt_all {s u g l t} {is : List Instr} (h : is.all (laneAt s u g l t) = true) :
    ∀ i ∈ is, AtIssue s i u g ∧ LaneAt s i u g l t := by
  intro i hi
  have := List.all_eq_true.mp h i hi
  simp only [laneAt, Bool.and_eq_true, decide_eq_true_eq] at this
  exact ⟨atIssue_of this.1.1, this.1.2, this.2⟩

def settled (s : State) (w : Who) (t : Thread) : Bool :=
  t.owed.isNone && !s.ownsEntry w && !s.writesOut w && !s.readsOut w

theorem settled_of {s w t} (h : settled s w t = true) : Settled s w t := by
  simp only [settled, Bool.and_eq_true, Option.isNone_iff_eq_none, Bool.not_eq_true'] at h
  exact ⟨h.1.1.1, h.1.1.2, h.1.2, h.2⟩

def prompt (s : State) : Bool := decide (s.pace = .prompt) && decide (s.past = []) && decide (s.guards = [])

theorem prompt_of {s} (h : prompt s = true) : Prompt s := by
  simp only [prompt, Bool.and_eq_true, decide_eq_true_eq] at h
  exact ⟨h.1.1, h.1.2, h.2⟩

def whole (s : State) (u : Issuer) (g : Machine.Group) (i : Instr) : Bool :=
  decide (g.activeAt u.pc ≠ []) && decide (g.activeAt u.pc = g.members.map (·.1)) &&
    decide (pSet s i u g = g.activeAt u.pc)

theorem whole_of {s u g i} (h : whole s u g i = true) : Whole s i u g := by
  simp only [whole, Bool.and_eq_true, decide_eq_true_eq] at h
  exact ⟨h.1.1, h.1.2, h.2⟩

def rises {α : Type} : Map α → Bool
  | [] => true
  | x :: xs => xs.all (fun y => decide (x.1 < y.1)) && rises xs

theorem rises_of {α : Type} {m : Map α} (h : rises m = true) : KeysRise m := by
  induction m with
  | nil => exact .nil
  | cons x xs ih =>
    simp only [rises, Bool.and_eq_true, List.all_eq_true, decide_eq_true_eq] at h
    refine List.pairwise_cons.mpr ⟨fun k hk => ?_, ih h.2⟩
    obtain ⟨y, hy, rfl⟩ := List.mem_map.mp hk
    exact h.1 y hy

/-! ## Register instructions -/

/-- Format A with destination v10 and sources v2, v4; on pairs with variant 1. -/
def f32a : FmtA := { fa with d := 10, a := 2, b := 4 }
def f64a : FmtA := { f32a with var := 1 }
def f32c : FmtA := { f32a with c := 6 }
def f64c : FmtA := { f64a with c := 6 }
def fi : FmtI := ⟨10, 2, 5⟩

def binForms : List (FmtA → Instr) :=
  [.add, .sub, .mul, .mulh, .mulhu, .min, .max, .minu, .maxu, .and, .or, .xor, .andn, .shl, .shr, .sar, .rol, .ror]

theorem witness_IntegerTwoSourceForms :
    (∀ i ∈ binForms.map (· f32a), AtIssue two i u5 g2) ∧ ∀ i ∈ binForms.map (· f64a), AtIssue two i u5 g2 :=
  ⟨atIssue_all (by decide +kernel), atIssue_all (by decide +kernel)⟩

/-- The divisor is v4 = 2, or v3 = 0. -/
theorem witness_DivisionForms :
    (∀ i ∈ [Instr.div f32a, .divu f32a, .rem f32a, .remu f32a, .div f64a, .divu f64a, .rem f64a, .remu f64a],
      AtIssue one i u5 g1 ∧ LaneAt one i u5 g1 0 (thr some5)) ∧ srcW false g1 (thr some5) false 4 ≠ 0 ∧
    srcW true g1 (thr some5) false 4 ≠ 0 ∧ srcW false g1 (thr some5) false 3 = 0 ∧ srcW true g1 (thr some5) false 8 = 0 ∧
    (∀ i ∈ [Instr.div f32a, .rem f64a], AtIssue (latency (thr some5)) i (iss hw0 false) g1 ∧
      LaneAt (latency (thr some5)) i (iss hw0 false) g1 0 (thr some5)) ∧ g1.activeAt 0x400000 = [0] :=
  ⟨laneAt_all (by decide +kernel), by decide +kernel, by decide +kernel, by decide +kernel, by decide +kernel,
    laneAt_all (by decide +kernel), by decide +kernel⟩

theorem witness_OneSourceAndSaturatingForms :
    (∀ i ∈ ([.abs, .neg, .not, .popc, .clz, .ctz, .brev].flatMap fun i : FmtA → Instr =>
      [i { f32a with b := 0 }, i { f64a with b := 0 }]), AtIssue two i u5 g2) ∧
    (∀ i ∈ [Instr.mad f32c, .mad f64c, .madw f32c, .madw f64c, .sel { f32a with c := 3 }, .sel { f64a with c := 3 },
      .lea f32a, .lea { f32a with var := 4 }], AtIssue two i u5 g2) ∧
    (∀ i ∈ ([0, 1, 2, 3, 4, 5, 6, 7].flatMap fun v =>
      [Instr.addsat { f32a with var := v }, .subsat { f32a with var := v }, .dp4 { f32c with var := v },
       .dp2 { f32c with var := v }]), AtIssue two i u5 g2) :=
  ⟨atIssue_all (by decide +kernel), atIssue_all (by decide +kernel), atIssue_all (by decide +kernel)⟩

/-- C 0x32 names g3 as carry-out and g2 as carry-in; 0x7F is the field's largest value and 0x80 the first refused. -/
theorem witness_AddWithCarry :
    (∀ i ∈ [Instr.addx { f32a with c := 0x32 }, .addx { f64a with c := 0x7F }], AtIssue two i u5 g2) ∧
    128 ≤ (0x80 : BitVec 9).toNat := ⟨atIssue_all (by decide +kernel), by decide⟩

theorem witness_BitFieldForms :
    ∀ i ∈ [Instr.bfx f32c, .bfx { f32c with var := 2 }, .bfx f64c, .bfx { f64c with var := 3 }, .bfi f32c, .bfi f64c, .prmt f32c],
      AtIssue two i u5 g2 := atIssue_all (by decide +kernel)

theorem witness_IntegerImmediateForms :
    ∀ i ∈ ([.addImm, .mulImm, .minImm, .maxImm, .minuImm, .maxuImm, .andImm, .orImm, .xorImm, .shlImm, .shrImm, .sarImm,
      .rolImm, .rorImm, .bfxImm].map (fun i : FmtI → Instr => i fi)) ++ [.movi { fi with a := 0 }], AtIssue two i u5 g2 :=
  atIssue_all (by decide +kernel)

theorem witness_AddressPairForms :
    (∀ i ∈ ([0, 1, 2].flatMap fun v => [Instr.addd { f32a with var := v }, .subd { f32a with var := v },
      .lead { f32a with var := v, mode := 7 }]) ++ [Instr.shld f32a, .shrd f32a, .mulwd f32a, .mulwd f64a, .madwd f32c,
      .madwd f64c], AtIssue two i u5 g2) ∧
    ∀ i ∈ [Instr.adddImm fi, .subdImm fi, .shldImm fi, .shrdImm fi, .mulwdImm fi, .leadImm fi, .leapc { fi with a := 0 }],
      AtIssue two i u5 g2 := ⟨atIssue_all (by decide +kernel), atIssue_all (by decide +kernel)⟩

/-! ## Shared registers, lanes and predicates -/

def sharedForms : List Instr :=
  ([.sadd, .ssub, .smul, .sand, .sor, .sxor, .sshl, .sshr, .ssar, .smin, .smax].map fun i : FmtA → Instr => i f32a) ++
  [.smov { f32a with b := 0 }, .rdflS { f32a with b := 0 }, .rdflS { f64a with b := 0 }, .ballotS { f32a with b := 0 }] ++
  ([.saddImm, .smulImm, .sandImm, .sorImm, .sxorImm, .sshlImm, .sshrImm, .ssarImm, .sminImm, .smaxImm].map
    fun i : FmtI → Instr => i fi) ++ [.smovi { fi with a := 0 }]

/-- The same group under a guard no lane holds, and with a member at another PC. -/
def noGuard : Issuer := { u5 with g := ⟨false, 5⟩ }
def none2 : State := { two with issuer := some noGuard }
def apart : Map Thread := [(0, thr some5), (3, { thr some5 with pc := 0x400008 })]

theorem witness_SharedRegisterForms :
    (∀ i ∈ sharedForms, AtIssue two i u5 g2 ∧ LaneAt two i u5 g2 0 (thr some5)) ∧ (∀ i ∈ sharedForms, Whole two i u5 g2) ∧
    (g2.activeAt u5.pc).head? = some 0 := by
  refine ⟨laneAt_all (by decide +kernel), fun i hi => whole_of ?_, by decide +kernel⟩
  exact List.all_eq_true.mp (by decide +kernel : sharedForms.all (whole two u5 g2) = true) i hi

theorem witness_SharedPartialWrite :
    (∀ i ∈ .sld f32a :: .sldImm fi :: sharedForms, AtIssue none2 i noGuard g2 ∧ LaneAt none2 i noGuard g2 0 (thr some5)) ∧
    pSet none2 (.sadd f32a) noGuard g2 = [] ∧
    (∀ i ∈ .sld f32a :: .sldImm fi :: sharedForms, AtIssue (simt apart) i u5 (grp apart) ∧
      LaneAt (simt apart) i u5 (grp apart) 0 (thr some5)) ∧
    pSet (simt apart) (.sadd f32a) u5 (grp apart) ≠ [] ∧ ¬ Whole (simt apart) (.sadd f32a) u5 (grp apart) := by
  refine ⟨laneAt_all (by decide +kernel), by decide +kernel, laneAt_all (by decide +kernel), by decide +kernel, fun h => ?_⟩
  exact absurd h.2.1 (by decide +kernel)

theorem witness_LaneForms :
    ∀ i ∈ ([f32a, f64a].flatMap fun f => [Instr.mov { f with b := 0 }, .rdfl { f with b := 0 }, .rdln { f with b := 3 },
      .bcast f, .matchEq { f with b := 0 }]) ++ [.shfl { f32a with c := 2 }, .shfl { f32a with var := 7, c := 3 },
      .elect { fa with d := 1 }, .ballot { fa with d := 10, a := 2 }, .pmov { fa with d := 10 },
      .pmovToGuards { fa with var := 1, a := 2 }], AtIssue two i u5 g2 ∧ LaneAt two i u5 g2 3 (thr [(2, .known 5)]) :=
  laneAt_all (by decide +kernel)

theorem witness_PredicateForms :
    ∀ i ∈ [Instr.setp { f32a with d := 1 }, .setp { f32a with d := 1, var := 13, mode := 7, c := 3 },
      .ssetp { f32a with d := 1, var := 5 }, .pand { fa with d := 4, a := 1, b := 3 }, .por { fa with d := 4, a := 1, b := 3 },
      .pxor { fa with d := 4, a := 1, b := 3 }, .pnot { fa with d := 4, a := 1 }, .vote { fa with d := 4, a := 1 },
      .vote { fa with var := 2, d := 4, a := 1 }, .alwp { f32a with d := 1 }, .alwp { f64a with d := 1 }],
      AtIssue two i u5 g2 ∧ LaneAt two i u5 g2 3 (thr [(2, .known 5)]) := laneAt_all (by decide +kernel)

/-! ## Numeric instructions -/

/-- Where a rounding is without overflow: 3 × 2⁻¹ in binary32, not sticky; and a sticky value just above 2²⁵. -/
theorem witness_RoundIsCorrect :
    (f32.round .rne false false 3 (-1) false).2.of = false ∧ (3 : Nat) ≠ 0 ∧ 2 ^ (f32.fw + 2) ≤ 2 ^ 25 ∧
    (f32.round .rup false true (2 ^ 25) 0 true).2.of = false ∧
    ((2 ^ 25 : Nat) : ℚ) * (2 : ℚ) ^ (0 : Int) < 2 ^ 25 + 1 / 2 ∧ (2 ^ 25 + 1 / 2 : ℚ) < ((2 ^ 25 : Nat) + 1) * (2 : ℚ) ^ (0 : Int) := by
  refine ⟨by decide +kernel, by decide, by decide, by decide +kernel, by norm_num, by norm_num⟩

theorem witness_RealOrderAndComparison :
    ∀ i ∈ [Instr.fmin f32a, .fmax f32a, .dmin f32a, .dmax f32a, .fclamp f32c, .fabsneg { f32a with b := 0 },
      .fabsneg { f32a with var := 3 }, .frint { f32a with b := 0 }, .fscale f32a, .fsetp { f32a with d := 1 },
      .fsetp { f32a with d := 1, var := 7, mode := 7, c := 3 }], AtIssue two i u5 g2 ∧ LaneAt two i u5 g2 0 (thr some5) :=
  laneAt_all (by decide +kernel)

theorem witness_RealArithmeticForms :
    ∀ i ∈ [Instr.fadd f32a, .fsub f32a, .fmul f32a, .ffma f32c, .fdiv f32a, .fsqrt { f32a with b := 0 }, .dadd f32a, .dmul f32a,
      .dfma f32c, .ddiv f32a, .dsqrt { f32a with b := 0 }] ++ ([f32a, f64a].flatMap fun f => [Instr.hadd2 f, .hsub2 f, .hmul2 f,
      .hfma2 { f with c := 6 }, .hmin2 f, .hmax2 f, .hdot2 { f with c := 6 }]),
      AtIssue two i u5 g2 ∧ LaneAt two i u5 g2 0 (thr some5) := laneAt_all (by decide +kernel)

theorem witness_FormatConversions :
    (∀ i ∈ ((List.range 16).map fun v => Instr.cvtif { f32a with var := BitVec.ofNat 4 v, b := 0 }) ++
      ((List.range 16).map fun v => Instr.cvtfi { f32a with var := BitVec.ofNat 4 v, b := 0 }) ++
      ((List.range 16).map fun v => Instr.cvtff { f32a with var := BitVec.ofNat 4 v, b := 0 }),
      AtIssue two i u5 g2 ∧ LaneAt two i u5 g2 0 (thr some5)) ∧
    ∀ i ∈ [Instr.cvtff { f32a with var := 2, mode := 5, b := 0 }, .pkh f32a, .pkh { f64a with mode := 5 }, .pkf8 f32a,
      .pkf8 { f32a with var := 6, mode := 4 }, .pkf8 { f32a with mode := 5 }, .upf8 { f32a with b := 0 }, .upf8 { f32a with var := 5, b := 1 }],
      AtIssue two i u5 g2 ∧ LaneAt two i u5 g2 0 (thr some5) := ⟨laneAt_all (by decide +kernel), laneAt_all (by decide +kernel)⟩

theorem witness_SpecialAndBlockForms :
    ∀ i ∈ ([.rcp, .rsq, .sqrta, .exp2, .log2, .sin, .cos, .tanh].map fun i : FmtA → Instr => i { f32a with b := 0 }) ++
      [Instr.bpack { f32a with b := 0 }, .bpack { f32a with var := 2, b := 0 }, .bunpk f32a, .bunpk { f32a with var := 6 },
       .bexp f32a], AtIssue two i u5 g2 ∧ LaneAt two i u5 g2 0 (thr some5) := laneAt_all (by decide +kernel)

/-! ## A small world: pages, tables and a peer

Address space 5 has, in the translations that core 0 of die 0 and latency core 0 of die 4 hold (R341, R343), VA 0x10000
in die 4's LPDDR 6, VA 0x20000 in stack 0 of die 0 and VA 0x30000 at package 1, which is up. -/

/-- PA of die 4's LPDDR 6, and of the address-space table in it. -/
def lp : Nat := Config.hbmTop
def tables : Nat := Config.hbmTop + 0x100000
def pages : List TlbEntry :=
  [⟨5, 0, 0x10000, BitVec.ofNat 64 (0xCFF + lp + 4 * 2 ^ 52), 0x1000⟩, ⟨5, 0, 0x20000, 0x4FF, 0x1000⟩,
   ⟨5, 0, 0x30000, BitVec.ofNat 64 (0x1FF + 2 ^ 52), 0x1000⟩]
/-- A launch header with every extent 1 (R18). -/
def header : List Byte := List.replicate 24 0 ++ (List.replicate 6 [1, 0, 0, 0]).flatten ++ List.replicate 80 0
def cells (pa : Nat) (bs : List Byte) (m : Memory) : Memory := memWrite m pa bs
/-- Both local pages begin with 0x1122334455667788; the header is at 0x880 of stack 0; frames of space 5 are at VA
0x10800 (R340). -/
def mem0 : Memory :=
  cells 0 (leBytes 8 0x1122334455667788) <| cells 0x880 header <| cells lp (leBytes 8 0x1122334455667788) <|
  cells (tables + 64 * 5 + 16) (leBytes 8 0x10800) <| cells (tables + 64 * 5 + 24) (leBytes 8 1) []
def fab : Map DWord := [(0, 0x100), (0x208, 1)]
def tabled : Die := { Die.fresh with regs := [(0, BitVec.ofNat 64 tables), (0xB8, 0x2000)], fabric := fab }
def world (s : State) : State :=
  { s with mem := mem0, cores := [(0, { Core.fresh with tlb := pages }), (256, { Core.fresh with tlb := pages })],
           dies := [(0, tabled), (4, tabled)],
           blocks := [(0, { MemBlock.fresh with regs := [(8, 9)] }), (16, .broughtUp), (17, .broughtUp)] }
/-- One SIMT lane, or one latency thread, in that world. -/
def lane (t : Thread) : State := world (simt [(0, t)])
def user (t : Thread) : State := world (latency t)
def gOf (t : Thread) : Machine.Group := grp [(0, t)]
def uL : Issuer := iss hw0 false

/-- What holds of the only lane holds of every lane at issue. -/
theorem lanes_of {s u g l t i} (h : solo s u g l t i = true) {P : Thread → Prop} (hp : P t) :
    AtIssue s i u g ∧ ∀ k x, LaneAt s i u g k x → P x := by
  have hs := solo_of h
  refine ⟨hs.toAtIssue, fun k x hk => ?_⟩
  have hm := hk.mem
  rw [hs.lanes, List.mem_singleton] at hm
  subst hm
  have ht := hk.thread
  rw [hs.thread] at ht
  cases ht
  exact hp

theorem lanes_all {s u g l t} {is : List Instr} (h : is.all (solo s u g l t) = true) {P : Instr → Thread → Prop}
    (hp : ∀ i ∈ is, P i t) : ∀ i ∈ is, AtIssue s i u g ∧ ∀ k x, LaneAt s i u g k x → P i x :=
  fun i hi => lanes_of (List.all_eq_true.mp h i hi) (hp i hi)

def polled (p : Poll) : Bool := match p with
  | .done _ _ _ _ => true
  | _ => false
def waits (p : Poll) : Bool := match p with
  | .unmet _ => true
  | _ => false
theorem polled_of {p : Poll} (h : polled p = true) : ∃ ws a k s, p = .done ws a k s := by
  cases p <;> first | exact ⟨_, _, _, _, rfl⟩ | cases h
theorem waits_of {p : Poll} (h : waits p = true) : ∃ s, p = .unmet s := by
  cases p <;> first | exact ⟨_, rfl⟩ | cases h

def good {ε α : Type} (x : Except ε α) : Bool := match x with
  | .ok _ => true
  | .error _ => false
theorem good_of {ε α : Type} {x : Except ε α} (h : good x = true) : ∃ a, x = .ok a := by
  cases x with
  | ok a => exact ⟨a, rfl⟩
  | error _ => cases h
theorem bad_of {ε α : Type} {x : Except ε α} (h : good x = false) : ∃ e, x = .error e := by
  cases x with
  | error e => exact ⟨e, rfl⟩
  | ok _ => cases h

/-! ## Control transfer, waits, threads, system -/

/-- v2:v3 is an aligned address, v4 an odd one, s2 = 7 an odd one and s3 = 0. -/
def tj : Thread := thr [(2, .known 0x400100), (4, .known 0x400101)]
def jA : FmtA := { fa with d := 10, a := 2 }

theorem witness_JumpForms :
    (∀ i ∈ [Instr.bra (-4), .call ⟨30, 12⟩, .jr jA, .callr jA, .ret jA, .jrs { fa with a := 3 }],
      AtIssue (lane tj) i u5 (gOf tj) ∧ ∀ l t, LaneAt (lane tj) i u5 (gOf tj) l t → t.guardHolds u5.g = true →
        (src64 (groupAt (lane tj) i u5 (gOf tj)) t false 2).toNat % 8 = 0 ∧
        ((groupAt (lane tj) i u5 (gOf tj)).sreg 3).toNat % 8 = 0) ∧
    isLatency u5.slot = false ∧
    (∀ i ∈ [Instr.jr { jA with a := 4 }, .callr { jA with a := 4 }, .ret { jA with a := 4 }], AtIssue (lane tj) i u5 (gOf tj) ∧
      LaneAt (lane tj) i u5 (gOf tj) 0 tj ∧ (src64 (groupAt (lane tj) i u5 (gOf tj)) tj false 4).toNat % 8 ≠ 0) := by
  refine ⟨lanes_all (l := 0) (t := tj) (by decide +kernel) (by decide +kernel), by decide, fun i hi => ?_⟩
  have ho : (src64 (groupAt (lane tj) i u5 (gOf tj)) tj false 4).toNat % 8 ≠ 0 := by revert i; decide +kernel
  have h := laneAt_all (s := lane tj) (u := u5) (g := gOf tj) (l := 0) (t := tj) (by decide +kernel) i hi
  exact ⟨h.1, h.2, ho⟩

/-- A loop context of count 3 that ends elsewhere, and one that is inactive. -/
def tl : Thread := { thr [(2, .known 3)] with lc0 := ⟨3, 0x400000, 0x400020⟩ }
theorem witness_ReconvergenceForms :
    (∀ i ∈ [Instr.meet jA, .rejoin { jA with d := 0 }, .loop { fa with a := 2, b := 5 }, .loop { fa with d := 1, b := 5 },
      .lpexit fa, .lpexit { fa with d := 1 }], AtIssue (lane tl) i u5 (gOf tl) ∧ LaneAt (lane tl) i u5 (gOf tl) 0 tl) ∧
    tl.lc0.count ≠ 0 ∧ tl.lc0.stop ≠ tl.pc ∧ tl.lc1.count = 0 := ⟨laneAt_all (by decide +kernel), by decide, by decide, by decide⟩

/-- v2 addresses VA 0x10000, whose word is 0x55667788; v4 holds that word and v6 another. Scratchpad word 0 has
generation 0, and slot 16 is open. -/
def tw : Thread := thr [(2, .known 0x10000), (4, .known 0x55667788), (6, .known 1), (8, .known 16)]
def lanew : State := { lane tw with spad := [(0, cells 28 [1] [])] }
def wv (b c : BitVec 9) : FmtA := { fa with d := 10, a := 2, b := b, c := c }
def tb : Thread := { tw with cohort := 0x42 }
/-- A read that comes at once: of local memory, or of a scratchpad of the cluster. -/
def inMem (s : State) (g : Machine.Group) (a : DWord) (n : Nat) (i : Instr) : Bool :=
  match (entry s i u5 g).translate 0 g.asid false a .read with
  | .ok (t0, s1) => match s1.redirect t0 with
    | (tg, none) => decide (tg.kind = .local_) && decide (s1.memFault tg n true = none)
    | _ => false
  | .error _ => false
theorem inMem_of {s g a n i} (h : inMem s g a n i = true) : ∃ t0 tg s1,
    (entry s i u5 g).translate 0 g.asid false a .read = .ok (t0, s1) ∧ s1.redirect t0 = (tg, none) ∧ tg.kind = .local_ ∧
      s1.memFault tg n true = none := by
  unfold inMem at h
  split at h
  · rename_i t0 s1 ht
    split at h
    · rename_i tg hr
      simp only [Bool.and_eq_true, decide_eq_true_eq] at h
      exact ⟨t0, tg, s1, ht, hr, h.1, h.2⟩
    · cases h
  · cases h
theorem witness_WaitForms_reads :
    (∃ t0 tg s1, (entry lanew (.waitv (wv 4 0)) u5 (gOf tw)).translate 0 5 false 0x10000 .read = .ok (t0, s1) ∧
      s1.redirect t0 = (tg, none) ∧ tg.kind = .local_ ∧ s1.memFault tg 4 true = none) ∧ Prompt lanew ∧
    (∀ r ∈ lanew.reqs, r.who.slot ≠ u5.slot) ∧ (0x10000 : DWord).toNat % 4 = 0 ∧
    (entry lanew (.waits { fa with b := 6 }) u5 (gOf tw)).spadCheck 5 5 0 8 = .ok (0, 0) ∧
    (entry lanew (.waitp { fa with a := 8, b := 6 }) u5 (gOf tw)).spadCheck 5 5 16 16 = .ok (0, 16) ∧
    (lanew.core 0).spoiled = [] ∧ leVal (memRead (lanew.spadOf 0) 0 8) / 2 ^ 63 = 0 ∧ isLatency u5.slot = false :=
  ⟨inMem_of (by decide +kernel), prompt_of (by decide +kernel), by decide +kernel, by decide, by decide +kernel,
    by decide +kernel, by decide +kernel, by decide +kernel, by decide⟩

theorem witness_WaitForms :
    (∀ i ∈ [Instr.waitv (wv 4 0), .waits { fa with b := 6 }, .waits fa, .waitp { fa with a := 8, b := 6 },
      .waitp { fa with a := 8 }, .bar { fa with var := 2 }, .gsync, .sleep { fa with d := 10, a := 6 }, .wake { fa with a := 6 }],
      Solo lanew i u5 (gOf tw) 0 tw ∧ Settled (entry lanew i u5 (gOf tw)) ⟨5, 0⟩ tw) ∧
    (∃ ws a k s, lanew.poll ⟨5, 0⟩ 5 (.waitv 0x10000 0 false false 0x55667788 10 none) = .done ws a k s) ∧
    (∃ s, lanew.poll ⟨5, 0⟩ 5 (.waitv 0x10000 0 false false 1 10 none) = .unmet s) ∧
    (∃ ws a k s, lanew.poll ⟨5, 0⟩ 5 (.waits 0 1) = .done ws a k s) ∧ (∃ s, lanew.poll ⟨5, 0⟩ 5 (.waits 0 0) = .unmet s) ∧
    (∃ ws a k s, lanew.poll ⟨5, 0⟩ 5 (.waitp 16 1) = .done ws a k s) ∧ (∃ s, lanew.poll ⟨5, 0⟩ 5 (.waitp 16 0) = .unmet s) ∧
    tw.cohort = 0 ∧ (gOf tw).members.map (·.1) = [0] ∧ (gOf tw).wake.getLsbD 0 = false ∧
    Solo (lane tb) (.bar fa) u5 (gOf tb) 0 tb ∧ (lane tb).cohort? tb.cohort = none ∧
    Settled (entry (lane tb) (.bar fa) u5 (gOf tb)) ⟨5, 0⟩ tb := by
  refine ⟨fun i hi => ⟨solo_all (by decide +kernel) i hi, settled_of ?_⟩, polled_of (by decide +kernel),
    waits_of (by decide +kernel), polled_of (by decide +kernel), waits_of (by decide +kernel), polled_of (by decide +kernel),
    waits_of (by decide +kernel), by decide, by decide, by decide, solo_of (by decide +kernel), by decide +kernel,
    settled_of (by decide +kernel)⟩
  revert i
  decide +kernel

/-- A kept wake (R137). -/
def gw : Machine.Group := { gOf tw with wake := 1 }
def wakeKept : State := { lane tw with groups := [(5, gw)] }
theorem witness_WaitForms_wake : Solo wakeKept (.sleep { fa with d := 10, a := 6 }) u5 gw 0 tw ∧ gw.wake.getLsbD 0 = true :=
  ⟨solo_of (by decide +kernel), by decide⟩

/-- v2 = 1 is a good MIGRATE target and v6 = 5 a bad one; the headers are at VA 0x20880 and, all zero, 0x20900. -/
def tt : Thread := thr [(2, .known 1), (4, .known 0x20880), (6, .known 5), (8, .known 0x20900)]
def headed (x : Except Nat (List Byte × State)) (e : Option Nat) : Bool := match x with
  | .ok (h, _) => decide (hdrError h = e)
  | .error _ => false
theorem header_of {x e} (h : headed x e = true) : ∃ b s1, x = .ok (b, s1) ∧ hdrError b = e := by
  cases x with
  | ok p => exact ⟨p.1, p.2, rfl, of_decide_eq_true h⟩
  | error _ => cases h
theorem witness_ThreadForms :
    (∀ i ∈ [Instr.migrate { fa with a := 2 }, .migrate { fa with a := 6 }, .fanout { fa with d := 10, a := 4 },
      .fanout { fa with d := 10, a := 8 }, .exit, .yield], Solo (lane tt) i u5 (gOf tt) 0 tt ∧
      Settled (entry (lane tt) i u5 (gOf tt)) ⟨5, 0⟩ tt) ∧
    (let e := entry (lane tt) (.migrate { fa with a := 2 }) u5 (gOf tt)
     let x : Thread := { tt.loopNext.1 with pc := tt.loopNext.2 }
     let frame := e.tframe 0 5 x
     frame ≠ 0 ∧ frame.toNat % 64 = 0 ∧ ∃ s1, e.writeVa 0 5 false frame
       (frameBytes x (gOf tt).footprint 5 tt.loopNext.2 0 .none) (lines (frameSize (gOf tt).footprint)) = .ok s1) ∧
    (∃ h s1, (entry (lane tt) (.fanout { fa with d := 10, a := 4 }) u5 (gOf tt)).readVa 0 5 false 0x20880 128 (lines 128) =
      .ok (h, s1) ∧ hdrError h = none) ∧
    (∃ h s1, (entry (lane tt) (.fanout { fa with d := 10, a := 8 }) u5 (gOf tt)).readVa 0 5 false 0x20900 128 (lines 128) =
      .ok (h, s1) ∧ hdrError h = some 1) ∧ (lane tt).cohort? tt.cohort = none ∧ KeysRise (gOf tt).members := by
  refine ⟨fun i hi => ⟨solo_all (by decide +kernel) i hi, settled_of ?_⟩, ⟨by decide +kernel, by decide +kernel,
    good_of (by decide +kernel)⟩, ?_, ?_, by decide +kernel, rises_of (by decide)⟩
  · revert i
    decide +kernel
  · exact header_of (x := (entry (lane tt) (.fanout { fa with d := 10, a := 4 }) u5 (gOf tt)).readVa 0 5 false 0x20880 128
      (lines 128)) (e := none) (by decide +kernel)
  · exact header_of (x := (entry (lane tt) (.fanout { fa with d := 10, a := 8 }) u5 (gOf tt)).readVa 0 5 false 0x20900 128
      (lines 128)) (e := some 1) (by decide +kernel)

/-- A thread with a handler at 0x400800, and one in it. -/
def th : Thread := { thr some5 with utv := 0x400800 }
def brk (s : State) : State := { s with dies := [(0, { tabled with regs := [(0, BitVec.ofNat 64 tables), (0x400, 1)] })] }
theorem witness_SystemForms :
    (∀ i ∈ [Instr.nop, .trap { fa with a := 2 }, .eret, .live 0x200, .stepBegin { fa with a := 2 }, .stepEnd { fa with var := 1 },
      .ptag { fa with a := 2 }], AtIssue (lane th) i u5 (gOf th) ∧
      ∀ l t, LaneAt (lane th) i u5 (gOf th) l t → t.guardHolds u5.g = true → t.utv ≠ 0 ∧ t.inHandler = false) ∧
    ((brk (lane th)).dreg 0 0x400).getLsbD 0 = true ∧ AtIssue (brk (lane th)) (.brkpt { fa with a := 7 }) u5 (gOf th) ∧
    ∀ l t, LaneAt (brk (lane th)) (.brkpt { fa with a := 7 }) u5 (gOf th) l t → t.guardHolds u5.g = true →
      t.utv ≠ 0 ∧ t.inHandler = false := by
  refine ⟨lanes_all (l := 0) (t := th) (by decide +kernel) (by decide), by decide +kernel, ?_⟩
  exact lanes_of (l := 0) (t := th) (by decide +kernel) (P := fun t => t.guardHolds u5.g = true → t.utv ≠ 0 ∧ t.inHandler = false) (by decide)

/-- A frame whose flag word is 0 holds no pending system call and no signal (R90). -/
theorem threadOf_flags {bs st} (h : field bs 92 4 = 0) :
    (threadOf bs st).sysPend = false ∧ (threadOf bs st).signal = none :=
  ⟨(congrArg (bit · 3) h).trans (by decide), if_neg (by rw [congrArg (bit · 4) h]; decide)⟩

/-- The supervisor context issues ERET; SFRAME of the hardware thread is 0x4000 into the LPDDR 6, where a frame of zeros
lies. -/
def ts : Thread := thr some5
def gs : Machine.Group := { Group.supervisor 0 with members := [(0, ts)] }
def uS : Issuer := iss (hw0 + 2) true
def supervisor : State :=
  world { State.reset with issuer := some uS, groups := [(hw0 + 2, gs)], hw := [(hw0, ⟨true, true, true, true⟩)] }
def sframe : State :=
  { supervisor with dies := [(0, tabled), (4, { tabled with regs := [(0xB8, 0x2000), (0x100, BitVec.ofNat 64 (lp + 0x4000))] })] }

theorem witness_SupervisorEntryAndReturn :
    Solo (user ts) .syscall uL (gOf ts) 0 ts ∧ KeysRise (user ts).groups ∧ KeysRise ((user ts).die 4).switched ∧
    isLatency hw0 = true ∧ isSup hw0 = false ∧ slotOf hw0 < 2 ∧ (user ts).group? (supSlot hw0) = some (Group.supervisor 0x800) ∧
    (Group.supervisor 0x800).members.map (·.1) = [0] ∧ Settled (entry (user ts) .syscall uL (gOf ts)) ⟨hw0, 0⟩ ts ∧
    Solo sframe .eretSupervisor uS gs 0 ts ∧ isSup uS.slot = true ∧ slotOf uS.slot < 4 ∧
    (let pa := (sframe.dreg 4 0x100).toNat
     let bs := memRead sframe.mem pa (frameSize (w32 (field (memRead sframe.mem pa 384) 88 4)))
     (∃ b, sframe.readPhys pa 64 = .ok b) ∧ ∀ st, (threadOf bs st).sysPend = false ∧ (threadOf bs st).signal = none) ∧
    Solo (lane tt) .syscall u5 (gOf tt) 0 tt ∧ Settled (entry (lane tt) .syscall u5 (gOf tt)) ⟨5, 0⟩ tt ∧
    (let frame := (entry (lane tt) .syscall u5 (gOf tt)).tframe 0 5 { tt with sysPend := true }
     frame ≠ 0 ∧ frame.toNat % 64 = 0 ∧ ∃ s1, (entry (lane tt) .syscall u5 (gOf tt)).writeVa 0 5 false frame
       (frameBytes { tt with sysPend := true } (gOf tt).footprint 5 tt.pc 0 .none)
       (lines (frameSize (gOf tt).footprint)) = .ok s1) := by
  refine ⟨solo_of (by decide +kernel), rises_of (by decide +kernel), rises_of (by decide +kernel), by decide, by decide,
    by decide, by decide +kernel, by decide, settled_of (by decide +kernel), solo_of (by decide +kernel), by decide, by decide,
    ⟨good_of (by decide +kernel), fun st => threadOf_flags (by decide +kernel)⟩, solo_of (by decide +kernel),
    settled_of (by decide +kernel), by decide +kernel, by decide +kernel, good_of (by decide +kernel)⟩

def csrs (f : FmtC) : List Instr := [.csrr { f with a := 0 }, .csrw f, .csrset f, .csrclr f]
theorem witness_CsrForms :
    (∀ i ∈ [0x000, 0x001, 0x004, 0x005, 0x006].flatMap fun n => csrs ⟨false, decide (0x003 < n), BitVec.ofNat 12 n, 10, 2⟩,
      Solo (lane tj) i u5 (gOf tj) 0 tj) ∧
    ∀ i ∈ csrs ⟨false, true, 0x003, 10, 2⟩, Solo supervisor i uS gs 0 ts :=
  ⟨solo_all (by decide +kernel), solo_all (by decide +kernel)⟩

/-! ## Memory -/

def tgLp : Target := ⟨.local_, lp, 4, 16, 0, none, false, false⟩
def tgHbm : Target := ⟨.local_, 0, 0, 0, 0, none, false, false⟩
def tgPeer : Target := ⟨.peer, 0, 0, 0, 1, none, true, false⟩

def reaches (s : State) (u : Issuer) (g : Machine.Group) (l : Nat) (t : Thread) (acc : Acc) (kind : Nat) (va : DWord)
    (n : Nat) (tg : Target) (i : Instr) : Bool :=
  decide ((entry s i u g).aim (ctxAt s i u g) acc va n = .ok (tg, none, s)) && decide (tg.kind = .local_) &&
    decide (s.memFault tg n acc.reads = none) && decide (s.bpFor ⟨u.slot, l⟩ t g.asid kind va.toNat n = none) &&
    decide (∀ r ∈ s.reqs, r.who.slot ≠ u.slot) && prompt s && decide (t.back = none) &&
    decide ((s.core (coreOfSlot u.slot)).reg 0xA08 = 0) &&
    decide (unitDie tg.unit = dieOfSlot u.slot ∨ 4 ≤ unitDie tg.unit ∨ s.dreg (unitDie tg.unit) 0x070 = 0)

theorem reaches_of {s u g l t acc kind va n tg i} (h : reaches s u g l t acc kind va n tg i = true) :
    Reaches s i u g l t acc kind va n tg s := by
  simp only [reaches, Bool.and_eq_true, decide_eq_true_eq] at h
  exact ⟨h.1.1.1.1.1.1.1.1, h.1.1.1.1.1.1.1.2, h.1.1.1.1.1.1.2, h.1.1.1.1.1.2, h.1.1.1.1.2, prompt_of h.1.1.1.2, h.1.1.2,
    h.1.2, h.2⟩

/-- One lane that reaches memory, alone. -/
def touches (s : State) (u : Issuer) (g : Machine.Group) (l : Nat) (t : Thread) (acc : Acc) (kind : Nat) (va : DWord)
    (n : Nat) (tg : Target) (i : Instr) : Bool := solo s u g l t i && reaches s u g l t acc kind va n tg i

theorem touches_all {s u g l t acc kind va n tg} {is : List Instr}
    (h : is.all (touches s u g l t acc kind va n tg) = true) :
    ∀ i ∈ is, Solo s i u g l t ∧ Reaches s i u g l t acc kind va n tg s := by
  intro i hi
  have := List.all_eq_true.mp h i hi
  simp only [touches, Bool.and_eq_true] at this
  exact ⟨solo_of this.1, reaches_of this.2⟩

/-- v2 addresses stack 0 of die 0, v4 the LPDDR 6 and v6 the peer. -/
def tm : Thread := thr [(2, .known 0x20000), (4, .known 0x10000), (6, .known 0x30000), (8, .known 0x1), (16, .known 9)]
def fM (ba : BitVec 9) (sz : BitVec 3) : FmtM := { fm0 with t := 12, ba := ba, sz := sz }
def fN (ba : BitVec 9) (sz : BitVec 3) : FmtN := { fn0 with t := 12, ba := ba, sz := sz }
def fAt (ba : BitVec 9) (sz : BitVec 3) : FmtN := { fN ba sz with db := 16 }
def fCas (ba : BitVec 9) (sz : BitVec 3) : FmtN := { fAt ba sz with dc := 20 }
def globals (ba : BitVec 9) : List Instr :=
  [.aadd (fAt ba 2), .aand (fAt ba 2), .aor (fAt ba 2), .axor (fAt ba 2), .amin (fAt ba 2), .amax (fAt ba 2), .aminn (fAt ba 2),
   .amaxn (fAt ba 2), .aswap (fAt ba 2), .acas (fCas ba 2), .afadd (fAt ba 2)]
def locals (ba : BitVec 9) : List Instr :=
  [.aaddSpad (fAt ba 2), .aandSpad (fAt ba 2), .aorSpad (fAt ba 2), .axorSpad (fAt ba 2), .aminSpad (fAt ba 2),
   .amaxSpad (fAt ba 2), .aminnSpad (fAt ba 2), .amaxnSpad (fAt ba 2), .aswapSpad (fAt ba 2), .acasSpad (fCas ba 2),
   .afaddSpad (fAt ba 2)]

theorem witness_LocalMemoryForms :
    (∀ i ∈ [Instr.ld (fM 2 2), .ld { fM 2 2 with sx := true, ord := 1 }], Solo (lane tm) i u5 (gOf tm) 0 tm ∧
      Reaches (lane tm) i u5 (gOf tm) 0 tm .read 1 0x20000 4 tgHbm (lane tm)) ∧
    (∀ i ∈ [Instr.ld (fM 2 4)], Solo (lane tm) i u5 (gOf tm) 0 tm ∧
      Reaches (lane tm) i u5 (gOf tm) 0 tm .read 1 0x20000 16 tgHbm (lane tm)) ∧
    (∀ i ∈ [Instr.st (fM 2 0), .st { fM 2 0 with ord := 2 }], Solo (lane tm) i u5 (gOf tm) 0 tm ∧
      Reaches (lane tm) i u5 (gOf tm) 0 tm .write 2 0x20000 1 tgHbm (lane tm)) ∧
    (∀ i ∈ globals 2, Solo (lane tm) i u5 (gOf tm) 0 tm ∧
      Reaches (lane tm) i u5 (gOf tm) 0 tm .update 3 0x20000 4 tgHbm (lane tm)) ∧
    (∀ i ∈ [Instr.aswap (fAt 2 4), .acas (fCas 2 4)], Solo (lane tm) i u5 (gOf tm) 0 tm ∧
      Reaches (lane tm) i u5 (gOf tm) 0 tm .update 3 0x20000 16 tgHbm (lane tm)) ∧
    (∀ i ∈ [Instr.lds (fN 4 3)], Solo (user tm) i uL (gOf tm) 0 tm ∧
      Reaches (user tm) i uL (gOf tm) 0 tm .read 1 0x10000 8 tgLp (user tm)) ∧
    (∀ i ∈ [Instr.sts (fN 4 3), .sts { fN 4 3 with ord := 2 }], Solo (user tm) i uL (gOf tm) 0 tm ∧
      Reaches (user tm) i uL (gOf tm) 0 tm .write 2 0x10000 8 tgLp (user tm)) ∧
    Memory.wf mem0 = true ∧ Settled (lane tm) ⟨5, 0⟩ tm ∧ Settled (user tm) ⟨hw0, 0⟩ tm ∧ unitDie 0 = 0 ∧ unitDie 16 = 4 :=
  ⟨touches_all (by decide +kernel), touches_all (by decide +kernel), touches_all (by decide +kernel),
    touches_all (by decide +kernel), touches_all (by decide +kernel), touches_all (by decide +kernel),
    touches_all (by decide +kernel), by decide +kernel, settled_of (by decide +kernel), settled_of (by decide +kernel),
    by decide, by decide⟩

/-- Scratchpad address 0 (v0) of the core's own region, and of core 1's region that another group of the space owns. -/
def other : Machine.Group := { gOf tm with members := [] }
def laneS : State := { lane tm with groups := [(5, gOf tm), (1024 + 7, other)], spad := [(0, [(0, 7)])] }
def spadFor (core : Nat) (a : DWord) (n : Nat) (i : Instr) : Bool :=
  solo laneS u5 (gOf tm) 0 tm i && decide ((entry laneS i u5 (gOf tm)).spadAim (ctxAt laneS i u5 (gOf tm)) a n = .ok (core, 0))
theorem spadFor_all {core a n} {is : List Instr} (h : is.all (spadFor core a n) = true) : ∀ i ∈ is,
    Solo laneS i u5 (gOf tm) 0 tm ∧ (entry laneS i u5 (gOf tm)).spadAim (ctxAt laneS i u5 (gOf tm)) a n = .ok (core, 0) := by
  intro i hi
  have := List.all_eq_true.mp h i hi
  simp only [spadFor, Bool.and_eq_true, decide_eq_true_eq] at this
  exact ⟨solo_of this.1, this.2⟩

theorem witness_ScratchpadForms :
    (∀ i ∈ locals 0, Solo laneS i u5 (gOf tm) 0 tm ∧
      (entry laneS i u5 (gOf tm)).spadAim (ctxAt laneS i u5 (gOf tm)) 0 4 = .ok (0, 0)) ∧
    (∀ i ∈ [Instr.lds (fN 0 4), .sts (fN 0 4), .sts { fN 0 4 with ord := 2 }, .aswapSpad (fAt 0 4), .acasSpad (fCas 0 4)],
      Solo laneS i u5 (gOf tm) 0 tm ∧ (entry laneS i u5 (gOf tm)).spadAim (ctxAt laneS i u5 (gOf tm)) 0 16 = .ok (0, 0)) ∧
    (∀ i ∈ [Instr.lds (fN 14 3), .sts (fN 14 3)], Solo laneS i u5 (gOf tm) 0 tm ∧
      (entry laneS i u5 (gOf tm)).spadAim (ctxAt laneS i u5 (gOf tm)) 0x400000 8 = .ok (1, 0)) ∧
    (∀ r ∈ laneS.reqs, r.who.slot ≠ 5) ∧ Memory.wf (laneS.spadOf 0) = true ∧ Settled laneS ⟨5, 0⟩ tm ∧ Prompt laneS ∧
    tm.back = none ∧ (∀ n ∈ [4, 16], laneS.spadOwned 5 0 0 n = true) ∧ laneS.spadOwned 5 1 0 8 = true ∧
    ∀ c ∈ [0, 1], (laneS.core c).spoiled = [] :=
  ⟨spadFor_all (by decide +kernel), spadFor_all (by decide +kernel), spadFor_all (by decide +kernel), by decide +kernel,
    by decide +kernel, settled_of (by decide +kernel), prompt_of (by decide +kernel), by decide, by decide +kernel,
    by decide +kernel, by decide +kernel⟩

/-- v8 = 1 is misaligned and unmapped; address 0x800000 is no page; scratchpad 0x100000 is beyond the region. -/
def tf : Thread := thr [(2, .known 0x20002), (4, .known 0x800000), (8, .known 0x100000)]
def soloAnd (s : State) (u : Issuer) (g : Machine.Group) (l : Nat) (t : Thread) (p : Instr → Bool) (i : Instr) : Bool :=
  solo s u g l t i && p i
theorem soloAnd_all {s u g l t} {p : Instr → Bool} {is : List Instr} (h : is.all (soloAnd s u g l t p) = true) :
    ∀ i ∈ is, Solo s i u g l t ∧ p i = true := by
  intro i hi
  have := List.all_eq_true.mp h i hi
  simp only [soloAnd, Bool.and_eq_true] at this
  exact ⟨solo_of this.1, this.2⟩

theorem witness_RefusedAccesses :
    (∀ i ∈ .ld (fM 2 2) :: .st (fM 2 2) :: globals 2, Solo (lane tf) i u5 (gOf tf) 0 tf ∧
      decide ((src64 (groupAt (lane tf) i u5 (gOf tf)) tf false 2).toNat % 4 ≠ 0) = true) ∧
    (∀ i ∈ .ld (fM 4 2) :: .st (fM 4 2) :: globals 4, Solo (lane tf) i u5 (gOf tf) 0 tf ∧
      decide ((entry (lane tf) i u5 (gOf tf)).aim (ctxAt (lane tf) i u5 (gOf tf)) .read 0x800000 4 = .error (4, 0x800000)) = true) ∧
    (∀ i ∈ .lds (fN 8 2) :: .sts (fN 8 2) :: locals 8, Solo (lane tf) i u5 (gOf tf) 0 tf ∧
      decide ((entry (lane tf) i u5 (gOf tf)).spadAim (ctxAt (lane tf) i u5 (gOf tf)) 0x100000 4 = .error 5) = true) :=
  ⟨soloAnd_all (by decide +kernel), soloAnd_all (by decide +kernel), soloAnd_all (by decide +kernel)⟩

theorem witness_PeerAccessForms :
    (∀ i ∈ .ld (fM 6 2) :: .st (fM 6 2) :: globals 6, Solo (lane tm) i u5 (gOf tm) 0 tm ∧
      decide ((entry (lane tm) i u5 (gOf tm)).aim (ctxAt (lane tm) i u5 (gOf tm)) .update 0x30000 4 =
        .ok (tgPeer, none, lane tm)) = true) ∧ tgPeer.kind = .peer ∧ (lane tm).peerState 1 = 1 ∧
    (∀ kind ∈ [1, 2, 3], (lane tm).bpFor ⟨5, 0⟩ tm 5 kind 0x30000 4 = none) ∧ (∀ r ∈ (lane tm).reqs, r.who.slot ≠ 5) ∧
    ((lane tm).core 0).reg 0xA08 = 0 ∧ (lane tm).ownBytes ⟨5, 0⟩ 1 0 4 = (none, false) ∧ ((lane tm).core 0).entry 1 0 = none ∧
    (lane tm).alw 0 1 ≠ 0 ∧ (lane tm).ownsEntry ⟨5, 0⟩ = false ∧ (lane tm).egressCredit 0 1 ≠ 0 ∧ Prompt (lane tm) ∧
    tm.fences = [] :=
  ⟨soloAnd_all (by decide +kernel), by decide, by decide +kernel, by decide +kernel, by decide +kernel, by decide +kernel,
    by decide +kernel, by decide +kernel, by decide +kernel, by decide +kernel, by decide +kernel, prompt_of (by decide +kernel),
    by decide⟩

/-- SLD of stack 0 by a whole group. -/
theorem witness_SharedLoad :
    (∀ i ∈ [Instr.sld { fa with d := 8, a := 2 }], AtIssue (lane tm) i u5 (gOf tm) ∧ LaneAt (lane tm) i u5 (gOf tm) 0 tm) ∧
    Whole (lane tm) (.sld { fa with d := 8, a := 2 }) u5 (gOf tm) ∧ ((gOf tm).activeAt u5.pc).head? = some 0 ∧
    Reaches (lane tm) (.sld { fa with d := 8, a := 2 }) u5 (gOf tm) 0 tm .read 1 0x20000 8 tgHbm (lane tm) ∧
    AtIssue (lane tm) (.sldImm ⟨8, 3, 0x20000⟩) u5 (gOf tm) ∧ Whole (lane tm) (.sldImm ⟨8, 3, 0x20000⟩) u5 (gOf tm) ∧
    Reaches (lane tm) (.sldImm ⟨8, 3, 0x20000⟩) u5 (gOf tm) 0 tm .read 1 0x20000 8 tgHbm (lane tm) :=
  ⟨laneAt_all (by decide +kernel), whole_of (by decide +kernel), by decide +kernel, reaches_of (by decide +kernel),
    atIssue_of (by decide +kernel), whole_of (by decide +kernel), reaches_of (by decide +kernel)⟩

/-! ## Fences, replies and drains -/

/-- A thread in IINV, CLEAN or TLBI, and one owed cause 0x06 (R70). -/
def inMaint (m : Maint) : State :=
  { lane { tm with run := .maint m } with subject := .lane ⟨0, 0, 5, 0⟩ }
def tOwed : Thread := { tm with owed := some 1 }
def nPref : FmtN := { fn0 with ba := 2 }
def maints : List Instr := [.fence fn0, .pref nPref, .iinv { nPref with db := 8 }, .iinv nPref, .clean { nPref with db := 8 }]
theorem witness_FenceAndMaintenance :
    (∀ i ∈ maints, Solo (lane tm) i u5 (gOf tm) 0 tm ∧ (entry (lane tm) i u5 (gOf tm)).ownsEntry ⟨5, 0⟩ = false ∧
      Settled (entry (lane tm) i u5 (gOf tm)) ⟨5, 0⟩ tm) ∧
    Solo (lane tOwed) (.fence fn0) u5 (gOf tOwed) 0 tOwed ∧ isLatency u5.slot = false ∧
    (tm.reg 8).toNat ≠ 0 ∧ (tm.reg 0).toNat = 0 ∧ Solo supervisor (.tlbi { nPref with sz := 0 }) uS gs 0 ts ∧
    ((inMaint (.iinv 0 64 0)).thread? (laneWho ⟨0, 0, 5, 0⟩)).map Thread.run = some (.maint (.iinv 0 64 0)) ∧
    ((inMaint (.clean 0 64)).thread? (laneWho ⟨0, 0, 5, 0⟩)).map Thread.run = some (.maint (.clean 0 64)) ∧
    (inMaint (.clean 0 64)).writesOut (laneWho ⟨0, 0, 5, 0⟩) = false ∧
    ((inMaint (.tlbi 1 0 5 0)).thread? (laneWho ⟨0, 0, 5, 0⟩)).map Thread.run = some (.maint (.tlbi 1 0 5 0)) := by
  refine ⟨fun i hi => ⟨solo_all (is := maints) (by decide +kernel) i hi, ?_, settled_of ?_⟩, solo_of (by decide +kernel),
    by decide, by decide, by decide, solo_of (by decide +kernel), by decide +kernel, by decide +kernel, by decide +kernel,
    by decide +kernel⟩ <;> revert i <;> decide +kernel

/-- A load and a store of stack 0, a store at the peer, an entry of the peer's line at its age limit. -/
def req (op : ReqOp) (dest : Dest) : Req :=
  { id := 0, who := ⟨5, 0⟩, pc := 0x400000, va := 0, pa := 0, dest := dest, op := op, pin := false, reg := 12, acq := false,
    attr := none, tagged := false, cycles := 0, atMove := none, sc := 0, batch := 0, paid := [], glue := false, preds := [] }
def flying (op : ReqOp) (dest : Dest) : State := { lane tm with reqs := [req op dest], subject := .idx 0 }
def agedE : WcEntry := ⟨1, none, 0, [(0, 7)], ⟨5, 0⟩, 1000000, 0, false, 0, false⟩
def agedC : Core := { Core.fresh with tlb := pages, wc := [agedE] }
def aged : State := { lane tm with cores := [(0, agedC)], subject := .coreIdx ⟨0, 0⟩ 0 }
theorem witness_RepliesAndDrains :
    (∀ n ∈ [1, 2, 4, 8, 16], pick ((flying (.load n false []) (.unit 0)).arriving Req.isFetch) 0 =
      some (req (.load n false []) (.unit 0))) ∧
    (flying (.load 8 false []) (.unit 0)).memFault ((req (.load 8 false []) (.unit 0)).target 0) 8 true = none ∧
    (flying (.load 8 false []) (.unit 0)).thread? ⟨5, 0⟩ = some tm ∧
    pick ((flying (.write (cellsAt 0 [1, 2]) false) (.unit 0)).arriving Req.isWrite) 0 =
      some (req (.write (cellsAt 0 [1, 2]) false) (.unit 0)) ∧
    (flying (.write (cellsAt 0 [1, 2]) false) (.unit 0)).memFault tgHbm 2 false = none ∧
    (lane tm).dreg (unitDie 0) 0x070 = 0 ∧ Memory.wf mem0 = true ∧
    pick ((flying (.write (cellsAt 0 [1, 2]) true) (.peer 1 none)).arriving Req.isWrite) 0 =
      some (req (.write (cellsAt 0 [1, 2]) true) (.peer 1 none)) ∧
    (lane tm).peerState 1 = 1 ∧ Memory.wf ((lane tm).peerMem 1) = true ∧
    pick ((aged.core 0).wc.filter fun e => decide (((aged.core 0).reg 0x803).toNat ≤ e.age) && !e.leaving) 0 = some agedE ∧
    aged.peerState 1 = 1 ∧ (∀ q ∈ [1], aged.egressCredit 0 q ≠ 0) := by decide +kernel
/-- What RepliesAndDrains calls alone, of each of those requests. -/
theorem witness_RepliesAndDrains_alone : ∀ x ∈ ([(.load 8 false [], .unit 0), (.write (cellsAt 0 [1, 2]) false, .unit 0),
      (.write (cellsAt 0 [1, 2]) true, .peer 1 none)] : List (ReqOp × Dest)),
    prompt (flying x.1 x.2) = true ∧ (flying x.1 x.2).together (req x.1 x.2) = some [req x.1 x.2] ∧
    (flying x.1 x.2).here (req x.1 x.2) = req x.1 x.2 ∧ (req x.1 x.2).tagged = false ∧
    (∀ e ∈ ((flying x.1 x.2).core (req x.1 x.2).who.core).wc, e.leaving = false) ∧ tm.back = none := by decide +kernel

/-! ## Standing loads -/

/-- Slot 16 of the core's scratchpad, a subscription to stack 0 recorded for it, and the home's entry. -/
def sub0 : Sub := ⟨16, 5, 5, 0, .unit 0, 0x20000, false, 0⟩
def sub1 : Subscriber := ⟨0, 16, 5, 3, true, 0, false, 0, none, 0⟩
def tst : Thread := thr [(2, .known 0x20000), (4, .known 16)]
def standI : Instr := .stand { fn0 with t := 4, ba := 2, sz := 3, db := 3 }
def unstandI : Instr := .unstand { fn0 with t := 4, sz := 3 }
def homeRegs : Map DWord := [(0, BitVec.ofNat 64 tables), (0x78, 0x10000000), (0x80, 0x11000000), (0x88, 8), (0x90, 1), (0xB8, 0x2000)]
def subbed : State :=
  { lane tst with cores := [(0, { Core.fresh with tlb := pages, subs := [sub0], pushq := [⟨16, 5, 9, 1, false, none, 0, 0⟩] })],
                  dies := [(0, { tabled with home := [⟨0, [sub1]⟩], regs := homeRegs })] }
def unpushed : State :=
  { subbed with cores := [(0, { Core.fresh with tlb := pages, subs := [sub0] })], subject := .coreIdx ⟨0, 0⟩ 0 }

theorem witness_StandingLoads :
    Solo (lane tst) standI u5 (gOf tst) 0 tst ∧
    (entry (lane tst) standI u5 (gOf tst)).slotCheck (ctxAt (lane tst) standI u5 (gOf tst)) 16 = none ∧
    Reaches (lane tst) standI u5 (gOf tst) 0 tst .read 3 0x20000 8 tgHbm (lane tst) ∧
    (lane tst).awaiting 0 5 16 true = false ∧ (lane tst).openSub 0 5 16 = none ∧
    Solo (lane tst) unstandI u5 (gOf tst) 0 tst ∧
    (entry (lane tst) unstandI u5 (gOf tst)).slotCheck (ctxAt (lane tst) unstandI u5 (gOf tst)) 16 = none ∧
    Solo subbed unstandI u5 (gOf tst) 0 tst ∧
    (entry subbed unstandI u5 (gOf tst)).slotCheck (ctxAt subbed unstandI u5 (gOf tst)) 16 = none ∧
    subbed.openSub 0 5 16 = some sub0 ∧ sub0.lost = false ∧ subbed.awaiting 0 5 16 false = false := by
  refine ⟨solo_of (by decide +kernel), by decide +kernel, reaches_of (by decide +kernel), by decide +kernel,
    by decide +kernel, solo_of (by decide +kernel), by decide +kernel, solo_of (by decide +kernel), by decide +kernel,
    by decide +kernel, rfl, by decide +kernel⟩

def arrives (op : ReqOp) (s : State) : State := { s with reqs := [req op (.unit 0)], subject := .idx 0 }
theorem slotAt_0 (s : State) (h : (decide (spadDecode 0 16 = .ok (0, 16)) && s.spadOwned 5 0 16 16 &&
    decide ((s.core 0).spoiled = []) && Memory.wf (s.spadOf 0) && prompt s) = true) : SlotAt s 0 5 16 0 16 := by
  simp only [Bool.and_eq_true, decide_eq_true_eq] at h
  exact ⟨by decide, h.1.1.1.1, h.1.1.1.2, h.1.1.2, h.1.2, prompt_of h.2⟩

theorem witness_StandReplies :
    (∀ s ∈ [subbed, lane tst], pick ((arrives (.stand 16 3) s).arriving Req.isStand) 0 = some (req (.stand 16 3) (.unit 0)) ∧
      (arrives (.stand 16 3) s).together (req (.stand 16 3) (.unit 0)) = some [req (.stand 16 3) (.unit 0)] ∧
      (arrives (.stand 16 3) s).here (req (.stand 16 3) (.unit 0)) = req (.stand 16 3) (.unit 0) ∧
      (arrives (.stand 16 3) s).memFault tgHbm 8 true = none ∧ s.dreg 0 0x070 = 0 ∧ s.group? 5 = some (gOf tst)) ∧
    SlotAt (arrives (.stand 16 3) (lane tst)) 0 5 16 0 16 ∧
    lookup 0 (gOf tst).members = some tst ∧ SlotAt (arrives (.stand 16 3) subbed) 0 5 16 0 16 ∧
    (decide ((subbed.core 0).subs.length < 4096) && subbed.homeHasRoom 0 0) = true ∧
    (decide (((lane tst).core 0).subs.length < 4096) && (lane tst).homeHasRoom 0 0) = false :=
  ⟨by decide +kernel, slotAt_0 _ (by decide +kernel), by decide +kernel, slotAt_0 _ (by decide +kernel), by decide +kernel,
    by decide +kernel⟩

theorem witness_PushForms :
    (subbed.core (coreIdKey ⟨0, 0⟩)).pushq = [⟨16, 5, 9, 1, false, none, 0, 0⟩] ∧ (subbed.core 0).stopped = false ∧
    (∀ y ∈ (subbed.core 0).subs, y.lost = false) ∧ (unpushed.core 0).stopped = false ∧
    ((subbed.core 0).subs.find? fun u => u.slot == 16 && u.owner == 5 && u.no == 0) = some sub0 ∧ SlotAt subbed 0 5 16 0 16 ∧
    ((unpushed.die 0).home.flatMap fun l => (l.subs.filter fun u => u.core == 0 && u.owed && !u.susp).map fun u => (l.pa, u)) =
      [(0, sub1)] ∧ ((unpushed.core 0).subs.find? fun z => z.slot == 16 && z.no == 0) = some sub0 ∧ prompt unpushed = true ∧ (∀ q ∈ (unpushed.core 0).pushq, q.slot ≠ 16) ∧
    (unpushed.core 0).pushq.length < 64 ∧
    pick ((arrives (.unstand 16) subbed).arriving Req.isUnstand) 0 = some (req (.unstand 16) (.unit 0)) ∧
    (((arrives (.unstand 16) subbed).core 0).subs.find? fun z => z.slot == 16 && z.no == (req (.unstand 16) (.unit 0)).sub) = some sub0 ∧ sub0.lost = false ∧ (arrives (.unstand 16) subbed).subscriber 0 sub0 = some sub1 ∧
    SlotAt (arrives (.unstand 16) subbed) 0 5 16 0 16 :=
  ⟨by decide +kernel, by decide +kernel, by decide +kernel, by decide +kernel, by decide +kernel, slotAt_0 _ (by decide +kernel), by decide +kernel,
    by decide +kernel, by decide +kernel, by decide +kernel, by decide +kernel, by decide +kernel, by decide +kernel, rfl, by decide +kernel,
    slotAt_0 _ (by decide +kernel)⟩

/-- A peer's request for stack 0. -/
def fromPeer (op : HomeOp) : State := { lane tm with subject := .home ⟨1, 0, op, none, 0⟩ }
theorem witness_HomeRequests : ∀ op ∈ [HomeOp.write [1, 2], .read 8, .atomic 0 4 5 0, .atomic 9 8 5 0],
    (fromPeer op).subject = .home ⟨1, 0, op, none, 0⟩ ∧ (fromPeer op).localAt 0 false false = some tgHbm ∧
    (fromPeer op).guards = [] ∧
    (fromPeer op).redirect tgHbm = (tgHbm, none) ∧ (fromPeer op).peerState 1 = 1 ∧ Memory.wf (fromPeer op).mem = true ∧
    (fromPeer op).memFault tgHbm 8 true = none ∧ (fromPeer op).memFault tgHbm 2 false = none ∧
    ((atomics fn0)[9]?).isSome = true := by decide +kernel

/-! ## Sync words, copies and the matrix arrays -/

/-- v2:v3 = 64, an address the group owns; v4 = 65 misaligned; v6 = 0x800000 out of range; v8 = 0x100. -/
def tn : Thread := thr [(2, .known 64), (4, .known 65), (6, .known 0x800000), (8, .known 0x100)]
def swI : List Instr := [.swinit ⟨10, 2, 8, 0, 0⟩, .swadd ⟨10, 2, 8, 0, 0⟩]
theorem witness_SyncWordForms :
    (∀ i ∈ swI, Solo (lane tn) i u5 (gOf tn) 0 tn ∧
      decide ((entry (lane tn) i u5 (gOf tn)).nearCheck 5 5 false 64 8 8 = none ∧
        (entry (lane tn) i u5 (gOf tn)).nearCheck 5 5 false 65 8 8 = some 3 ∧
        (entry (lane tn) i u5 (gOf tn)).nearCheck 5 5 false 0x800000 8 8 = some 5) = true) ∧
    spadDecode 0 64 = .ok (0, 64) ∧ (lane tn).spadOwned 5 0 64 8 = true ∧ Memory.wf ((lane tn).spadOf 0) = true ∧
    (∀ r ∈ (lane tn).reqs, r.who.slot ≠ 5) ∧ Settled (lane tn) ⟨5, 0⟩ tn ∧ Prompt (lane tn) ∧ ((lane tn).core 0).spoiled = [] ∧
    (lane tn).ownsEntry ⟨5, 0⟩ = false ∧ tn.fences = [] :=
  ⟨soloAnd_all (by decide +kernel), by decide +kernel, by decide +kernel, by decide +kernel, by decide +kernel,
    settled_of (by decide +kernel), prompt_of (by decide +kernel), by decide +kernel, by decide +kernel, by decide⟩

/-- TARGET 0x1000 and COUNT 0xF00, and TARGET 0 (R218). -/
theorem witness_SyncWordArithmetic : 0x1000 * 2 ^ 28 + 0xF00 < 2 ^ 64 ∧ (0x1000 * 2 ^ 28 + 0xF00) / 2 ^ 28 % 2 ^ 28 ≠ 0 ∧
    0xF00 / 2 ^ 28 % 2 ^ 28 = 0 := by decide

def fx (a : BitVec 9) : FmtX := ⟨1, a, 0, 0, 0⟩
def mats (a : BitVec 9) : List Instr :=
  [.mmab4 { fx a with c := 16 }, .mmab6 { fx a with c := 16 }, .mmab8 { fx a with c := 16 }, .mmaf8 (fx a), .mmah (fx a),
   .mmai8 (fx a), .mmag { fx a with c := 16 }, .mmas { fx a with p := 7 }, .ald (fx a), .ast (fx a)]
def tiled : List Instr := [.azero { fx0 with d := 1 }, .mtrn ⟨1, 2, 0, 0, 0⟩, .mprm ⟨1, 2, 0, 0, 0⟩, .mred ⟨1, 2, 0, 0, 3⟩]
def checkOf (i : Instr) (f : FmtX) : Option (Nat × DWord) :=
  (entry (lane tn) i u5 (gOf tn)).matCheck 5 5 false .update (matRanges i f (tn.pair f.a.toNat) (tn.pair f.b.toNat) 0)
theorem witness_MatrixIssue :
    (∀ i ∈ mats 0 ++ tiled, Solo (lane tn) i u5 (gOf tn) 0 tn ∧ ((matFields i).map (checkOf i) == some none) = true) ∧
    (∀ i ∈ mats 6 ++ [.mprm ⟨1, 2, 6, 0, 0⟩], Solo (lane tn) i u5 (gOf tn) 0 tn ∧
      ((matFields i).bind (checkOf i)).isSome = true) ∧ isLatency u5.slot = false :=
  ⟨soloAnd_all (by decide +kernel), soloAnd_all (by decide +kernel), by decide⟩

/-- A command at the head of a queue, on the array or not. -/
def cmdOf (i : Instr) (on : Bool) : MatCmd :=
  { word := (encode ⟨g0, 0, i⟩).getD 0, a := 0, b := 0, c := 0, issuer := ⟨5, 0⟩, attr := none, cycles := 0, poison := false,
    next := 0, onArr := on, scaleA := [], scaleB := [], table := [], first := 0 }
def queued (i : Instr) (on : Bool) : Machine.Group := { gOf tn with queue := [cmdOf i on] }
def onArray (i : Instr) (on : Bool) : State :=
  { lane tn with groups := [(5, queued i on)], subject := .slot ⟨0, 0, 5⟩ }

theorem lookup_all {α : Type} {p : α → Bool} {k : Nat} {a : α} {m : Map α} (h : m.all (fun x => p x.2) = true)
    (hk : lookup k m = some a) : p a = true := by
  induction m with
  | nil => cases hk
  | cons x m ih =>
    simp only [List.all_cons, Bool.and_eq_true] at h
    simp only [lookup] at hk
    split at hk
    · cases hk
      exact h.1
    · split at hk
      · cases hk
      · exact ih h.2 hk
theorem unspoiled {s : State} (h : s.cores.all (fun x => decide (x.2.spoiled = [])) = true) (k : Nat) :
    (s.core k).spoiled = [] := by
  unfold State.core Machine.get
  cases hk : lookup k s.cores with
  | none => rfl
  | some c => exact of_decide_eq_true (lookup_all (p := fun c : Core => decide (c.spoiled = [])) h hk)

theorem witness_ArrayResults : ∀ x ∈ ([(.azero { fx0 with d := 1 }, { fx0 with d := 1 }), (.ald (fx 0), fx 0),
      (.mtrn ⟨1, 2, 0, 0, 0⟩, ⟨1, 2, 0, 0, 0⟩), (.mprm ⟨1, 2, 0, 0, 0⟩, ⟨1, 2, 0, 0, 0⟩), (.mred ⟨1, 2, 0, 0, 3⟩, ⟨1, 2, 0, 0, 3⟩),
      (.mmab4 { fx 0 with c := 16 }, { fx 0 with c := 16 }), (.mmab6 { fx 0 with c := 16 }, { fx 0 with c := 16 }),
      (.mmab8 { fx 0 with c := 16 }, { fx 0 with c := 16 }), (.mmaf8 (fx 0), fx 0), (.mmah (fx 0), fx 0),
      (.mmaf8 { fx 0 with p := 1 }, { fx 0 with p := 1 }), (.mmai8 { fx 0 with p := 64 }, { fx 0 with p := 64 })] : List (Instr × FmtX)),
    OnArray (onArray x.1 true) ⟨0, 0, 5⟩ (queued x.1 true) (cmdOf x.1 true) [] x.1 x.2 ∧ (cmdOf x.1 true).next = 0 ∧
      tileErr (queued x.1 true) (x.2.d.toNat % 16) = false ∧ isLatency (slotIdKey ⟨0, 0, 5⟩) = false := by
  intro x hx
  have h : (onArray x.1 true).group? (slotIdKey ⟨0, 0, 5⟩) = some (queued x.1 true) ∧
      (onArray x.1 true).arraysRun (slotIdKey ⟨0, 0, 5⟩) (queued x.1 true) = true ∧
      (cmdOf x.1 true).instr = some (x.1, x.2) ∧ tileErr (queued x.1 true) (x.2.d.toNat % 16) = false := by
    revert x; decide +kernel
  have hp : (onArray x.1 true).cores = (lane tn).cores ∧ (onArray x.1 true).reqs = [] ∧
      (onArray x.1 true).ownsEntry (cmdOf x.1 true).issuer = false := by revert x; decide +kernel
  exact ⟨⟨rfl, h.1, rfl, rfl, h.2.1, h.2.2.1, rfl, ⟨rfl, rfl⟩, ⟨rfl, rfl, rfl⟩, by simp [hp.2.1], hp.2.2,
    unspoiled (by rw [hp.1]; decide +kernel), fun n => rfl, rfl⟩, rfl, h.2.2.2, by decide⟩

/-- A multiply of two K-blocks, at its first. -/
theorem witness_MultiplyResults_start :
    (onArray (.mmaf8 { fx 0 with p := 1 }) true).arraysRun (slotIdKey ⟨0, 0, 5⟩) (queued (.mmaf8 { fx 0 with p := 1 }) true) = true ∧
    (cmdOf (.mmaf8 { fx 0 with p := 1 }) true).instr = some (.mmaf8 { fx 0 with p := 1 }, { fx 0 with p := 1 }) ∧
    (cmdOf (.mmaf8 { fx 0 with p := 1 }) true).next + 1 < ({ fx 0 with p := 1 } : FmtX).p.toNat % 16 + 1 := by decide +kernel

theorem witness_MatrixStart : ∀ on : Bool, (onArray (.azero fx0) on).subject = .slot ⟨0, 0, 5⟩ ∧
    (onArray (.azero fx0) on).group? (slotIdKey ⟨0, 0, 5⟩) = some (queued (.azero fx0) on) ∧
    (queued (.azero fx0) on).queue = [cmdOf (.azero fx0) on] ∧ (cmdOf (.azero fx0) on).onArr = on ∧
    (onArray (.azero fx0) on).arraysRun (slotIdKey ⟨0, 0, 5⟩) (queued (.azero fx0) on) = true := by decide +kernel

theorem witness_BlockSumIsExact : ∀ x ∈ [Machine.Num.fin false 3 (-1)] ++ [Machine.Num.fin true 5 2], ∃ n m e, x = .fin n m e := by
  intro x hx
  simp only [List.cons_append, List.nil_append, List.mem_cons, List.not_mem_nil, or_false] at hx
  rcases hx with rfl | rfl <;> exact ⟨_, _, _, rfl⟩

/-- A record of one dimension of 16 words at VA 0x20000, the box that takes it whole (R220, R221), and its descriptor. -/
def record : List Byte :=
  leBytes 8 0x20000 ++ [2, 1, 0, 0] ++ leBytes 4 16 ++ (List.replicate 4 (leBytes 4 1)).flatten ++ List.replicate 32 0
def box : Nat := 16 + 2 ^ 12 + 2 ^ 24 + 2 ^ 36 + 2 ^ 48
def desc : List Byte := record ++ leBytes 8 box ++ leBytes 4 64 ++ leBytes 4 64 ++ leBytes 4 0xD7C05A01 ++ leBytes 44 0
/-- v2 = 0x100 is near; the descriptor is at 0; v24 = 0x200 is a sync word and v26 a follow-on MMAF8; the start is 0. -/
def mmaWord : DWord := (encode ⟨g0, 0, .mmaf8 ⟨1, 0, 0, 0, 0⟩⟩).getD 0
def tc : Thread :=
  thr [(2, .known 0x100), (4, .known (BitVec.ofNat 32 box)), (5, .known (BitVec.ofNat 32 (box / 2 ^ 32))),
    (24, .known 0x200), (26, .known (mmaWord.setWidth 32)), (27, .known ((mmaWord >>> 32).setWidth 32))]
def laneC : State := { lane tc with spad := [(0, cells 0 desc [])] }
def copyArgs (sync : DWord) (list : Option DWord) (p : Nat) : Machine.CopyIssue := ⟨0x100, 0, [0, 0, 0, 0, 0], list, sync, p⟩
def tcpyI : FmtX := ⟨2, 0, 16, 0, 0⟩
def copiesOk (x : Machine.CopyIssue) (i : Instr) : Bool :=
  let e := entry laneC i u5 (gOf tc)
  let cx := ctxAt laneC i u5 (gOf tc)
  decide (e.copyCheck cx x none = none ∧ e.nearRead (cx.doer 0 laneC.reqNo) x.desc 128 = .ok desc e ∧
    e.copyCheck cx x (descGeo desc) = none)

theorem witness_CopyIssue :
    (∀ i ∈ [Instr.tcpy tcpyI], Solo laneC i u5 (gOf tc) 0 tc ∧ copiesOk (copyArgs 0 none 0) i = true) ∧
    (∀ i ∈ [Instr.tgath tcpyI], Solo laneC i u5 (gOf tc) 0 tc ∧ copiesOk (copyArgs 0 (some 0) 0) i = true) ∧
    (∀ i ∈ [Instr.tcpym { tcpyI with c := 24 }], Solo laneC i u5 (gOf tc) 0 tc ∧ copiesOk (copyArgs 0x200 none 0) i = true) ∧
    tc.pair 24 ≠ 0 ∧ followOn (tc.pair 26) false false (gOf tc).footprint = .ok (⟨g0, 0, .mmaf8 ⟨1, 0, 0, 0, 0⟩⟩, ⟨1, 0, 0, 0, 0⟩) ∧
    (entry laneC (.tcpym { tcpyI with c := 24 }) u5 (gOf tc)).matCheck 5 5 false .update
      (matRanges (.mmaf8 ⟨1, 0, 0, 0, 0⟩) ⟨1, 0, 0, 0, 0⟩ 0 0 0) = none ∧
    (∀ j < 4, (laneC.chan 0 j).cmds = []) ∧ laneC.reqs = [] ∧ laneC.ownsEntry ⟨5, 0⟩ = false ∧
    Solo laneC (.cchn ⟨0, 10, 0, 0, 2⟩) u5 (gOf tc) 0 tc ∧ (tc.pair 10).toNat % 64 = 0 ∧ tc.pair 0 = 0 ∧ isLatency u5.slot = false :=
  ⟨soloAnd_all (by decide +kernel), soloAnd_all (by decide +kernel), soloAnd_all (by decide +kernel), by decide +kernel,
    by decide +kernel, by decide +kernel, by decide +kernel, by decide +kernel, by decide +kernel, solo_of (by decide +kernel),
    by decide +kernel, by decide +kernel, by decide⟩

/-- The record at 0x40 of stack 0; zeros at 0x80 are no record. -/
def laneR : State := { lane tc with mem := cells 0x40 record mem0, spad := [] }
def shapeRead (va : DWord) (bs : List Byte) (i : Instr) : Bool :=
  match (entry laneR i u5 (gOf tc)).readNow ⟨5, 0⟩ 5 va 64 with
  | .ok b _ s1 => decide (b = bs ∧ s1.thread? ⟨5, 0⟩ = some tc ∧ s1.spadOwned 5 0 0x100 128 = true ∧
      Memory.wf (s1.spadOf 0) = true ∧ (∀ r ∈ s1.reqs, r.who.slot ≠ 5) ∧ s1.ownsEntry ⟨5, 0⟩ = false) && prompt s1
  | _ => false
theorem shapeRead_of {va bs i} (h : shapeRead va bs i = true) : ∃ a s1,
    (entry laneR i u5 (gOf tc)).readNow ⟨5, 0⟩ 5 va 64 = .ok bs a s1 ∧ s1.thread? ⟨5, 0⟩ = some tc ∧
      s1.spadOwned 5 0 0x100 128 = true ∧ Memory.wf (s1.spadOf 0) = true ∧ Prompt s1 ∧ (∀ r ∈ s1.reqs, r.who.slot ≠ 5) ∧
      s1.ownsEntry ⟨5, 0⟩ = false := by
  unfold shapeRead at h
  split at h
  · rename_i b a s1 hr
    simp only [Bool.and_eq_true, decide_eq_true_eq] at h
    obtain ⟨⟨rfl, h1, h2, h3, h4, h5⟩, h6⟩ := h
    exact ⟨a, s1, hr, h1, h2, h3, prompt_of h6, h4, h5⟩
  · cases h
theorem witness_ShapeForms :
    (∀ i ∈ [Instr.shape ⟨2, 0, 4, 0, 0⟩], Solo laneR i u5 (gOf tc) 0 tc ∧
      decide ((entry laneR i u5 (gOf tc)).nearCheck 5 5 false 0x100 128 128 = none ∧
        shapeRead 0x20040 record i = true ∧ shapeRead 0x20080 (List.replicate 64 0) i = true) = true) ∧
    (geoOf record box).isSome = true ∧ geoOf (List.replicate 64 0) box = none ∧ spadDecode 0 0x100 = .ok (0, 0x100) ∧
    record.length = 64 ∧ tc.fences = [] ∧
    ∃ a s1, (entry laneR (.shape ⟨2, 0, 4, 0, 0⟩) u5 (gOf tc)).readNow ⟨5, 0⟩ 5 0x20040 64 = .ok record a s1 ∧
      s1.thread? ⟨5, 0⟩ = some tc ∧ s1.spadOwned 5 0 0x100 128 = true ∧ Memory.wf (s1.spadOf 0) = true ∧ Prompt s1 ∧
      (∀ r ∈ s1.reqs, r.who.slot ≠ 5) ∧ s1.ownsEntry ⟨5, 0⟩ = false :=
  ⟨soloAnd_all (by decide +kernel), by decide +kernel, by decide +kernel, by decide +kernel, by decide +kernel,
    by decide +kernel, shapeRead_of (by decide +kernel)⟩

/-- A channel's command: the copy above, idle, running with two elements left, of a bad descriptor, or of a page that is
not mapped; and a chain. -/
def copy (d : List Byte) : Copy :=
  { desc := d, near := 0x100, start := [0, 0, 0, 0, 0], list := none, mcast := 0, acq := false, rel := false, store := false }
def chanCmd (op : ChanOp) (run : Bool) : ChanCmd :=
  { word := 0, issuer := ⟨5, 0⟩, asid := 5, sup := false, regs := [], sync := 0, op := op, running := run, todo := [0, 1],
    rows := [], parts := [], sent := [], bad := none, record := [], chores := [], first := 0, back := none,
    attr := ⟨0, 0, 0⟩, cycles := 0 }
def running (x : ChanCmd) (m : Memory) : State :=
  { laneC with cores := [(0, { Core.fresh with tlb := pages, chans := [(0, ⟨[x], 0, 0⟩)] })], mem := m, subject := .chan ⟨0, 0, 0⟩ }
def lost : List Byte := leBytes 8 0x900000 ++ (desc.drop 8)
def engOk {α : Type} (x : Eng α) : Bool := match x with
  | .ok _ _ => true
  | _ => false
theorem engOk_of {α : Type} {x : Eng α} (h : engOk x = true) : ∃ a s, x = .ok a s := by
  cases x <;> first | exact ⟨_, _, rfl⟩ | cases h
/-- Nothing of channel 0 of core 0 is in flight. -/
def engIdle (s : State) : Bool := s.reqs.all fun r => r.who != ((chanCmd (.chain 0) true).doer 0 0).who
theorem engIdle_of {s} (h : engIdle s = true) : ∀ r ∈ s.reqs, r.who ≠ ((chanCmd (.chain 0) true).doer 0 0).who :=
  fun r hr => by simpa using List.all_eq_true.mp h r hr
/-- The first element of a copy, as far as it goes now: of its page, and of one that is not mapped. -/
def elementOf (d : List Byte) : Option Nat × ChanCmd × State :=
  (running (chanCmd (.copy (copy d)) true) mem0).element 0 (chanCmd (.copy (copy d)) true) (copy d)
    ((descGeo d).getD ⟨0, 0, 0, 0, 0, [], [], [], 0⟩) 0

/-- The subject's channel, a command idle or running, with an element performed, or with a line that failed. -/
theorem witness_CopyEvents :
    (∀ run : Bool, ∀ d ∈ [desc, lost, []], let x := chanCmd (.copy (copy d)) run
      ((running x mem0).chan 0 0).cmds = [x] ∧ (running x mem0).engineRuns 0 = true ∧ engIdle (running x mem0) = true ∧
      (running x mem0).drainOver 0 = false ∧ x.chores = [] ∧ x.sync = 0 ∧ x.running = run ∧ x.todo = 0 :: [1] ∧ x.bad = none) ∧
    (descGeo desc).isSome = true ∧ descGeo [] = none ∧ (descGeo lost).isSome = true ∧
    ((elementOf desc).2.1.chores = [] ∧ (elementOf desc).2.1.todo ≠ []) ∧
    ((elementOf lost).1 = some 4 ∧ (elementOf lost).2.1.sync = 0 ∧ (elementOf lost).2.1.slot = 5 ∧
      engIdle (elementOf lost).2.2 = true) ∧
    (∀ x ∈ [{ chanCmd (.copy (copy desc)) true with sent := [0] }, { chanCmd (.copy (copy desc)) true with bad := some 6 }],
      ((running x mem0).chan 0 0).cmds = [x] ∧ (running x mem0).engineRuns 0 = true ∧ engIdle (running x mem0) = true) := by
  decide +kernel

/-- A transfer record of 16 bytes from VA 0x20000 to 0x20400, with OWN, and one without (R231). -/
def recOf (own : Nat) : List Byte :=
  leBytes 8 0 ++ leBytes 4 own ++ leBytes 4 16 ++ leBytes 8 0x20000 ++ leBytes 8 0x20400 ++ List.replicate 32 0
def chained (own : Nat) (rec : DWord) : State := running (chanCmd (.chain rec) true) (cells 0x100 (recOf own) mem0)
def chainX : ChanCmd := chanCmd (.chain 0x20100) true
def chainRead (own : Nat) : Eng (List Byte) := (chained own 0x20100).engReadLine { chainX.doer 0 0 with back := none } 0x20100 64
def read_ (own : Nat) : Bool := match chainRead own with
  | .ok r s1 => decide (r = recOf own) && decide (s1.pace.grain = 0)
  | _ => false
/-- The copy of the record's bytes, and the word that clears OWN and STAT. -/
def carried (s1 : State) : Nat × Option Nat × State :=
  s1.moveSides (chainX.doer 0 0) (.far 0x20000) (.far 0x20400) 16 0 16 (16 / 32 + 3)
def cleared (s2 : State) : Eng Unit :=
  (s2.setHead 0 0 { chainX with record := recOf 1, parts := [(0, 16)], chores := [.done, .tally, .next] }).engWriteLine
    { chainX.doer 0 0 with prompt := true } (0x20100 + 8) (leBytes 4 0) none
def closed : Bool := match chainRead 1 with
  | .ok _ s1 => decide ((carried s1).1 = 16 ∧ (carried s1).2.1 = none) && engIdle (carried s1).2.2 &&
      match cleared (carried s1).2.2 with
      | .ok _ s3 => engIdle s3
      | _ => false
  | _ => false
theorem closed_of (h : closed = true) : ∃ r s1 s2 s3, chainRead 1 = .ok r s1 ∧ carried s1 = (16, none, s2) ∧
    engIdle s2 = true ∧ cleared s2 = .ok () s3 ∧ engIdle s3 = true := by
  unfold closed at h
  split at h
  · rename_i r s1 hr
    simp only [Bool.and_eq_true, decide_eq_true_eq] at h
    obtain ⟨⟨⟨h1, h2⟩, h3⟩, h4⟩ := h
    split at h4
    · rename_i s3 hs
      exact ⟨r, s1, (carried s1).2.2, s3, hr, Prod.ext h1 (Prod.ext h2 rfl), h3, hs, h4⟩
    · cases h4
  · cases h

theorem witness_ChainRecords :
    (∀ own < 2, ((chained own 0x20100).chan 0 0).cmds = [chainX] ∧ (chained own 0x20100).engineRuns 0 = true ∧
      (chained own 0x20100).drainOver 0 = false ∧ engIdle (chained own 0x20100) = true ∧ read_ own = true ∧
      (field (recOf own) 8 4).testBit 0 = decide (own = 1)) ∧
    (chainX.chores = [] ∧ chainX.record = [] ∧ chainX.sync = 0 ∧ chainX.running = true ∧ chainX.bad = none) ∧
    recordBad (recOf 1) false = false ∧ field (recOf 1) 48 8 = 0 ∧ (field (recOf 1) 8 4).testBit 1 = false ∧
    (field (recOf 1) 8 4).testBit 2 = false ∧ (0x20108 : DWord).toNat % 64 ≠ 0 ∧
    ∃ r s1 s2 s3, chainRead 1 = .ok r s1 ∧ carried s1 = (16, none, s2) ∧ engIdle s2 = true ∧ cleared s2 = .ok () s3 ∧
      engIdle s3 = true :=
  ⟨by decide +kernel, by decide +kernel, by decide +kernel, by decide +kernel, by decide +kernel, by decide +kernel,
    by decide, closed_of (by decide +kernel)⟩


/-! ## The scheduler, admission, faults and saves -/

def some5T : Thread := thr some5

theorem witness_WordsWithoutInstruction :
    (0xFFFFFFFFFFFFFFFF : DWord).toNat % 64 = 0x3F ∧ (0x225 : DWord).toNat % 64 = 0x25 ∧
    (two.issuer = some u5 ∧ two.group? u5.slot = some g2 ∧ isLatency u5.slot = false) ∧
    (user some5T).issuer = some uL ∧ (user some5T).group? uL.slot = some (gOf some5T) ∧ isLatency uL.slot = true ∧
    (gOf some5T).activeAt uL.pc = [0] := by decide +kernel

/-- Lane 0 held at 0x400000 for HOLDLIM's 4,096 cycles (R17), asleep with a limit of 10 (R137), waiting (R141). -/
def tHeld : Thread := { thr some5 with meet := 0x400000, run := .held 4096 }
def tAsleep (limit n : Nat) : Thread := { thr some5 with run := .waiting (.sleep limit 10) false n }
def wtv (cmp : DWord) : Wait := .waitv 0x20000 0 false false cmp 10 none
def tWaitv (cmp : DWord) : Thread := { thr some5 with run := .waiting (wtv cmp) false 0 }
def subj (s : State) (x : Subject) : State := { s with subject := x }
def timed (n : DWord) : Machine.Group := { gOf some5T with tmr := 100, gcyc := n }
def timedS (n : DWord) : State := { lane some5T with groups := [(5, timed n)], subject := .slot ⟨0, 0, 5⟩ }

theorem witness_ExpiryEvents :
    (let s := subj (lane tHeld) (.meet ⟨0, 0, 5⟩ 0x400000)
     s.group? (slotIdKey ⟨0, 0, 5⟩) = some (gOf tHeld) ∧ lookup 0 (gOf tHeld).members = some tHeld ∧ tHeld.run = .held 4096 ∧
     tHeld.meet = 0x400000 ∧ ((s.core (coreOfSlot (slotIdKey ⟨0, 0, 5⟩))).reg 0x800).toNat ≤ 4096) ∧
    (∀ x ∈ [(10, 10), (10, 9), (0, 9)], let s := subj (lane (tAsleep x.1 x.2)) (.lane ⟨0, 0, 5, 0⟩)
      s.thread? (laneWho ⟨0, 0, 5, 0⟩) = some (tAsleep x.1 x.2)) ∧
    (∀ met : Bool, let cmp : DWord := if met then 0x55667788 else 1
      let s := subj (lane (tWaitv cmp)) (.lane ⟨0, 0, 5, 0⟩)
      s.group? 5 = some (gOf (tWaitv cmp)) ∧ lookup 0 (gOf (tWaitv cmp)).members = some (tWaitv cmp)) ∧
    (∃ ws a k s1, (subj (lane (tWaitv 0x55667788)) (.lane ⟨0, 0, 5, 0⟩)).poll ⟨5, 0⟩ 5 (wtv 0x55667788) = .done ws a k s1) ∧
    (∃ s1, (subj (lane (tWaitv 1)) (.lane ⟨0, 0, 5, 0⟩)).poll ⟨5, 0⟩ 5 (wtv 1) = .unmet s1) ∧
    (∀ late : Bool, let n : DWord := if late then 100 else 99
      (timedS n).group? (slotIdKey ⟨0, 0, 5⟩) = some (timed n)) ∧ (timed 100).tmr ≠ 0 ∧
    (timed 100).tmr.toNat ≤ (timed 100).gcyc.toNat ∧ (timed 99).gcyc.toNat < (timed 99).tmr.toNat :=
  ⟨by decide +kernel, by decide +kernel, by decide +kernel, polled_of (by decide +kernel), waits_of (by decide +kernel),
    by decide +kernel, by decide +kernel, by decide +kernel, by decide +kernel⟩

/-- Threads that migrate with the frame of zeros at 0x20800, to S-die 0 (target 0, R28) and to L-die 4 (target 6). -/
def tGone (target : Nat) : Thread := { thr some5 with run := .migrating target 0x20800 0x400000 }
def gone (target : Nat) : State := subj (lane (tGone target)) (.lane ⟨0, 0, 5, 0⟩)
/-- A latency thread whose frame at 0x10800 is in die 4's LPDDR 6, bound for die 4. -/
def tHome : Thread := { thr some5 with run := .migrating 9 0x10800 0x400000 }
def homing : State := subj (user tHome) (.lane ⟨4, 0, 0, 0⟩)
def key : OpenKey := ⟨0x400000, 128, 5, 0, [thr some5], 2048⟩
/-- Core 0 of die 0 enabled (R357), a key and a packed group that wait, and a cohort of one thread that does. -/
def packed : State :=
  { lane some5T with dies := [(0, { tabled with regs := [(0, BitVec.ofNat 64 tables), (0xA8, 1)], keys := [key],
                                                formed := [⟨key, 0⟩] }), (4, tabled)] }
def co0 : Cohort := ⟨header, 5, 0, some 3, []⟩
def cohorts : State :=
  { packed with dies := [(0, { tabled with regs := [(0, BitVec.ofNat 64 tables), (0xA8, 1)] })], cohorts := [(0x42, co0)] }

theorem some_of {α : Type} {x : Option α} (h : x.isSome = true) : ∃ a, x = some a := Option.isSome_iff_exists.mp h

theorem witness_AdmissionEvents :
    ((gone 0).migrant ⟨5, 0⟩ = some (gOf (tGone 0), tGone 0, 0, 0x20800) ∧ (gone 0).targetDie 0 0 = some 0) ∧
    (∃ bs, (gone 0).frameAt ⟨5, 0⟩ (gOf (tGone 0)) 0x20800 = some bs ∧ fpValid (BitVec.ofNat 32 (field bs 88 4)) = true) ∧
    KeysRise (gOf (tGone 0)).members ∧ KeysRise (gone 0).groups ∧
    (homing.migrant ⟨hw0, 0⟩ = some (gOf tHome, tHome, 9, 0x10800) ∧ homing.targetDie 4 9 = some 4) ∧
    (∃ p s1, homing.translate (coreOfSlot hw0) 5 false 0x10800 .read = .ok p ∧ p.1.kind = .local_ ∧
      homing.writePhys (p.1.pa + 80) (leBytes 8 0) = .ok s1) ∧
    (packed.die 0).keys[0]? = some key ∧ (packed.die 0).packwin.toNat ≤ key.cycles ∧ (packed.die 0).formed = [⟨key, 0⟩] ∧
    packed.heldBack 0 key.prio 0 = false ∧ packed.coreFor 0 key.footprint = some 0 ∧
    (∃ p, packed.placeGroup 0 (Group.start 128 5 [] (key.threads.zipIdx.map fun x => (x.2, x.1))) = some p) ∧
    cohorts.firstCohort = some (0x42, co0, 3) ∧
    (∃ s1, cohorts.placeCohort ([(⟨0, 0⟩ : CoreId)].map coreIdKey) 0x42 co0 3 = some s1) := by
  refine ⟨by decide +kernel, ?_, rises_of (by decide +kernel), rises_of (by decide +kernel), by decide +kernel, ?_,
    by decide +kernel, by decide +kernel, by decide +kernel, by decide +kernel, by decide +kernel,
    some_of (by decide +kernel), by decide +kernel, some_of (by decide +kernel)⟩
  · obtain ⟨bs, h⟩ := some_of (x := (gone 0).frameAt ⟨5, 0⟩ (gOf (tGone 0)) 0x20800) (by decide +kernel)
    refine ⟨bs, h, ?_⟩
    have : ∀ b ∈ (gone 0).frameAt ⟨5, 0⟩ (gOf (tGone 0)) 0x20800, fpValid (BitVec.ofNat 32 (field b 88 4)) = true := by
      decide +kernel
    exact this bs h
  · obtain ⟨p, h⟩ := good_of (x := homing.translate (coreOfSlot hw0) 5 false 0x10800 .read) (by decide +kernel)
    have hk : (match homing.translate (coreOfSlot hw0) 5 false 0x10800 .read with
      | .ok p => decide (p.1.kind = .local_) && good (homing.writePhys (p.1.pa + 80) (leBytes 8 0))
      | .error _ => false) = true := by decide +kernel
    rw [h] at hk
    simp only [Bool.and_eq_true, decide_eq_true_eq] at hk
    obtain ⟨s1, h1⟩ := good_of hk.2
    exact ⟨p, s1, h, hk.1, h1⟩

/-- A group pending for AGEMAX's quarter of 8,192 cycles; one to be pre-empted. -/
def pending : Machine.Group := { gOf some5T with active := false, since := 2048 }
def aging : State := subj { lane some5T with groups := [(5, pending)] } (.slot ⟨0, 0, 5⟩)
def wanted (taken : Bool) (n : Nat) : Machine.Group := { gOf some5T with preempt := some ⟨0x1000, n, taken, none, []⟩ }
def leaving (taken : Bool) (n : Nat) : State := subj { lane some5T with groups := [(5, wanted taken n)] } (.slot ⟨0, 0, 5⟩)

theorem witness_ActiveSetAndSaves :
    (let gs := aging.quadrant (coreOfSlot 5) (slotOf 5 % 4)
     isLatency (slotIdKey ⟨0, 0, 5⟩) = false ∧
     (gs.filter fun y => !y.2.active && aging.groupReady y.1 y.2 && aging.aged (coreOfSlot 5) y.2) = [(5, pending)] ∧
     aging.group? 5 = some pending ∧ (gs.filter fun y => y.2.active).length < 8) ∧
    (∀ n ∈ [0, 32768], (leaving false n).group? (slotIdKey ⟨0, 0, 5⟩) = some (wanted false n)) ∧
    (let s := leaving true 0
     s.group? 5 = some (wanted true 0) ∧ (∀ e ∈ (s.core (coreOfSlot 5)).wc, e.owner.slot ≠ 5) ∧ (∀ r ∈ s.reqs, r.who.slot ≠ 5) ∧
     (wanted true 0).queue = [] ∧ s.chainsOf 5 = [] ∧ (∀ m ∈ (wanted true 0).members, m.2.deferred = none)) ∧
    KeysRise (leaving true 0).groups :=
  ⟨by decide +kernel, by decide +kernel, by decide +kernel, rises_of (by decide +kernel)⟩

/-- A lane that runs, waits or is parked, with a deferred fault or not. -/
def tRun (r : Run) : Thread := { thr some5 with run := r }
def tDeferred (r : Run) : Thread := { tRun r with deferred := some ⟨0x400000, 4, 0x20000⟩ }
def frec : FaultRec := ⟨20, 4, 0x400000, 0x20000, 0x10005, 0⟩
/-- Die 0's fault ring of 4 KiB (2^12) with `used` bytes in it, and a record held. -/
def ring (used : Nat) : State :=
  { lane some5T with
      subject := .die 0,
      dies := [(0, { tabled with held := [frec],
                                 regs := [(0x010, BitVec.ofNat 64 (lp + 0x8000)), (0x018, 12), (0x020, BitVec.ofNat 64 used)] })] }

theorem witness_FaultEvents :
    (∀ r ∈ [Run.ready, .waiting (.sleep 5 10) false 0, .parked 1 0 false], let s := subj (lane (tRun r)) (.signal ⟨0, 0, 5, 0⟩ 7)
      s.group? 5 = some (gOf (tRun r)) ∧ lookup 0 (gOf (tRun r)).members = some (tRun r) ∧ (tRun r).signal = none) ∧
    (let s := subj (lane (tDeferred .ready)) (.lane ⟨0, 0, 5, 0⟩)
     isLatency 5 = false ∧ s.thread? ⟨5, 0⟩ = some (tDeferred .ready) ∧ (tDeferred .ready).run.atBoundary = true ∧
     (tDeferred .ready).deferred = some ⟨0x400000, 4, 0x20000⟩) ∧
    ((ring 4064).die 0).held = [frec] ∧ (ring 4064).faultRoom 0 = true ∧ ((ring 4096).die 0).held = [frec] ∧
    (ring 4096).faultRoom 0 = false := by
  decide +kernel

/-- A user thread with a system call of its frame pending, a signal, or a deferred fault; interrupts masked or not; die 4 with
INTTGT naming the hardware thread and INTPEND 4, or not. -/
def tSys (sys : Bool) (sig : Option Nat) : Thread := { thr some5 with sysPend := sys, signal := sig }
def tLate : Thread := { thr some5 with deferred := some ⟨0x400000, 4, 0x20000⟩ }
def die4 (on : Bool) : Die :=
  if on then { tabled with regs := [(0, BitVec.ofNat 64 tables), (0xB8, 0x2000), (0xC0, 0x02000000)], pend := 4 } else tabled
def masked (on m : Bool) (t : Thread) (x : Subject) : State :=
  { user t with hw := [(hw0, ⟨true, false, m, true⟩)], subject := x, dies := [(0, tabled), (4, die4 on)] }
def raisedB (s : State) (slot : Nat) : Bool :=
  s.ctrl.msi.contains slot || (List.range 6).any fun d =>
    s.intPend d != 0 && (s.dreg d 0x0C0).setWidth 32 == s.agentOf ⟨slot, 0⟩
theorem raised_iff {s : State} {slot : Nat} : raisedB s slot = true ↔ (slot ∈ s.ctrl.msi ∨
    ∃ d < 6, s.intPend d ≠ 0 ∧ (s.dreg d 0x0C0).setWidth 32 = s.agentOf ⟨slot, 0⟩) := by
  simp [raisedB]

theorem witness_SupervisorEvents : ∀ m on : Bool, ∀ x ∈ [(Subject.slot ⟨4, 0, 0⟩, tSys false none),
      (.entry ⟨4, 0, 0⟩ 0, tSys true none), (.entry ⟨4, 0, 0⟩ 0, tSys false none), (.entry ⟨4, 0, 0⟩ 2, tSys false (some 7)),
      (.entry ⟨4, 0, 0⟩ 1, tLate), (.entry ⟨4, 0, 0⟩ 3, tSys false none)],
    isLatency (slotIdKey ⟨4, 0, 0⟩) = true ∧ slotOf (slotIdKey ⟨4, 0, 0⟩) < 2 ∧ (masked on m x.2 x.1).enterable hw0 = true ∧
    (masked on m x.2 x.1).group? (slotIdKey ⟨4, 0, 0⟩) = some (gOf x.2) ∧ lookup 0 (gOf x.2).members = some x.2 ∧
    (masked on m x.2 x.1).group? (supSlot hw0) = some (Group.supervisor 0x800) ∧
    (lookup 0 (Group.supervisor 0x800).members).isSome ∧ rises (masked on m x.2 x.1).groups = true ∧
    ((masked on m x.2 x.1).hwThread (slotIdKey ⟨4, 0, 0⟩)).masked = m ∧
    raisedB (masked on m x.2 x.1) (slotIdKey ⟨4, 0, 0⟩) = on ∧ tLate.deferred.isSome ∧ tLate.run.atBoundary = true := by decide +kernel

/-- A core whose numeric window has run to NWIN's 1,048,576 cycles; one with a gap record due or not; a channel that
held an attribution for `n` cycles against QTHR's 2,048 (R290). -/
def coreS (c : Core) : State := { lane some5T with cores := [(0, c)], subject := .core ⟨0, 0⟩ }
def gapC (lost : Nat) : Core :=
  { Core.fresh with csr := [(0xA01, BitVec.ofNat 64 lp), (0xA02, 0x10C)], lost := lost }
def held (n : Nat) : QueueWait := ⟨agentId 0 0 0 0 0 1, 7, 0, 5, 0, n⟩
def queueing (n : Nat) : State :=
  { subj (lane some5T) (.queue (held n)) with
      cores := [(0, { Core.fresh with chans := [(0, ⟨[{ chanCmd (.chain 0) false with attr := ⟨0, 0, 5⟩, cycles := n }], 0, 0⟩)] })] }
/-- Home 0 of die 0, whose threshold 0x0F8 is 64, holds an attribution on a word of stack 0. -/
def heldAt (n : Nat) : QueueWait := ⟨agentId 0 0 0 0 0 3, 9, 0, 5, 0, n⟩
def homeHeld (n : Nat) : State :=
  { subj (lane some5T) (.queue (heldAt n)) with
      dies := [(0, { tabled with regs := [(0xF8, 64)], attrs := [(0, ⟨0, 0, 5⟩)] })] }
def hotS (n : Nat) : State :=
  { lane some5T with dies := [(0, { tabled with hotCycles := n })], subject := .die 0 }

theorem witness_ProfilingEvents :
    (((coreS { Core.fresh with window := 1048576 }).core 0).reg 0x805).toNat ≤ 1048576 ∧
    (((coreS (gapC 3)).core (coreIdKey ⟨0, 0⟩)).ring 0xA01).gapDue = true ∧
    (((coreS (gapC 0)).core (coreIdKey ⟨0, 0⟩)).ring 0xA01).gapDue = false ∧
    (∀ n ∈ [2048, 2049], (held n).agent = (queueing n).chanAgent (coreKey 0 0) 0 ∧ (held n).wkind = 7 ∧ (held n).pred ≠ (held n).agent ∧
      ∃ x ∈ ((queueing n).chan (coreKey 0 0) 0).cmds, x.running = false ∧
        x.attr = ⟨(held n).token, (held n).pred, (held n).predSeq⟩ ∧ x.cycles = (held n).cycles) ∧
    (held 2048).cycles ≤ (((queueing 2048).core 0).reg 0x804).toNat ∧
    (((queueing 2049).core 0).reg 0x804).toNat < (held 2049).cycles ∧
    (∀ n ∈ [64, 65], (heldAt n).agent = (homeHeld n).homeAgent 0 ∧ (heldAt n).wkind = 9 ∧ (heldAt n).pred ≠ (heldAt n).agent ∧
      ∃ x ∈ ((homeHeld n).die 0).attrs, x.2 = ⟨(heldAt n).token, (heldAt n).pred, (heldAt n).predSeq⟩) ∧
    (heldAt 64).cycles ≤ ((homeHeld 64).dreg 0 0x0F8).toNat ∧ ((homeHeld 65).dreg 0 0x0F8).toNat < (heldAt 65).cycles ∧
    1048576 ≤ ((hotS 1048576).die 0).hotCycles ∧ ((hotS 1048575).die 0).hotCycles < 1048576 := by
  decide +kernel

/-! ## Die control blocks, memory blocks -/

/-- Commands of hardware thread 0 of die 0 on agent 0x284, lane 1 of slot 5 of core 0: CMDA is `a`, CMDB is `b`. -/
def tp : Thread := { thr some5 with run := .parked 1 0 false }
def gp : Machine.Group := grp [(1, tp)]
def cmdDie (a b : Nat) : Die :=
  { tabled with regs := [(0, BitVec.ofNat 64 tables), (hwReg 0 0x030, BitVec.ofNat 64 a), (hwReg 0 0x038, BitVec.ofNat 64 b)] }
def cmdS (a b arg : Nat) : State :=
  { world (simt [(1, tp)]) with dies := [(0, cmdDie a b), (4, tabled)], subject := .command 0 0 arg }
/-- The save area or frame at the LPDDR 6's 0x40000. -/
def area : Nat := lp + 0x40000

theorem witness_ThreadCommands :
    (∀ b ∈ [0, 1, 64, area], (cmdS 0x284 b 0).parkedAt 0 0x284 = some (⟨5, 1⟩, gp, tp) ∧
      ((cmdS 0x284 b 0).dreg 0 (hwReg 0 0x030)).toNat = 0x284 ∧ ((cmdS 0x284 b 0).dreg 0 (hwReg 0 0x038)).toNat = b) ∧
    0x284 < 2 ^ 32 ∧ 0x284 % 4 = 0 ∧ area % 64 = 0 ∧ KeysRise gp.members ∧ KeysRise (cmdS 0x284 0 0).groups ∧
    Memory.wf (cmdS 0x284 0 0).mem = true ∧
    (∃ s1, (cmdS 0x284 area 0).writePhys area (frameBytes tp gp.footprint gp.asid tp.pc 0 .none) = .ok s1) ∧
    (∃ e, (cmdS 0x284 (2 ^ 51) 0).writePhys (2 ^ 51) (frameBytes tp gp.footprint gp.asid tp.pc 0 .none) = .error e) ∧
    (∃ bs, (cmdS 0x284 area 0).readPhys area (frameSize gp.footprint) = .ok bs) ∧
    (∀ x ∈ [4, 8], (cmdS 0x284 0 x).tframe (dieOfSlot 5) gp.asid tp ≠ 0 ∧
      ((cmdS 0x284 0 x).tframe (dieOfSlot 5) gp.asid tp).toNat % 64 = 0) ∧
    (∃ s1, (cmdS 0x284 0 4).writeVa (coreOfSlot 5) gp.asid false ((cmdS 0x284 0 4).tframe (dieOfSlot 5) gp.asid tp)
      (frameBytes tp gp.footprint gp.asid tp.pc 0 .none) (lines (frameSize gp.footprint)) = .ok s1) ∧
    ((cmdS 0x284 0 4).reqs = [] ∧ (cmdS 0x284 0 4).ownsEntry ⟨5, 1⟩ = false ∧ (cmdS 0x284 0 4).parkedAt 0 0x284 = some (⟨5, 1⟩, gp, tp)) ∧
    (cmdS 0x280 0 0).parkedAt 0 0x280 = none ∧ 2 ^ 32 ≤ ((cmdS (2 ^ 32) 0 0).dreg 0 (hwReg 0 0x030)).toNat ∧
    ((cmdS 0x285 0 0).dreg 0 (hwReg 0 0x030)).toNat % 4 ≠ 0 :=
  ⟨by decide +kernel, by decide, by decide, by decide, rises_of (by decide +kernel), rises_of (by decide +kernel),
    by decide +kernel, good_of (by decide +kernel), bad_of (by decide +kernel), good_of (by decide +kernel),
    by decide +kernel, good_of (by decide +kernel), by decide +kernel, by decide +kernel, by decide +kernel, by decide +kernel⟩

/-- A page of stack 0 in move to a page of the LPDDR 6. -/
def move (done : Bool) : PageMove := ⟨0, area, 4096, done⟩
def moving (done : Bool) : State :=
  { cmdS 0 0 0 with dies := [(0, { cmdDie 0 0 with moves := [move done] }), (4, tabled)] }

theorem witness_GroupAndPageCommands :
    (let s := cmdS 0x280 area 0
     ((s.dreg 0 (hwReg 0 0x030)).toNat = 0x280 ∧ (s.dreg 0 (hwReg 0 0x038)).toNat = area ∧ area % 4096 = 0 ∧
       agentPkg 0x280 = s.pkg ∧ agentDie 0x280 = 0 ∧ (agentWho 0x280).slot = 5) ∧
     s.group? 5 = some gp ∧ isSup 5 = false ∧ gp.members ≠ [] ∧ gp.preempt = none) ∧
    (∃ bs, (cmdS 0x280 area 0).readPhys area 512 = .ok bs ∧ field bs 0 4 ≠ 0x47564153) ∧
    (∀ arg < 1, let s := cmdS 0 area arg
      arg < 4 ∧ 0 % pageSize arg = 0 ∧ area % pageSize arg = 0 ∧ (∀ k < 6, (s.die k).moves = []) ∧
      s.pageHere 0 (pageSize arg) = true ∧ s.pageHere area (pageSize arg) = true) ∧
    (∀ k < 6, ∀ m ∈ ((moving true).die k).moves, m.src = 0 → m.done = true) ∧
    (((moving false).die 0).moves.filter fun m => !m.done)[0]? = some (move false) ∧
    (∀ r ∈ (moving false).reqs, r.atMove ≠ some (move false).src) ∧ Memory.wf (moving false).mem = true :=
  ⟨by decide +kernel, ⟨_, rfl, by decide +kernel⟩, by decide +kernel, by decide +kernel, by decide +kernel, by decide +kernel,
    by decide +kernel⟩

/-- Hardware thread 0 of latency core 0 of die 4 in supervisor mode; its CCSEL on die 4 is `sel` (R339). -/
def ready (d : Nat) (sel : DWord) (q : List Nat) (x : Subject) : State :=
  { supervisor with
      dies := [(0, tabled), (d, { tabled with readyQ := q, regs := [(0xB0, 0x800), (hwReg 0 0x600, sel)] })], subject := x }
def h0 : SlotId := ⟨4, 0, 0⟩

theorem witness_DieRegisters :
    (isLatency (slotIdKey h0) = true ∧ slotOf (slotIdKey h0) < 2 ∧ hwNumber (supSlot (slotIdKey h0)) = 0) ∧
    (∀ x ∈ [Subject.regLoad 4 h0 10, .regStore (Config.dieBlock + 65536 * 4 + 0x608) h0 5,
        .regStore (Config.dieBlock + 65536 * 4 + 0x0A8) h0 1, .regStore (Config.dieBlock + 65536 * 4 + 0x090) h0 1,
        .regStore (Config.dieBlock + 65536 * 4 + 0x0B0) h0 8], let s := ready 4 0x80000000000 [lp, lp + 0x1000] x
      s.subject = x ∧ (s.hwThread (slotIdKey h0)).released = true ∧ (s.hwThread (slotIdKey h0)).sup = true ∧
      (s.die 4).readyQ = [lp, lp + 0x1000] ∧ s.thread? ⟨supSlot (slotIdKey h0), 0⟩ = some ts) ∧
    ccTarget 4 0x80000000000 false = some (256, 0x800) ∧ ccTarget 4 0x80000000000 true = some (256, 0x800) ∧
    ccTarget 4 0x3F true = none ∧ (ready 4 0x3F [] .nothing).dreg 4 (hwReg 0 0x600) = 0x3F ∧
    (let s := ready 4 0 [] .nothing
     (1 : DWord).getLsbD 0 = true ∧ (s.dreg 4 0x0A8).getLsbD 0 = false ∧
     (s.hwThread (slotKey (coreKey 4 0) 1)).released = false) := by
  decide +kernel

/-- Stack 0 with INIT and ZERO asked for, training or ready; CORRLIM is 16, its reset value. -/
def stack (stat : DWord) (x : Subject) : State :=
  { lane some5T with
      blocks := [(0, { MemBlock.fresh with regs := [(0, 0x101003), (8, stat)] })], subject := x,
      ctrl := { Ctrl.fresh with pkstate := 3 } }

theorem witness_MemoryBlockEvents :
    (∀ x ∈ [Subject.unit 0, .unitFlag 0 true, .unitFlag 0 false, .unitPa 0 0 0, .unitPa 0 0 16, .unitPa 0 0 17],
      (stack 0 x).subject = x ∧ ((stack 0 x).breg 0 0).toNat.testBit 0 = true ∧ ((stack 0 x).breg 0 8).toNat.testBit 0 = false ∧
      ((stack 0 x).breg 0 8).toNat.testBit 1 = false ∧ ((stack 1 x).breg 0 0).toNat.testBit 1 = true ∧
      ((stack 1 x).breg 0 8).toNat.testBit 0 = true ∧ Memory.wf (stack 1 x).mem = true ∧
      Machine.bitsOf ((stack 1 x).breg 0 0).toNat 12 8 = 16) ∧
    ((stack 0 .nothing).localAt 0 false false).isSome ∧ ((stack 0 .nothing).inUnit 0 0 = true) ∧ 0 % 512 = 0 ∧
    (stack 0 .nothing).ctrl.pkstate = 3 ∧ ((stack 1 .nothing).breg 0 8).toNat.testBit 3 = false := by decide +kernel

/-! ## The mailbox -/

/-- A command of opcode `op` with its payload in progress, in state `pk` (R326). -/
def cmd (op : Nat) (args : List Byte) : List Byte := leBytes 4 op ++ leBytes 4 args.length ++ leBytes 8 0x77 ++ args
def mail (op : Nat) (args : List Byte) (pk : Nat) : State :=
  { State.reset with ctrl := { Ctrl.fresh with pkstate := pk, mbstat := 0x80000009, cmd := some (9, cmd op args) } }
/-- CMDBUF holds a command, and a doorbell is rung. -/
def rung (op : Nat) (v : Word) (busy : Bool) : State :=
  { State.reset with
      ctrl := { Ctrl.fresh with cmdbuf := memWrite [] 0 (cmd op []), cmd := if busy then some (9, cmd 1 []) else none },
      subject := .doorbell v }
def inMailbox (s : State) (op n : Nat) (seq : Word) (c : List Byte) : Bool :=
  decide (s.ctrl.cmd = some (seq, c) ∧ field c 0 2 = op ∧ field c 4 4 = n ∧ field c 2 2 = 0 ∧ s.ctrl.discard = false ∧
    Memory.wf s.ctrl.rspbuf = true)
theorem inMailbox_of {s op n seq c} (h : inMailbox s op n seq c = true) : InMailbox s op n seq c := by
  simp only [inMailbox, decide_eq_true_eq] at h
  exact ⟨h.1, h.2.1, h.2.2.1, h.2.2.2.1, h.2.2.2.2.1, h.2.2.2.2.2⟩

theorem witness_DoorbellAndRefusals :
    (∀ op ∈ [1, 12, 0, 13], field (memRead (rung op 9 false).ctrl.cmdbuf 0 4096) 0 2 = op) ∧
    (∀ busy, (rung 1 9 busy).ctrl.discard = false ∧ (rung 1 9 busy).ctrl.cmd.isSome = busy) ∧
    (9 : Word).toNat < 65536 ∧ 65536 ≤ (0x10000 : Word).toNat ∧ Memory.wf (rung 0 9 false).ctrl.rspbuf = true ∧
    ∀ x ∈ [(0x04, 3), (0x05, 1), (0x07, 0), (0x08, 3), (0x0B, 4)],
      InMailbox (mail x.1 [] x.2) x.1 0 9 (cmd x.1 []) ∧ permitted x.1 (mail x.1 [] x.2).ctrl.pkstate = false := by
  refine ⟨by decide +kernel, by decide +kernel, by decide, by decide, by decide +kernel, fun x hx => ?_⟩
  have h : inMailbox (mail x.1 [] x.2) x.1 0 9 (cmd x.1 []) = true ∧
      permitted x.1 (mail x.1 [] x.2).ctrl.pkstate = false := by
    revert x; decide +kernel
  exact ⟨inMailbox_of h.1, h.2⟩

/-- A header of an image with entry 0x100000040 in an owner slot that is not fused: VERIFY's first failing check (R331). -/
def image : List Byte := leBytes 24 0 ++ leBytes 8 (lp + 0x40) ++ leBytes 224 0
def staged (op : Nat) (pk : Nat) : State :=
  { mail op [] pk with ctrl := { (mail op [] pk).ctrl with header := some image } }
theorem witness_ImageCommands :
    InMailbox (mail 0x01 (leBytes 16 0) 0) 0x01 16 9 (cmd 0x01 (leBytes 16 0)) ∧ field (cmd 0x01 (leBytes 16 0)) 16 8 = 0 ∧
    InMailbox (mail 0x02 (leBytes 32 5) 3) 0x02 32 9 (cmd 0x02 (leBytes 32 5)) ∧
    InMailbox (mail 0x03 (leBytes 16 64) 2) 0x03 16 9 (cmd 0x03 (leBytes 16 64)) ∧
    InMailbox (staged 0x04 1) 0x04 0 9 (cmd 0x04 []) ∧ (staged 0x04 1).verifyStatus ≠ 0 ∧
    InMailbox (staged 0x05 2) 0x05 0 9 (cmd 0x05 []) ∧ (staged 0x05 2).ctrl.header = some image :=
  ⟨inMailbox_of (by decide +kernel), by decide +kernel, inMailbox_of (by decide +kernel), inMailbox_of (by decide +kernel),
    inMailbox_of (by decide +kernel), by decide +kernel, inMailbox_of (by decide +kernel), by decide +kernel⟩

theorem witness_ResetForms : ∀ k < 2, InMailbox (mail 0x06 (leBytes 4 k) 3) 0x06 4 9 (cmd 0x06 (leBytes 4 k)) ∧
    field (cmd 0x06 (leBytes 4 k)) 16 4 = k := by
  intro k hk
  have h : inMailbox (mail 0x06 (leBytes 4 k) 3) 0x06 4 9 (cmd 0x06 (leBytes 4 k)) = true ∧
      field (cmd 0x06 (leBytes 4 k)) 16 4 = k := by
    revert k; decide +kernel
  exact ⟨inMailbox_of h.1, h.2⟩

/-- An FWUPDATE of subfunction `k` whose object is the 180 bytes at host address 0x1000. -/
def fw (k : Nat) : List Byte := leBytes 8 k ++ leBytes 8 0x1000 ++ leBytes 8 180
theorem witness_FleetCommands :
    InMailbox (mail 0x0C (leBytes 4 900) 3) 0x0C 4 9 (cmd 0x0C (leBytes 4 900)) ∧
    InMailbox (mail 0x0A [] 3) 0x0A 0 9 (cmd 0x0A []) ∧
    InMailbox (mail 0x09 (leBytes 8 64 ++ leBytes 8 4096) 3) 0x09 16 9 (cmd 0x09 (leBytes 8 64 ++ leBytes 8 4096)) ∧
    field (cmd 0x09 (leBytes 8 64 ++ leBytes 8 4096)) 16 8 = 64 ∧ field (cmd 0x09 (leBytes 8 64 ++ leBytes 8 4096)) 24 8 = 4096 ∧
    ∀ k < 4, InMailbox (mail 0x0B (fw k) 3) 0x0B 24 9 (cmd 0x0B (fw k)) ∧ field (cmd 0x0B (fw k)) 16 8 = k ∧
      field (cmd 0x0B (fw k)) 24 8 = 0x1000 ∧ field (cmd 0x0B (fw k)) 32 8 = 180 := by
  refine ⟨inMailbox_of (by decide +kernel), inMailbox_of (by decide +kernel), inMailbox_of (by decide +kernel),
    by decide +kernel, by decide +kernel, fun k hk => ?_⟩
  have h : inMailbox (mail 0x0B (fw k) 3) 0x0B 24 9 (cmd 0x0B (fw k)) = true ∧ field (cmd 0x0B (fw k)) 16 8 = k ∧
      field (cmd 0x0B (fw k)) 24 8 = 0x1000 ∧ field (cmd 0x0B (fw k)) 32 8 = 180 := by
    revert k; decide +kernel
  exact ⟨inMailbox_of h.1, h.2⟩

/-- A package that halts, nothing in flight but a copy in channel 0 of core 0 of die 0, or nothing at all; HALTDRAIN is
at its reset value of 65,536 cycles. -/
def halting (x : List ChanCmd) (n : Nat) : State :=
  { lane some5T with
      ctrl := { Ctrl.fresh with pkstate := 3, halting := some (0, 0), haltSeen := true }, subject := .die 0,
      cores := [(0, { Core.fresh with chans := if x.isEmpty then [] else [(0, ⟨x, 0, 0⟩)] })],
      dies := [(0, { tabled with haltCycles := n }), (4, tabled)] }
def dumpArgs : List Byte := leBytes 8 0x1000 ++ leBytes 8 0x100000
theorem witness_HaltAndDump :
    (∀ pk ∈ [3, 4], InMailbox (mail 0x07 [] pk) 0x07 0 9 (cmd 0x07 []) ∧ (mail 0x07 [] pk).ctrl.pkstate = pk ∧
      (mail 0x07 [] pk).ctrl.halting = none) ∧
    ((halting [] 0).ctrl.halting = some (0, 0) ∧ (halting [] 0).reqs = [] ∧ (∀ x ∈ (halting [] 0).cores, x.2.wc = []) ∧
      (halting [] 0).busyChans = [] ∧ ∀ x ∈ (halting [] 0).groups, ∀ c ∈ x.2.queue, c.onArr = false) ∧
    (let x := chanCmd (.copy (copy desc)) true
     let ch : Chan := ⟨[x], 0, 0⟩
     ∀ n ∈ [65535, 65536], let s := halting [x] n
       ((s.die 0).haltCycles = n ∧ (s.dreg 0 0x408).toNat = 65536) ∧ s.ctrl.halting.isSome ∧ s.ctrl.haltSeen = true ∧
       (s.busyChans.filter fun y => dieOfCore y.1 == 0) = [(0, 0, ch)] ∧ s.chan 0 0 = ch ∧ x.sync = 0 ∧ s.reqs = []) ∧
    InMailbox (mail 0x08 dumpArgs 4) 0x08 16 9 (cmd 0x08 dumpArgs) ∧ field (cmd 0x08 dumpArgs) 16 8 = 0x1000 ∧
    field (cmd 0x08 dumpArgs) 24 8 = 0x100000 ∧ Memory.wf (mail 0x08 dumpArgs 4).hostMem = true := by
  refine ⟨fun pk hpk => ?_, by decide +kernel, by decide +kernel, inMailbox_of (by decide +kernel), by decide +kernel,
    by decide +kernel, by decide +kernel⟩
  have h : inMailbox (mail 0x07 [] pk) 0x07 0 9 (cmd 0x07 []) = true ∧ (mail 0x07 [] pk).ctrl.pkstate = pk ∧
      (mail 0x07 [] pk).ctrl.halting = none := by
    revert pk; decide +kernel
  exact ⟨inMailbox_of h.1, h.2⟩

/-! ## The fabric, the fleet operator's events, root ports -/

/-- Channel 9 of die 0 points at package 1 in state `st`, enabled; package 0 of a domain of 16; `x` is the link to it. -/
def chanDie (st : Nat) (x : Link) : Die :=
  { tabled with fabric := [(0, 0x100), (0x208, 1), (0x1000 + 8 * 9, BitVec.ofNat 64 (1 + 256 * st + 4096))], links := [(1, x)],
                waking := if st == 2 then [(9, 4096)] else [] }
def linked (st : Nat) (x : Link) (u : Subject) : State :=
  { lane some5T with dies := [(0, chanDie st x), (4, tabled)], subject := u }
/-- A flit of package 1 with its SEQ and CRC; one of 63 payload bytes is bad. -/
def flit0 (seq : Nat) : Flit := ⟨flitHdr 1 0 seq 1 0 0 0, List.replicate 64 0, 0⟩
def flit1 (seq : Nat) : Flit := flitSeal (flit0 seq) seq
def flitCut : Flit := { flit0 0 with payload := List.replicate 63 0 }
def two2 : Link := { Link.fresh with replay := [flit1 5, flit1 6], nextSeq := 7 }
def flitElse (s : State) (peer : Nat) (f : Flit) : Bool :=
  f.payload.length != 64 || 7 ≤ flitTyp f || flitDst f != s.pkg || flitSrc f != peer
theorem sealed_good {s : State} {peer : Nat} {f : Flit} {n : Nat} (h : flitElse s peer (flitSeal f n) = false) :
    s.flitBad peer (flitSeal f n) = false := by
  simp only [flitElse, Bool.or_eq_false_iff] at h
  have hc : (crc32c (flitBytes (flitSeal f n)) != (flitSeal f n).crc) = false := by
    rw [flitSeal, flitBytes, bne_self_eq_false]
  simp only [State.flitBad, Bool.or_eq_false_iff]
  exact ⟨⟨⟨⟨h.1.1.1, hc⟩, h.1.1.2⟩, h.1.2⟩, h.2⟩

theorem linked_link (st : Nat) (x : Link) (u : Subject) : (linked st x u).link 0 1 = x := rfl

theorem dropWhile_all {p : Flit → Bool} {a b : Flit} (ha : p a = true) (hb : p b = true) : [a, b].dropWhile p = [] := by
  simp [List.dropWhile, ha, hb]
theorem dropWhile_snd {p : Flit → Bool} {a b : Flit} (ha : p a = true) (hb : p b = false) : [a, b].dropWhile p ≠ [] := by
  simp [List.dropWhile, ha, hb]

theorem witness_LinkEvents :
    (let s := linked 0 .fresh .nothing
     s.chanOn 0 9 = true ∧ s.chanState 0 9 ≠ 2 ∧ s.chanPeer 0 9 = 1 ∧ s.chanPeer 0 9 ≠ s.pkg ∧ 2 % 64 ≠ s.chanPeer 0 9) ∧
    ((linked 0 .fresh .nothing).setFreg 0 0x208 0).peerState 1 = 0 ∧
    (linked 1 .fresh .nothing).flitBad 1 (flit1 0) = false ∧ (linked 1 .fresh .nothing).flitBad 1 (flit1 4095) = false ∧
    (let s := linked 1 .fresh .nothing
     s.chanState 0 9 = 1 ∧ flitSeq (flit1 0) = (s.link 0 1).expect ∧ flitSeq (flit1 4095) ≠ (s.link 0 1).expect ∧
     s.flitBad 1 flitCut = true) ∧
    (let l := (linked 1 two2 .nothing).link 0 1
     l = two2 ∧ (l.replay.dropWhile fun f => flitSeq f != 7 % 4096) = [] ∧ (l.replay.dropWhile fun f => flitSeq f != 4102 % 4096) ≠ [] ∧
     l.replays < 7 ∧ l.idle < 4096 ∧ 4096 ≤ ((linked 1 { two2 with idle := 4096 } .nothing).link 0 1).idle) := by
  have h7 : (two2.replay.dropWhile fun f => flitSeq f != 7 % 4096) = [] :=
    dropWhile_all (p := fun f => flitSeq f != 7 % 4096) (by decide +kernel) (by decide +kernel)
  have h6 : (two2.replay.dropWhile fun f => flitSeq f != 4102 % 4096) ≠ [] :=
    dropWhile_snd (p := fun f => flitSeq f != 4102 % 4096) (by decide +kernel) (by decide +kernel)
  simp only [linked_link]
  exact ⟨by decide +kernel, by decide +kernel, sealed_good (by decide +kernel), sealed_good (by decide +kernel),
    by decide +kernel, trivial, h7, h6, by decide +kernel, by decide +kernel, by decide +kernel⟩

/-- The link's traffic has been below PARKLO for PARKCYC cycles, with MIN channels to keep 0 (R367). -/
def idleLink : State := (linked 1 { Link.fresh with low := 0x100000 } .nothing).setFreg 0 0x010 0x100000000000010
def busyLink : State := linked 1 .fresh .nothing
def wakingLink : State := linked 2 .fresh .nothing

theorem witness_ChannelAndPeerEvents :
    (busyLink.chanState 0 9 = 1 ∧ (linked 0 .fresh .nothing).chanState 0 9 = 0 ∧ (linked 3 .fresh .nothing).chanState 0 9 = 3 ∧
      (busyLink.freg 0 0x020).toNat % 65536 = 64 ∧ lookup 9 (wakingLink.die 0).waking = some 4096 ∧
      4 * (wakingLink.freg 0 0x018).toNat = 4096 ∧ lookup 9 (busyLink.die 0).waking = none) ∧
    ((idleLink.freg 0 0x010).toNat / 2 ^ 40 % 2 ^ 24 ≤ (idleLink.link 0 1).low ∧
      (idleLink.freg 0 0x010).toNat / 2 ^ 32 % 256 < (idleLink.chansTo 0 1 1).length) ∧
    ((busyLink.link 0 1).low < (busyLink.freg 0 0x010).toNat / 2 ^ 40 % 2 ^ 24 ∧ 1 ≠ busyLink.pkg ∧ 1 < busyLink.domain ∧
      busyLink.domain ≠ 1 ∧ busyLink.peerState 1 ≠ 2 ∧ busyLink.peerState 0 ≠ 2 ∧ (busyLink.setFreg 0 0x208 2).peerState 1 = 2) :=
  ⟨by decide +kernel, by decide +kernel, by decide +kernel⟩

/-- A running package with its root ports up; requester 5 is mapped to space 5. -/
def fleet (x : Subject) : State :=
  { user some5T with
      ctrl := { Ctrl.fresh with pkstate := 3, ports := [(8, true), (9, true), (10, true), (11, true), (16, true)], iommu := [(5, 5)] },
      cores := [(0, { Core.fresh with tlb := pages }), (304, { Core.fresh with tlb := pages })], subject := x }
def reading (temp : Nat) : PowerReading := ⟨0, 400000, temp * 8, 750⟩
/-- The package has drawn w watts for the last 100 ms. -/
def drawn (w : Nat) : State :=
  let s := fleet (.power (reading 90))
  { s with ctrl := { s.ctrl with powers := List.replicate 10 (w * 1000) } }
def meanOf (s : State) : Nat := s.ctrl.powers.sum / max 1 s.ctrl.powers.length
def dma (q : Nat) : DmaReq := ⟨4, 0, q, 0x10000, true, [1, 2, 3, 4]⟩

theorem witness_OperatorEvents :
    (let s := fleet .nothing
     (drawn 2501).ctrl.cap * 1000 < meanOf (drawn 2501) ∧ get (drawn 2501).ctrl.steps 0 0 < 16 ∧ 800 < (reading 101).temp8 ∧
     100 * meanOf (drawn 2375) ≤ 95 * ((drawn 2375).ctrl.cap * 1000) ∧ (reading 100).temp8 ≤ 800 ∧
     (reading 114).temp8 < 920 ∧ 920 ≤ (reading 115).temp8 ∧ s.ctrl.pkstate = 3 ∧ s.ctrl.halting = none) ∧
    (fleet (.sample 2000000 [reading 90])).subject = .sample 2000000 [reading 90] ∧
    ((fleet (.dma (dma 5))).iommuTarget 4 5 0x10000 true).any (fun t => t.1.byPort) = false ∧
    (∀ n < 3, get (fleet .nothing).ctrl.ports (2 * 4 + n % 2 + 8 * (n / 2 % 2)) false = true) ∧
    get (fleet .nothing).ctrl.ports (2 * 4 + 3 % 2 + 8 * (3 / 2 % 2)) false = false ∧
    lookup (6 % 65536) (fleet .nothing).ctrl.iommu = none ∧ lookup (5 % 65536) (fleet .nothing).ctrl.iommu = some 5 ∧
    ∃ s1, (fleet (.dma (dma 5))).engWrite (Doer.plain (coreKey 4 48) 5 false) 0x10000 [1, 2, 3, 4] none (lines 4) =
      .ok () s1 := by
  refine ⟨by decide +kernel, by decide +kernel, by decide +kernel, by decide +kernel, by decide +kernel, by decide +kernel,
    by decide +kernel, ?_⟩
  obtain ⟨_, s1, h⟩ := engOk_of (x := (fleet (.dma (dma 5))).engWrite (Doer.plain (coreKey 4 48) 5 false) 0x10000 [1, 2, 3, 4] none
    (lines 4))
    (by decide +kernel)
  exact ⟨s1, h⟩

/-! ## Taking an exception -/

theorem witness_TakingAnException :
    (isLatency 5 = false ∧ (lane some5T).group? 5 = some (gOf some5T) ∧ lookup 0 (gOf some5T).members = some some5T) ∧
    ((ring 4064).die 0).held ≠ [] ∧ ((lane some5T).die 0).held = [] ∧ (lane some5T).faultRoom 0 = false ∧
    ((ring 4064).setDie 0 { (ring 4064).die 0 with held := [] }).faultRoom 0 = true ∧
    (isLatency hw0 = true ∧ isSup hw0 = false ∧ slotOf hw0 < 2 ∧ (user some5T).group? hw0 = some (gOf some5T) ∧
      (user some5T).group? (supSlot hw0) = some (Group.supervisor 0x800) ∧ (lookup 0 (Group.supervisor 0x800).members).isSome) ∧
    KeysRise (user some5T).groups ∧
    (let s := { user some5T with dies := [(4, { tabled with regs := [(0xB8, 0x2000), (0x100, BitVec.ofNat 64 lp)] })] }
     s.tframe (dieOfSlot hw0) 5 some5T = 0 ∧ ∃ s1, s.writePhys (s.dreg (dieOfSlot hw0) (0x100 + 8 * hwOnDie hw0)).toNat
       (frameBytes some5T (gOf some5T).footprint 5 some5T.pc 0 ⟨1, 4, 0x20000, 1, 0⟩) = .ok s1) ∧
    (let t := { some5T with utv := 0x400800 }
     (lane t).thread? ⟨5, 0⟩ = some t ∧ t.utv ≠ 0 ∧ t.inHandler = false ∧ some5T.utv = 0 ∧
     (lane some5T).thread? ⟨5, 0⟩ = some some5T) :=
  ⟨by decide +kernel, by decide +kernel, by decide +kernel, by decide +kernel, by decide +kernel, by decide +kernel,
    rises_of (by decide +kernel), ⟨by decide +kernel, good_of (by decide +kernel)⟩, by decide +kernel⟩

/-! ## The machine as a whole -/

/-- A turn that issues the supervisor thread of latency core 0 of die 4 at a word in its LPDDR 6, or at no memory. -/
def turn (pc : Nat) (w : DWord) : State :=
  { State.reset with
      agenda := [.issue (hw0 + 2) 0], mem := memWrite [] (lp + 0x1000) (leBytes 8 w.toNat), ctrl := { Ctrl.fresh with pkstate := 3 },
      hw := [(hw0, ⟨true, true, true, false⟩)], groups := [(hw0 + 2, Group.supervisor (BitVec.ofNat 64 pc))] }
def fetched (x : Except Nat (DWord × State)) : Option DWord := match x with
  | .ok (w, _) => some w
  | .error _ => none
theorem fetched_of {x : Except Nat (DWord × State)} {w : DWord} (h : fetched x = some w) : ∃ s, x = .ok (w, s) := by
  cases x with
  | error => cases h
  | ok p =>
    cases h
    exact ⟨p.2, rfl⟩
/-- The state a turn starts in, and the one it fetches in. -/
def atTurn (pc : Nat) (w : DWord) : State := { turn pc w with turnNo := 1, agenda := [], writer := everyone }
def turned (pc : Nat) (w : DWord) : State := (atTurn pc w).tookTurn (hw0 + 2) (some 0)

theorem witness_StepRunsDecodedInstruction :
    (∀ x ∈ [((lp + 0x1000, 0x15) : Nat × Nat), (lp + 0x1000, 0x290000000002C1), (lp + 0x1000, 0x225), (4096, 0)],
      let s := turn x.1 (BitVec.ofNat 64 x.2)
      let g := Group.supervisor (BitVec.ofNat 64 x.1)
      s.agenda = [.issue (hw0 + 2) 0] ∧ s.group? (hw0 + 2) = some g ∧ (g.activeAt (BitVec.ofNat 64 x.1)) = [0] ∧
      lookup 0 g.members = some { Thread.fresh with pc := BitVec.ofNat 64 x.1 } ∧
      ({ Thread.fresh with pc := BitVec.ofNat 64 x.1 } : Thread).canIssue = true ∧
      (atTurn x.1 (BitVec.ofNat 64 x.2)).mayIssue (hw0 + 2) g = true ∧ s.readsOut ⟨hw0 + 2, 0⟩ = false ∧
      (atTurn x.1 (BitVec.ofNat 64 x.2)).itsTurn (hw0 + 2) g (some 0) = true ∧
      ((turned x.1 (BitVec.ofNat 64 x.2)).boundary (hw0 + 2) g [0]).1 = false) ∧
    (∃ s, (turned (lp + 0x1000) 0x15).fetch (hw0 + 2) 0 (isSup (hw0 + 2)) (BitVec.ofNat 64 (lp + 0x1000)) =
      .ok (0x15, s)) ∧
    (∃ s, (turned (lp + 0x1000) 0x290000000002C1).fetch (hw0 + 2) 0 (isSup (hw0 + 2)) (BitVec.ofNat 64 (lp + 0x1000)) =
      .ok (0x290000000002C1, s)) ∧
    (∃ s, (turned (lp + 0x1000) 0x225).fetch (hw0 + 2) 0 (isSup (hw0 + 2)) (BitVec.ofNat 64 (lp + 0x1000)) =
      .ok (0x225, s)) ∧
    decode 0x15 = .ok ⟨g0, 0, .nop⟩ ∧ isFallow (0x15 : DWord) = false ∧ isFallow (0x225 : DWord) = true ∧
    decode 0x290000000002C1 = .error .undefined ∧
    (∃ c, (turned 4096 0).fetch (hw0 + 2) 0 (isSup (hw0 + 2)) 4096 = .error c) ∧ isEvent .powerOn = true ∧ State.reset.comes .powerOn = true ∧
    ({ State.reset with ctrl := { Ctrl.fresh with pkstate := 4 } } : State).comes .resume = false ∧
    subjectOk .nothing = true :=
  ⟨by decide +kernel, fetched_of (by decide +kernel), fetched_of (by decide +kernel), fetched_of (by decide +kernel),
    by decide +kernel, by decide +kernel, by decide +kernel, by decide +kernel, bad_of (by decide +kernel), by decide +kernel,
    by decide +kernel⟩

/-- A fallow word under a read that is in flight (R116): lane 0 of the group in slot 5 stands at one. -/
def fallowed : State :=
  { lane tm with
      agenda := [.issue 5 0], ctrl := { Ctrl.fresh with pkstate := 3 }, reqs := [req (.load 8 false []) (.unit 0)],
      cores := [(0, { Core.fresh with tlb := ⟨5, 0, 0x400000, 0x4FF, 0x1000⟩ :: pages })],
      mem := memWrite mem0 0 (leBytes 8 0x225) }
theorem witness_StepRunsDecodedInstruction_fallow :
    let sT : State := { fallowed with turnNo := 1, agenda := [], writer := everyone }
    fallowed.group? 5 = some (gOf tm) ∧ lookup 0 (gOf tm).members = some tm ∧ tm.canIssue = true ∧
    sT.mayIssue 5 (gOf tm) = true ∧ (gOf tm).activeAt tm.pc = [0] ∧ isLatency 5 = false ∧
    sT.itsTurn 5 (gOf tm) (some 0) = true ∧ ((sT.tookTurn 5 (some 0)).boundary 5 (gOf tm) [0]).1 = false ∧
    fetched ((sT.tookTurn 5 (some 0)).fetch 5 5 (isSup 5) tm.pc) = some 0x225 ∧ fallowed.readsOut ⟨5, 0⟩ = true := by
  decide +kernel

theorem all_of {α : Type} {p : α → Bool} {l : List α} (h : l.all p = true) : ∀ x ∈ l, p x = true := List.all_eq_true.1 h

/-- Sound holds at reset, and of a state that steps. -/
theorem witness_StepKeepsSound : Sound State.reset ∧ Sound (turn (lp + 0x1000) 0x15) := by
  refine ⟨⟨by decide, by decide, by decide, by decide, by decide, by decide, by decide, .nil, (fun _ h => by cases h),
      fun x h => rises_of (all_of (p := fun x : Nat × Die => rises x.2.switched) (by decide +kernel) x h)⟩,
    ⟨by decide +kernel, by decide, by decide, by decide, by decide, by decide, by decide, rises_of (by decide +kernel), ?_,
      fun x h => rises_of (all_of (p := fun x : Nat × Die => rises x.2.switched) (by decide +kernel) x h)⟩⟩
  intro x hx
  simp only [turn, List.mem_singleton] at hx
  subst hx
  exact rises_of (by decide +kernel)

theorem witness_EncodingRoundTrip :
    WellFormed ⟨⟨true, 2⟩, 1, .add { fa with d := 5, a := 1, b := 2 }⟩ ∧
    (encode ⟨⟨true, 2⟩, 1, .add { fa with d := 5, a := 1, b := 2 }⟩).isSome ∧
    decode 0x0000000020081401 = .ok ⟨g0, 0, .add { fa with d := 5, a := 1, b := 2 }⟩ ∧ (Instr.add fa ≠ .eretSupervisor) := by
  exact ⟨⟨by decide +kernel, by decide +kernel⟩, by decide +kernel, by decide +kernel, by decide⟩

/-! ## Worked examples of the spec -/

/-- What a lane of slot 5 holds after an instruction. -/
def ran (i : Instr) (s : State) (l : Nat) (p : Thread → Bool) : Bool := match exec i s with
  | .next s' => (s'.thread? ⟨5, l⟩).any p
  | _ => false

/-- spec/07 after R191: BPACK.bx4 of (6.0, -1.5) and (0.25, 0.046875), NX and UF set and BC not. -/
def packs : State :=
  simt [(0, thr [(2, .known 0x40C00000), (3, .known 0xBFC00000)]), (1, thr [(2, .known 0x3E800000), (3, .known 0x3D400000)])]
theorem test_bpack :
    ran (.bpack { fa with d := 10, a := 2 }) packs 0 (fun t => t.reg 10 == 0x7E820053 && !t.fpsr.getLsbD 5) = true ∧
    ran (.bpack { fa with d := 10, a := 2 }) packs 1 (fun t => t.reg 10 == 0x7E82000A) = true := by decide +kernel

/-- The same example: BUNPK.bx4 of halfword 1, and BEXP by 3. -/
def unpacks : State :=
  simt [(0, thr [(7, .known 3), (10, .known 0x7E820053)]), (1, thr [(7, .known 3), (10, .known 0x7E82000A)])]
def bunpkI : Instr := .bunpk { fa with var := 4, d := 12, a := 10, b := 10 }
def bexpI : Instr := .bexp { fa with d := 11, a := 10, b := 7 }
theorem test_bunpk_bexp :
    ran bunpkI unpacks 0 (fun t => t.reg 12 == 0x40C00000 && t.reg 13 == 0xC0000000) = true ∧
    ran bunpkI unpacks 1 (fun t => t.reg 12 == 0x3E800000 && t.reg 13 == 0) = true ∧
    ran bexpI unpacks 0 (fun t => (t.reg 11).toNat / 65536 == 0x8185) = true := by decide +kernel

/-- spec/07 after R184: 1.0 + 2^-10 to bfloat16, stochastically, from SRSEED 0xF0000000. -/
theorem test_stochastic_rounding :
    ran (.cvtff { fa with mode := 5, var := 6, d := 9, a := 8 })
      (simt [(0, { thr [(8, .known 0x3F802000)] with srseed := 0xF0000000 })]) 0
      (fun t => t.reg 9 == 0x3F81 && t.srseed == 0xE0000001) = true := by decide +kernel

/-- spec/10, the example after R248: 0.3 is 0x2A in E4M3 and 0x35 in E5M2; -500 is 0x7F with .nan and 0xFE without. -/
theorem test_eight_bit_floats :
    ran (.pkf8 { fa with d := 9, a := 8, b := 6 }) (simt [(0, thr [(6, .known 0xC3FA0000), (8, .known 0x3E99999A)])]) 0
      (fun t => t.reg 9 == 0x00FE002A) = true ∧
    ran (.pkf8 { fa with d := 9, a := 8, b := 6, c := 2 }) (simt [(0, thr [(6, .known 0xC3FA0000), (8, .known 0x3E99999A)])]) 0
      (fun t => t.reg 9 == 0x007F002A) = true ∧
    ran (.pkf8 { fa with var := 4, d := 9, a := 8 }) (simt [(0, thr [(8, .known 0x3E99999A)])]) 0 (fun t => t.reg 9 == 0x35) =
      true := by decide +kernel

/-- spec/06, the lane sum: after xor 4, lanes 0, 1, 4 and 5 alone have a valid partner. -/
def sums : State :=
  simt ((List.range 6).map fun l => (l, thr [(5, .known (BitVec.ofNat 32 (l + 1))), (7, .known 4)]))
def shflI : Instr := .shfl { fa with var := 3, d := 6, a := 5, b := 7, c := 2 }
theorem test_shfl_in_a_partial_group :
    (List.range 6).map (fun l => ran shflI sums l fun t => t.guards.getLsbD 2) = [true, true, false, false, true, true] ∧
    ran shflI sums 1 (fun t => t.reg 6 == 6) = true ∧ ran shflI sums 4 (fun t => t.reg 6 == 1) = true := by decide +kernel

/-- spec/10 after R256: 2^32 and two blocks of 1 each stay 2^32; 1.0 and 2^32 have the encodings of R254. -/
theorem test_blocks_add_in_order :
    (accAdd (accAdd 0x10F80000000 (.fin false 1 0, false)).1 (.fin false 1 0, false)).1 = 0x10F80000000 ∧
    (accAdd 0 (.fin false 1 0, false)).1 = 0x0FF80000000 ∧ (accAdd 0 (.fin false 1 32, false)).1 = 0x10F80000000 := by
  decide +kernel

/-- spec/21, the worked dump: 5,120 of 8,192 bytes counted in generation 3, then ERR alone is set (R60, R218). -/
theorem test_sync_word : swArrive 0x0300020000000000 5120 = 0x0300020000001400 ∧
    swSetErr 0x0300020000001400 = 0x8300020000001400 ∧ swArrive 0x0300020000001400 3072 = 0x0400020000000000 ∧
    swArrive 0x7F00020000001FFF 1 = 0x0000020000000000 := by decide +kernel

/-- spec/19 after R349: the record of thread 5 of the migration program. -/
theorem test_fault_record :
    (⟨0x14, 4, 0x0000200000400080, 0x0000100000105000, 0x42, 0⟩ : FaultRec).bytes =
      leBytes 4 0x14 ++ leBytes 4 4 ++ leBytes 4 0x00400080 ++ leBytes 4 0x2000 ++ leBytes 4 0x00105000 ++ leBytes 4 0x1000 ++
      leBytes 4 0x42 ++ leBytes 4 0 := by decide +kernel
/-- Agent ids of spec/21's worked dump (R3): channel 0 of core 3, slots 0 and 2 of core 3, lane 17 of slot 2. -/
theorem test_agent_ids : agentId 0 0 3 0 0 1 = 0x00060001 ∧ agentId 0 0 3 0 0 0 = 0x00060000 ∧
    agentId 0 0 3 2 0 0 = 0x00060100 ∧ agentId 0 0 3 2 17 0 = 0x00060144 := by decide +kernel

/-- spec/20 R361's worked case: STARMAP(149) is at 0x14A8. -/
theorem test_star_map : starReg 149 = 0x14A8 ∧ 9 * 16 + 5 = 149 ∧ 0x102A % 64 = 42 := by decide

/-- spec/06 R156 to R159: a wrap, a quotient toward zero, the least number divided by -1, saturation. -/
def min32 : State := simt [(0, thr [(2, .known 0x80000000), (4, .known 0xFFFFFFFF)])]
theorem test_integer_corners :
    ran (.add f32a) min32 0 (fun t => t.reg 10 == 0x7FFFFFFF) = true ∧ ran (.mulh f32a) min32 0 (fun t => t.reg 10 == 0) = true ∧
    ran (.div f32a) min32 0 (fun t => t.reg 10 == 0x80000000) = true ∧ ran (.rem f32a) min32 0 (fun t => t.reg 10 == 0) = true ∧
    ran (.divu f32a) min32 0 (fun t => t.reg 10 == 0) = true ∧ ran (.remu f32a) min32 0 (fun t => t.reg 10 == 0x80000000) = true := by
  decide +kernel

/-! ## A step -/

/-- The instruction placed where step fetches runs as the first one, and its thread goes on by 8. -/
def firstStep (w : Nat) (p : Thread → Bool) : Bool := match step (State.reset.withFetchWord 64 w) with
  | .next s => (s.thread? ⟨hw0 + 2, 0⟩).any p
  | _ => false
theorem test_first_step :
    firstStep 0x3F80000010002402 (fun t => t.reg 9 == 0x3F800000 && t.pc == BitVec.ofNat 64 (Config.placedPc + 8)) = true ∧
    firstStep 0x000000000C007810 (fun t => t.pc == BitVec.ofNat 64 (Config.placedPc + 96) &&
      t.pair 30 == BitVec.ofNat 64 (Config.placedPc + 8)) = true := by decide +kernel

/-! ## Further clauses -/

/-- A misaligned target of each jump, on a SIMT core and on a latency core. -/
theorem witness_MisalignedJumpFaults :
    AtIssue (lane tj) (.jrs { fa with a := 2 }) u5 (gOf tj) ∧ LaneAt (lane tj) (.jrs { fa with a := 2 }) u5 (gOf tj) 0 tj ∧
    ((groupAt (lane tj) (.jrs { fa with a := 2 }) u5 (gOf tj)).sreg 2).toNat % 8 ≠ 0 ∧
    (∀ i ∈ [Instr.jr { jA with a := 4 }, .callr { jA with a := 4 }, .ret { jA with a := 4 }, .jrs { fa with a := 2 }],
      AtIssue (user tj) i uL (gOf tj) ∧ LaneAt (user tj) i uL (gOf tj) 0 tj) ∧
    (src64 (gOf tj) tj false 4).toNat % 8 ≠ 0 ∧ ((gOf tj).sreg 2).toNat % 8 ≠ 0 ∧ isLatency uL.slot = true ∧
    (gOf tj).activeAt uL.pc = [0] ∧ tj.guardHolds uL.g = true := by
  have h := laneAt_all (s := lane tj) (u := u5) (g := gOf tj) (l := 0) (t := tj) (is := [.jrs { fa with a := 2 }])
    (by decide +kernel) _ (List.mem_singleton_self _)
  exact ⟨h.1, h.2, by decide +kernel, laneAt_all (by decide +kernel), by decide +kernel, by decide +kernel, by decide,
    by decide +kernel, by decide⟩

/-- Word 0 of the scratchpad with ERR set (R218). -/
def laneErr : State := { lane tw with spad := [(0, cells 7 [128] [])] }
theorem witness_WaitForms_err :
    Solo laneErr (.waits { fa with b := 6 }) u5 (gOf tw) 0 tw ∧ Prompt laneErr ∧ (∀ r ∈ laneErr.reqs, r.who.slot ≠ 5) ∧
    (entry laneErr (.waits { fa with b := 6 }) u5 (gOf tw)).spadCheck 5 5 0 8 = .ok (0, 0) ∧ (laneErr.core 0).spoiled = [] ∧
    leVal (memRead (laneErr.spadOf 0) 0 8) / 2 ^ 63 ≠ 0 ∧
    (entry lanew (.waitv (wv 4 0)) u5 (gOf tw)).bpFor ⟨5, 0⟩ tw 5 1 0x10000 4 = none :=
  ⟨solo_of (by decide +kernel), prompt_of (by decide +kernel), by decide +kernel, by decide +kernel, by decide +kernel,
    by decide +kernel, by decide +kernel⟩

/-- A cohort of two threads (R18) whose completion word is at VA 0x10000. -/
def header2 : List Byte :=
  List.replicate 16 0 ++ leBytes 8 1 ++ [2, 0, 0, 0] ++ (List.replicate 5 [1, 0, 0, 0]).flatten ++ leBytes 8 0x10000 ++
    List.replicate 72 0
def co2 : Cohort := ⟨header2, 5, 0, none, []⟩
/-- Lane 0 issues; lane 3, the cohort's other thread, waits at level 2, or at GSYNC. -/
def tTwo (wid : DWord) (r : Run) : Thread := { tw with cohort := 0x42, wid := wid, run := r }
def gTwo (w : Wait) : Machine.Group := grp [(0, tTwo 0 .ready), (3, tTwo 1 (.waiting w true 0))]
def twoS (w : Wait) : State := { lane tw with groups := [(5, gTwo w)], cohorts := [(0x42, co2)] }
def barI : Instr := .bar { fa with var := 2 }
theorem witness_WaitForms_together :
    Solo (twoS (.bar 2)) barI u5 (gTwo (.bar 2)) 0 (tTwo 0 .ready) ∧ (tTwo 0 .ready).cohort ≠ 0 ∧
    (twoS (.bar 2)).cohort? 0x42 = some co2 ∧
    Settled (entry (twoS (.bar 2)) barI u5 (gTwo (.bar 2))) ⟨5, 0⟩ (tTwo 0 .ready) ∧ KeysRise (twoS (.bar 2)).groups ∧
    KeysRise (gTwo (.bar 2)).members ∧
    (((twoS (.bar 2)).barWaiters 0x42 2).filter fun x => flatOfWid header2 x.2.wid.toNat / hdrUnit header2 2 ==
      flatOfWid header2 0 / hdrUnit header2 2) = [(⟨5, 3⟩, tTwo 1 (.waiting (.bar 2) true 0))] ∧ hdrUnit header2 2 = 2 ∧
    Solo (twoS .gsync) .gsync u5 (gTwo .gsync) 0 (tTwo 0 .ready) ∧
    Settled (entry (twoS .gsync) .gsync u5 (gTwo .gsync)) ⟨5, 0⟩ (tTwo 0 .ready) ∧ (twoS .gsync).frozen = false ∧
    (∀ x ∈ (gTwo .gsync).members, x.1 ≠ 0 → x.2.run.inGsync = true) :=
  ⟨solo_of (by decide +kernel), by decide, by decide +kernel, settled_of (by decide +kernel), rises_of (by decide +kernel),
    rises_of (by decide +kernel), by decide +kernel, by decide +kernel, solo_of (by decide +kernel),
    settled_of (by decide +kernel), by decide +kernel, by decide +kernel⟩

/-- A FANOUT header at the odd address 1; the first of the cohort's two threads ends. -/
def t1 : Thread := thr [(2, .known 1)]
def tEnd : Thread := { tt with cohort := 0x42 }
def ends : State := { lane tEnd with cohorts := [(0x42, co2)] }
def ended : Except Nat (List Byte × State) := (entry ends .exit u5 (gOf tEnd)).readVa 0 5 false 0x10000 8 (lines 8)
def endedOk : Bool := match ended with
  | .ok (bs, s1) => good (s1.writeVa 0 5 false 0x10000 (leBytes 8 (leVal bs + 1)) (lines 8))
  | .error _ => false
theorem endedOk_of (h : endedOk = true) : ∃ bs s1 s2, ended = .ok (bs, s1) ∧
    s1.writeVa 0 5 false 0x10000 (leBytes 8 (leVal bs + 1)) (lines 8) = .ok s2 := by
  unfold endedOk at h
  split at h
  · rename_i bs s1 hr
    obtain ⟨s2, h2⟩ := good_of h
    exact ⟨bs, s1, s2, hr, h2⟩
  · cases h
theorem witness_ThreadForms_cohort :
    Solo (lane t1) (.fanout { fa with d := 10, a := 2 }) u5 (gOf t1) 0 t1 ∧ (src64 (gOf t1) t1 false 2).toNat % 128 ≠ 0 ∧
    Solo ends .exit u5 (gOf tEnd) 0 tEnd ∧ Settled (entry ends .exit u5 (gOf tEnd)) ⟨5, 0⟩ tEnd ∧
    ends.cohort? tEnd.cohort = some co2 ∧ Prompt ends ∧ (gOf tEnd).members.map (·.1) = [0] ∧ tEnd.numTraps = [] ∧
    (∀ k < 6, ends.barWaiters tEnd.cohort k = []) ∧ co2.ended.length + 1 < hdrCount co2.header ∧
    d64 (field co2.header 48 8) = 0x10000 ∧
    (∃ x, (entry ends .exit u5 (gOf tEnd)).translate 0 5 false 0x10000 .update = .ok x) ∧
    ∃ bs s1 s2, ended = .ok (bs, s1) ∧ s1.writeVa 0 5 false 0x10000 (leBytes 8 (leVal bs + 1)) (lines 8) = .ok s2 :=
  ⟨solo_of (by decide +kernel), by decide +kernel, solo_of (by decide +kernel), settled_of (by decide +kernel),
    by decide +kernel, prompt_of (by decide +kernel), by decide, by decide, by decide +kernel, by decide +kernel,
    by decide +kernel, good_of (by decide +kernel), endedOk_of (by decide +kernel)⟩

/-- The frame of zeros at SFRAME, read whole (R88). -/
def framed : Bool := match sframe.readPhys (sframe.dreg 4 0x100).toNat 384 with
  | .ok hd => match sframe.readPhys (sframe.dreg 4 0x100).toNat (frameSize (w32 (field hd 88 4))) with
    | .ok bs => decide (field bs 92 4 = 0)
    | .error _ => false
  | .error _ => false
theorem framed_of (h : framed = true) : ∃ hd bs, sframe.readPhys (sframe.dreg 4 0x100).toNat 384 = .ok hd ∧
    sframe.readPhys (sframe.dreg 4 0x100).toNat (frameSize (w32 (field hd 88 4))) = .ok bs ∧ field bs 92 4 = 0 := by
  unfold framed at h
  split at h
  · rename_i hd hr
    split at h
    · rename_i bs hb
      exact ⟨hd, bs, hr, hb, of_decide_eq_true h⟩
    · cases h
  · cases h
theorem witness_SupervisorEntryAndReturn_frame : ∃ hd bs, sframe.readPhys (sframe.dreg 4 0x100).toNat 384 = .ok hd ∧
    sframe.readPhys (sframe.dreg 4 0x100).toNat (frameSize (w32 (field hd 88 4))) = .ok bs ∧
    ∀ st, (threadOf bs st).sysPend = false ∧ (threadOf bs st).signal = none := by
  obtain ⟨hd, bs, h1, h2, h3⟩ := framed_of (by decide +kernel)
  exact ⟨hd, bs, h1, h2, fun st => threadOf_flags h3⟩

/-- Each CSR number of CsrForms in each form: a thread's own, the core's and the die's, the allowances. -/
def csrAll (ns : List Nat) : List Instr :=
  ns.flatMap fun n => csrs ⟨false, decide (n ∈ [0x003, 0x004, 0x005, 0x006, 0x00A]), BitVec.ofNat 12 n, 10, 2⟩
def coreNumbers : List Nat :=
  [0x800, 0x801, 0x802, 0x803, 0x804, 0x805, 0x806, 0x1C8, 0x900, 0x1D0, 0x1D1, 0x1D2, 0x1D3, 0x1D4, 0x1D5, 0x1D6, 0x1D7, 0x808,
   0x809, 0x80A, 0x80B, 0x80C, 0x80D, 0x80E, 0x80F]
theorem witness_ThreadCsrs : ∀ i ∈ .csrr ⟨false, false, 0x009, 10, 0⟩ ::
      csrAll [0x000, 0x001, 0x002, 0x003, 0x004, 0x005, 0x006, 0x007, 0x00A, 0xA00],
    Solo supervisor i uS gs 0 ts := solo_all (by decide +kernel)
theorem witness_CoreCsrs :
    (∀ i ∈ csrAll coreNumbers, Solo supervisor i uS gs 0 ts) ∧
    ∀ i ∈ [0x180, 0x1BF, 0x1C0, 0x1C7].map fun n => Instr.csrr ⟨false, false, BitVec.ofNat 12 n, 10, 0⟩,
      Solo supervisor i uS gs 0 ts := ⟨solo_all (by decide +kernel), solo_all (by decide +kernel)⟩

/-- GCYC, TMR and SPBASE read; TMR written by a whole group, with no guard true, and by one lane of two, and GCYC and TMR in
supervisor mode, which alone writes GCYC. -/
def groupReads : List Instr := [0x100, 0x101, 0x102].map fun n => .csrr ⟨false, decide (n ≠ 0x102), BitVec.ofNat 12 n, 10, 0⟩
def writesOf (n : Nat) : List Instr := (csrWrites ⟨false, true, BitVec.ofNat 12 n, 10, 2⟩).map (·.1)
def groupWrites : List Instr := writesOf 0x101
theorem witness_GroupCsrs :
    (∀ i ∈ groupReads, AtIssue two i u5 g2) ∧
    (∀ i ∈ groupWrites ++ writesOf 0x100, AtIssue supervisor i uS gs ∧ LaneAt supervisor i uS gs 0 ts) ∧
    (∀ i ∈ groupWrites ++ writesOf 0x100, Whole supervisor i uS gs) ∧ (gs.activeAt uS.pc).head? = some 0 ∧
    (∀ i ∈ groupWrites, AtIssue two i u5 g2 ∧ LaneAt two i u5 g2 0 (thr some5)) ∧
    (∀ i ∈ groupWrites, Whole two i u5 g2) ∧ (g2.activeAt u5.pc).head? = some 0 ∧
    (∀ i ∈ groupWrites, AtIssue none2 i noGuard g2 ∧ LaneAt none2 i noGuard g2 0 (thr some5)) ∧
    (∀ i ∈ groupWrites, pSet none2 i noGuard g2 = []) ∧
    (∀ i ∈ groupWrites, AtIssue (simt apart) i u5 (grp apart) ∧ LaneAt (simt apart) i u5 (grp apart) 0 (thr some5)) ∧
    (∀ i ∈ groupWrites, pSet (simt apart) i u5 (grp apart) ≠ []) ∧
    ∀ i ∈ groupWrites, ¬ Whole (simt apart) i u5 (grp apart) := by
  refine ⟨atIssue_all (by decide +kernel), laneAt_all (by decide +kernel), fun i hi => whole_of ?_, by decide +kernel,
    laneAt_all (by decide +kernel), fun i hi => whole_of ?_, by decide +kernel, laneAt_all (by decide +kernel), by decide +kernel, laneAt_all (by decide +kernel), by decide +kernel, fun i _ h => ?_⟩
  · exact List.all_eq_true.mp (by decide +kernel : (groupWrites ++ writesOf 0x100).all (whole supervisor uS gs) = true) i hi
  · exact List.all_eq_true.mp (by decide +kernel : groupWrites.all (whole two u5 g2) = true) i hi
  · exact absurd h.2.1 (by decide +kernel)

/-- The peer's page with a mirror at package 2, which is up too. -/
def mirrored : State := { lane tm with dies := [(0, { tabled with fabric := [(0, 0x100), (0x208, 1), (0x210, 1)] }), (4, tabled)] }
def tgMirror : Target := { tgPeer with mirror := some 2 }
theorem witness_PeerAccessForms_release :
    Solo (lane tm) (.st { fM 6 2 with ord := 2 }) u5 (gOf tm) 0 tm ∧ Settled (lane tm) ⟨5, 0⟩ tm ∧ (lane tm).reqs = [] ∧
    (entry (lane tm) (.st { fM 6 2 with ord := 2 }) u5 (gOf tm)).aim (ctxAt (lane tm) (.st { fM 6 2 with ord := 2 }) u5 (gOf tm))
      .write 0x30000 4 = .ok (tgPeer, none, lane tm) ∧ mirrored.peerState 2 = 1 ∧ mirrored.egressCredit 0 2 ≠ 0 ∧
    mirrored.alw 0 1 ≠ 0 ∧ (mirrored.core 0).entry 1 0 = none ∧ Prompt mirrored :=
  ⟨solo_of (by decide +kernel), settled_of (by decide +kernel), by decide +kernel, by decide +kernel, by decide +kernel,
    by decide +kernel, by decide +kernel, by decide +kernel, prompt_of (by decide +kernel)⟩

theorem witness_SharedLoad_back : ∀ m ∈ (gOf tm).members, m.2.back = none := by decide

theorem witness_FenceAndMaintenance_done : (inMaint (.iinv 0 64 0)).writesOut (laneWho ⟨0, 0, 5, 0⟩) = false ∧
    (inMaint (.clean 0 64)).ownsEntry (laneWho ⟨0, 0, 5, 0⟩) = false := by decide +kernel

/-- A write on its way to package 1 and its mirror, package 2. -/
def doubled : State :=
  { mirrored with reqs := [req (.write (cellsAt 0 [1, 2]) true) (.peer 1 (some 2))], subject := .idx 0 }
theorem witness_RepliesAndDrains_mirror :
    pick (doubled.arriving Req.isWrite) 0 = some (req (.write (cellsAt 0 [1, 2]) true) (.peer 1 (some 2))) ∧
    doubled.peerState 1 = 1 ∧ doubled.peerState 2 = 1 ∧ Memory.wf (doubled.peerMem 2) = true ∧ prompt doubled = true ∧
    doubled.together (req (.write (cellsAt 0 [1, 2]) true) (.peer 1 (some 2))) =
      some [req (.write (cellsAt 0 [1, 2]) true) (.peer 1 (some 2))] ∧
    doubled.here (req (.write (cellsAt 0 [1, 2]) true) (.peer 1 (some 2))) =
      req (.write (cellsAt 0 [1, 2]) true) (.peer 1 (some 2)) := by decide +kernel

/-- A subscription lost with its home (R317). -/
def lostSub : State :=
  { lane tst with cores := [(0, { Core.fresh with tlb := pages, subs := [{ sub0 with lost := true }] })] }
theorem witness_StandAndUnstand_lost :
    Solo lostSub unstandI u5 (gOf tst) 0 tst ∧ (entry lostSub unstandI u5 (gOf tst)).slotCheck (ctxAt lostSub unstandI u5 (gOf tst)) 16 = none ∧
    lostSub.openSub 0 5 16 = some { sub0 with lost := true } :=
  ⟨solo_of (by decide +kernel), by decide +kernel, by decide +kernel⟩

/-- ASWAP and ACAS of 16 bytes. -/
theorem witness_HomeRequests_wide : ∀ k ∈ [(8 : BitVec 4), 9], (fromPeer (.atomic k 16 5 0)).subject = .home ⟨1, 0, .atomic k 16 5 0, none, 0⟩ ∧
    ((atomics ⟨0, 0, false, 0, false, 0, 0, 0, 0⟩)[k.toNat]?).isSome = true ∧
    (fromPeer (.atomic k 16 5 0)).memFault tgHbm 16 true = none ∧ (fromPeer (.atomic k 16 5 0)).memFault tgHbm 16 false = none := by
  decide +kernel

theorem witness_SyncWordForms_back : tn.back = none := by decide

/-! ## The matrix arrays: results -/

/-- A command with its sync word at `y`, its operands A at 0 and B at `b`, a table and a tile of its own. -/
def cmdAt (i : Instr) (b y : DWord) (tab : List Byte) : MatCmd := { cmdOf i true with b := b, c := y, table := tab }
def queuedAt (i : Instr) (b y : DWord) (tab : List Byte) (tiles : Map Tile) : Machine.Group :=
  { gOf tn with queue := [cmdAt i b y tab], tiles := tiles }
def onArrayAt (i : Instr) (b y : DWord) (tab : List Byte) (tiles : Map Tile) (m : Memory) : State :=
  { lane tn with groups := [(5, queuedAt i b y tab tiles)], subject := .slot ⟨0, 0, 5⟩, spad := [(0, m)] }
def onArrayOk (i : Instr) (f : FmtX) (b y : DWord) (tab : List Byte) (tiles : Map Tile) (m : Memory) : Bool :=
  decide ((onArrayAt i b y tab tiles m).group? 5 = some (queuedAt i b y tab tiles)) &&
    (onArrayAt i b y tab tiles m).arraysRun 5 (queuedAt i b y tab tiles) &&
    decide ((cmdAt i b y tab).instr = some (i, f) ∧ (onArrayAt i b y tab tiles m).ownsEntry ⟨5, 0⟩ = false) &&
    tiles.all (fun x => !x.2.ecc)
theorem sane {tiles : Map Tile} {g : Machine.Group} (hg : g.tiles = tiles) (h : tiles.all (fun x => !x.2.ecc) = true) (n : Nat) :
    (g.tile n).ecc = false := by
  unfold Group.tile Machine.get
  rw [hg]
  cases hk : lookup n tiles with
  | none => rfl
  | some t => simpa using lookup_all (p := fun t : Tile => !t.ecc) h hk
theorem onArray_of {i f b y tab tiles m} (h : onArrayOk i f b y tab tiles m = true) :
    OnArray (onArrayAt i b y tab tiles m) ⟨0, 0, 5⟩ (queuedAt i b y tab tiles) (cmdAt i b y tab) [] i f := by
  simp only [onArrayOk, Bool.and_eq_true, decide_eq_true_eq] at h
  exact ⟨rfl, h.1.1.1, rfl, rfl, h.1.1.2, h.1.2.1, rfl, ⟨rfl, rfl⟩, ⟨rfl, rfl, rfl⟩, fun r hr => (List.not_mem_nil hr).elim, h.1.2.2,
    unspoiled (by exact (by decide +kernel : (lane tn).cores.all (fun x => decide (x.2.spoiled = [])) = true)), sane rfl h.2, rfl⟩
theorem syncAt_of {i b y tab tiles m q o}
    (h : decide (y ≠ 0 ∧ spadDecode (coreOfSlot 5) y = .ok (q, o) ∧ (onArrayAt i b y tab tiles m).spadOwned 5 q o 8 = true ∧
      Memory.wf ((onArrayAt i b y tab tiles m).spadOf q) = true) = true) :
    SyncAt (onArrayAt i b y tab tiles m) (queuedAt i b y tab tiles) (cmdAt i b y tab) q o := by
  simp only [decide_eq_true_eq] at h
  exact ⟨h.1, h.2.1, h.2.2.1, h.2.2.2⟩

/-- ALD counts at 65,600, above the tile's bytes. -/
theorem witness_TileCommands_sync :
    OnArray (onArrayAt (.ald (fx 0)) 0 65600 [] [] []) ⟨0, 0, 5⟩ (queuedAt (.ald (fx 0)) 0 65600 [] []) (cmdAt (.ald (fx 0)) 0 65600 []) []
      (.ald (fx 0)) (fx 0) ∧
    SyncAt (onArrayAt (.ald (fx 0)) 0 65600 [] [] []) (queuedAt (.ald (fx 0)) 0 65600 [] []) (cmdAt (.ald (fx 0)) 0 65600 []) 0 65600 :=
  ⟨onArray_of (by decide +kernel), syncAt_of (by decide +kernel)⟩

/-- AST of tile 1 to the region's first bytes, in each format, with SAT and CLR; the tile's error set or not. -/
def astF (p : BitVec 10) : FmtX := { fx 0 with p := p }
def badTile : Map Tile := [(1, ⟨[], true, false⟩)]
theorem witness_StoredTiles :
    (∀ p ∈ [(0 : BitVec 10), 1, 2, 12], OnArray (onArrayAt (.ast (astF p)) 0 65600 [] [] []) ⟨0, 0, 5⟩
      (queuedAt (.ast (astF p)) 0 65600 [] []) (cmdAt (.ast (astF p)) 0 65600 []) [] (.ast (astF p)) (astF p)) ∧
    OnArray (onArrayAt (.ast (astF 0)) 0 65600 [] badTile []) ⟨0, 0, 5⟩ (queuedAt (.ast (astF 0)) 0 65600 [] badTile)
      (cmdAt (.ast (astF 0)) 0 65600 []) [] (.ast (astF 0)) (astF 0) ∧
    SyncAt (onArrayAt (.ast (astF 0)) 0 65600 [] [] []) (queuedAt (.ast (astF 0)) 0 65600 [] []) (cmdAt (.ast (astF 0)) 0 65600 []) 0 65600 ∧
    spadDecode 0 0 = .ok (0, 0) ∧ (∀ n ∈ [65536, 32768, 16896], (onArrayAt (.ast (astF 0)) 0 65600 [] [] []).spadOwned 5 0 0 n = true) ∧
    tileErr (queuedAt (.ast (astF 0)) 0 65600 [] badTile) 1 = true ∧ tileErr (queuedAt (.ast (astF 0)) 0 65600 [] []) 1 = false := by
  have h : ([0, 1, 2, 12].all fun p => onArrayOk (.ast (astF p)) (astF p) 0 65600 [] [] []) = true := by decide +kernel
  exact ⟨fun p hp => onArray_of (List.all_eq_true.mp h p hp), onArray_of (by decide +kernel), syncAt_of (by decide +kernel), by decide +kernel,
    by decide +kernel, by decide +kernel, by decide +kernel⟩

theorem marked_none {bs : List Byte} {u t : Nat} (h : field bs (512 * u) 64 = 0) : marked bs u t = 0 := by
  simp [marked, h]
theorem marked_all {bs : List Byte} {u : Nat} (h : field bs (512 * u) 64 = 2 ^ 512 - 1) : marked bs u 512 = 512 := by
  unfold marked
  rw [h]
  decide +kernel
/-- MMAS of eight blocks: a unit of A marks nothing, or every element. -/
def mmasF : FmtX := { fx 0 with p := 7 }
def full : Memory := cells 0 (List.replicate 64 255) []
def sparseA (m : Memory) : List Byte :=
  operand (onArrayAt (.mmas mmasF) 0 0 [] [] m) (queuedAt (.mmas mmasF) 0 0 [] []) (cmdAt (.mmas mmasF) 0 0 []) 0 65536
theorem field_memRead (m : Memory) (a n o k : Nat) (h : o + k ≤ n) : field (memRead m a n) o k = leVal (memRead m (a + o) k) := by
  unfold field memRead
  congr 1
  apply List.ext_getElem
  · simp; omega
  · intro i h1 h2
    simp [Nat.add_assoc]
/-- What MMAS reads is the scratchpad's bytes. -/
theorem sparseA_eq (m : Memory) : sparseA m = memRead m 0 65536 := by
  unfold sparseA operand State.matBytes State.nearRead
  simp only [show ((cmdAt (.mmas mmasF) 0 0 []).doer (queuedAt (.mmas mmasF) 0 0 [] []).asid).lat = false from by decide +kernel]
  rfl
theorem witness_MultiplyResults_sparse :
    (∀ m ∈ [[], full], OnArray (onArrayAt (.mmas mmasF) 0 0 [] [] m) ⟨0, 0, 5⟩ (queuedAt (.mmas mmasF) 0 0 [] [])
      (cmdAt (.mmas mmasF) 0 0 []) [] (.mmas mmasF) mmasF) ∧
    (∀ u < 16 * 8, marked (sparseA []) u 512 ≤ 448) ∧ (∃ u < 16 * 8, 448 < marked (sparseA full) u 512) ∧
    (cmdAt (.mmas mmasF) 0 0 []).next + 1 < 8 := by
  refine ⟨fun m hm => onArray_of ?_, fun u hu => ?_, ⟨0, by decide, ?_⟩, by decide⟩
  · revert m; decide +kernel
  · rw [marked_none]
    · decide
    · rw [sparseA_eq, field_memRead _ _ _ _ _ (by omega)]
      revert u; decide +kernel
  · rw [marked_all]
    · decide
    · rw [sparseA_eq, field_memRead _ _ _ _ _ (by decide)]
      decide +kernel

/-- MMAG with a table of one entry of 3 rows from row 5, of none, and of one with 129 rows. -/
def mmagF : FmtX := { fx 0 with c := 16, p := 1 }
def tabOf (n rows : Nat) : List Byte := leBytes 8 n ++ leBytes 4 0 ++ leBytes 2 rows ++ leBytes 2 5 ++ leBytes 2 16 ++ leBytes 6 0
theorem witness_RaggedResults :
    (∀ tab ∈ [tabOf 1 3, tabOf 0 0, tabOf 1 129], OnArray (onArrayAt (.mmag mmagF) 0 0 tab [] []) ⟨0, 0, 5⟩
      (queuedAt (.mmag mmagF) 0 0 tab []) (cmdAt (.mmag mmagF) 0 0 tab) [] (.mmag mmagF) mmagF) ∧
    (let tab := tabOf 1 3
     field tab 0 4 = 1 ∧ field tab 4 4 = 0 ∧ firstRow tab 1 = 3 ∧ entryOf tab 0 4 2 = 3 ∧ entryOf tab 0 6 2 = 5 ∧
     entryOf tab 0 8 2 = 16 ∧ entryOf tab 0 10 1 = 0 ∧ entryOf tab 0 11 5 = 0 ∧ (matFmts (.mmag mmagF)).1.isBx = true ∧
     oneFile 16 (4 * 2) = true ∧ 16 + 4 * 2 - 1 ≤ fpNV (gOf tn).footprint ∧
     (onArrayAt (.mmag mmagF) 0 0 tab [] []).nearCheck 5 5 false 0 (128 * ((2 * blockBytes (matFmts (.mmag mmagF)).1 + 63) / 64 * 64)) 64 =
       none) ∧
    field (tabOf 0 0) 0 4 = 0 ∧ 128 < firstRow (tabOf 1 129) 1 ∧ (cmdAt (.mmag mmagF) 0 0 []).next + 1 < 1 * 2 := by
  refine ⟨fun tab ht => onArray_of ?_, by decide +kernel, by decide +kernel, by decide +kernel, by decide⟩
  revert tab
  decide +kernel

/-- A command at the head of a queue that starts: MMAB4 and MMAG of two blocks, whose table is at 0; and on the array its last
block. -/
def startF : FmtX := { fx 0 with c := 16, p := 1 }
theorem witness_MatrixStart_captures :
    (∀ i ∈ [Instr.mmab4 startF, .mmab6 startF, .mmab8 startF, .mmag startF],
      (onArray i false).group? (slotIdKey ⟨0, 0, 5⟩) = some (queued i false) ∧ (onArray i false).arraysRun (slotIdKey ⟨0, 0, 5⟩) (queued i false) = true ∧
      (cmdOf i false).instr = some (i, startF) ∧ prompt (onArray i false) = true ∧ (onArray i false).reqs = [] ∧
      (onArray i false).ownsEntry (cmdOf i false).issuer = false ∧ isLatency (cmdOf i false).issuer.slot = false ∧
      (cmdOf i false).table = [] ∧ (cmdOf i false).scaleB = [] ∧ (cmdOf i false).poison = false) ∧
    (∀ k, ((onArray (.mmag startF) false).core k).spoiled = []) ∧ spadDecode 0 0 = .ok (0, 0) ∧
    (onArray (.mmag startF) false).spadOwned 5 0 0 520 = true ∧
    (prompt (onArray (.mmaf8 (fx 0)) true) = true ∧ (cmdOf (.mmaf8 (fx 0)) true).blocks (.mmaf8 (fx 0)) (fx 0) ≤ 0 + 1) :=
  ⟨by decide +kernel, unspoiled (by decide +kernel), by decide +kernel, by decide +kernel, by decide +kernel⟩

/-! ## Events, commands and saves: further clauses -/

/-- A WAITV on an address that no table maps: the read faults (R141). -/
def wtBad : Wait := .waitv 0x800000 0 false false 1 10 none
def tBad : Thread := { thr some5 with run := .waiting wtBad false 0 }
def failed (p : Poll) : Bool := match p with
  | .fault _ _ => true
  | _ => false
theorem failed_of {p : Poll} (h : failed p = true) : ∃ c a, p = .fault c a := by
  cases p <;> first | exact ⟨_, _, rfl⟩ | cases h
theorem witness_ExpiryEvents_fault :
    (subj (lane tBad) (.lane ⟨0, 0, 5, 0⟩)).group? 5 = some (gOf tBad) ∧ lookup 0 (gOf tBad).members = some tBad ∧
    tBad.run = .waiting wtBad false 0 ∧
    ∃ c a, (subj (lane tBad) (.lane ⟨0, 0, 5, 0⟩)).poll ⟨5, 0⟩ 5 wtBad = .fault c a :=
  ⟨by decide +kernel, by decide +kernel, rfl, failed_of (by decide +kernel)⟩

/-- The ring of die 0 at an address that no memory has (R353). -/
def noRing : State :=
  { ring 4064 with
      dies := [(0, { tabled with held := [frec], regs := [(0x010, BitVec.ofNat 64 (2 ^ 50)), (0x018, 12), (0x020, 0)] })] }
theorem witness_FaultEvents_record :
    (∃ s1, (ring 4064).writePhys (recordPlace (ring 4064) 0) (recordOf frec) = .ok s1) ∧ noRing.faultRoom 0 = true ∧
    (noRing.die 0).held = [frec] ∧ ∃ e, noRing.writePhys (recordPlace noRing 0) (recordOf frec) = .error e :=
  ⟨good_of (by decide +kernel), by decide +kernel, by decide +kernel, bad_of (by decide +kernel)⟩
theorem witness_TakingAnException_record :
    (∃ s1, ((ring 4064).setDie 0 { (ring 4064).die 0 with held := [] }).writePhys
      (recordPlace ((ring 4064).setDie 0 { (ring 4064).die 0 with held := [] }) 0) (recordOf frec) = .ok s1) ∧
    ∃ e, (noRing.setDie 0 { noRing.die 0 with held := [] }).writePhys
      (recordPlace (noRing.setDie 0 { noRing.die 0 with held := [] }) 0) (recordOf frec) = .error e :=
  ⟨good_of (by decide +kernel), bad_of (by decide +kernel)⟩

/-- A group of 128 v-registers alone, whose save goes to the LPDDR 6 or to an address that no memory has. -/
def leavingTo (a : Nat) : Machine.Group :=
  { gOf some5T with footprint := w32 128, sregs := [], preempt := some ⟨a, 0, true, none, []⟩ }
def saving (a : Nat) : State := subj { lane some5T with groups := [(5, leavingTo a)] } (.slot ⟨0, 0, 5⟩)
def savedFrame (a : Nat) : List Byte :=
  let g := leavingTo a
  let g1 : Machine.Group := { g with members := g.members.map fun m => (m.1, { m.2 with pathtok := (m.2.abandon false).pathtok }) }
  (saving a).saveFrame 5 g1 ((saving a).savedOf 5 g1 ⟨a, 0, true, none, []⟩)
theorem witness_ActiveSetAndSaves_frame :
    (∀ a ∈ [area, 2 ^ 50], let s := saving a
      s.group? 5 = some (leavingTo a) ∧ (∀ e ∈ (s.core (coreOfSlot 5)).wc, e.owner.slot ≠ 5) ∧ (∀ r ∈ s.reqs, r.who.slot ≠ 5) ∧
      (leavingTo a).queue = [] ∧ (leavingTo a).follows = [] ∧ s.chainsOf 5 = [] ∧ (∀ m ∈ (leavingTo a).members, m.2.deferred = none)) ∧
    KeysRise (saving area).groups ∧ (∃ s1, (saving area).writePhys area (savedFrame area) = .ok s1) ∧
    ∃ e, (saving (2 ^ 50)).writePhys (2 ^ 50) (savedFrame (2 ^ 50)) = .error e :=
  ⟨by decide +kernel, rises_of (by decide +kernel), good_of (by decide +kernel), bad_of (by decide +kernel)⟩

/-- A gap record whose log is in the LPDDR 6, and one whose log no memory has; a request to stack 0 that carries an attribution
and has been on its way for `n` cycles. -/
def gapAt (a : Nat) : Core := { gapC 3 with csr := [(0xA01, BitVec.ofNat 64 a), (0xA02, 0x10C)] }
def gapBytes : List Byte := leBytes 4 0xFFFFFFFF ++ leBytes 4 0 ++ leBytes 4 3 ++ leBytes 8 0 ++ leBytes 4 5 ++ leBytes 8 0
def lateReq (n : Nat) : Req := { req (.load 8 false []) (.unit 0) with attr := some ⟨0, 0, 5⟩, cycles := n }
def lateHeld (n : Nat) : State := { homeHeld n with reqs := [lateReq n] }
theorem witness_ProfilingEvents_records :
    (∀ a ∈ [lp, 2 ^ 50], ((coreS (gapAt a)).core (coreIdKey ⟨0, 0⟩)).ring 0xA01 = { (gapC 3).ring 0xA01 with base := BitVec.ofNat 64 a } ∧
      (((coreS (gapAt a)).core 0).ring 0xA01).gapDue = true ∧ (((coreS (gapAt a)).core 0).ring 0xA01).lost = 3 ∧
      (((coreS (gapAt a)).core 0).ring 0xA01).head = 0) ∧
    (∃ s1, (coreS (gapAt lp)).writePhys lp gapBytes = .ok s1) ∧ (∃ e, (coreS (gapAt (2 ^ 50))).writePhys (2 ^ 50) gapBytes = .error e) ∧
    (lateReq 65).attr = some ⟨(heldAt 65).token, (heldAt 65).pred, (heldAt 65).predSeq⟩ ∧
    refCycles false (heldAt 65).cycles ≤ refCycles (isLatency (lateReq 65).who.slot) (lateReq 65).cycles ∧
    (lateHeld 65).reqs = [lateReq 65] ∧ ((lateHeld 65).dreg 0 0x0F8).toNat < (heldAt 65).cycles ∧
    (lateHeld 65).subject = .queue (heldAt 65) :=
  ⟨by decide +kernel, good_of (by decide +kernel), bad_of (by decide +kernel), by decide +kernel, by decide +kernel,
    by decide +kernel, by decide +kernel, by decide +kernel⟩

theorem witness_ThreadCommands_kill :
    (∀ r ∈ (cmdS 0x284 0 0).reqs, r.of ⟨5, 1⟩ = false) ∧ (cmdS 0x284 0 0).ownsEntry ⟨5, 1⟩ = false ∧
    (cmdS 0x284 0 0).completeWaits ⟨5, 1⟩ tp gp.asid = false := by decide +kernel

/-- PREEMPT with an area in the LPDDR 6, and with one that no memory has; RESTORE of zeros, of another version and of a save
that is not complete. -/
def header3 (magic ver flags : Nat) : List Byte :=
  leBytes 4 magic ++ leBytes 4 ver ++ leBytes 16 0 ++ leBytes 4 flags ++ leBytes 484 0
def restoring (bs : List Byte) : State := { cmdS (63 * 2 ^ 17) area 0 with mem := memWrite mem0 area bs }
def readIs (s : State) (a n : Nat) (p : List Byte → Bool) : Bool := match s.readPhys a n with
  | .ok bs => p bs
  | .error _ => false
theorem readIs_of {s a n p} (h : readIs s a n p = true) : ∃ bs, s.readPhys a n = .ok bs ∧ p bs = true := by
  unfold readIs at h
  split at h
  · rename_i bs hb
    exact ⟨bs, hb, h⟩
  · cases h
theorem witness_GroupAndPageCommands_areas :
    (∃ ps, (cmdS 0x280 area 0).physPages false area ((cmdS 0x280 area 0).saveSize 5 gp)
      (Machine.pages ((cmdS 0x280 area 0).saveSize 5 gp)) = .ok ps) ∧
    (∃ e, (cmdS 0x280 (2 ^ 50) 0).physPages false (2 ^ 50) ((cmdS 0x280 (2 ^ 50) 0).saveSize 5 gp)
      (Machine.pages ((cmdS 0x280 (2 ^ 50) 0).saveSize 5 gp)) = .error e) ∧
    (∃ h, (restoring (header3 0 0 0)).readPhys area 512 = .ok h ∧ decide (field h 0 4 ≠ 0x47564153) = true) ∧
    (∃ h, (restoring (header3 0x47564153 2 4)).readPhys area 512 = .ok h ∧ decide (field h 4 4 ≠ 1) = true) ∧
    ∃ h, (restoring (header3 0x47564153 1 0)).readPhys area 512 = .ok h ∧ decide ((field h 24 4).testBit 2 = false) = true :=
  ⟨good_of (by decide +kernel), bad_of (by decide +kernel), readIs_of (by decide +kernel), readIs_of (by decide +kernel),
    readIs_of (by decide +kernel)⟩

/-! ## A save area that can be restored -/

theorem memRead_add (m : Memory) (a n k : Nat) : memRead m a (n + k) = memRead m a n ++ memRead m (a + n) k := by
  unfold memRead
  rw [List.range_add, List.map_append, List.map_map]
  congr 1
  exact List.map_congr_left fun i _ => by simp [Function.comp, Nat.add_assoc]
/-- The pages of a read follow one another from `a`. -/
def follow (a : Nat) : List (Target × Nat) → Option Nat
  | [] => some 0
  | (t, n) :: ts => if t.pa = a then (follow (a + n) ts).map (n + ·) else none
theorem follow_read (m : Memory) : ∀ (ts : List (Target × Nat)) (a n : Nat), follow a ts = some n →
    (ts.flatMap fun x => memRead m x.1.pa x.2) = memRead m a n := by
  intro ts
  induction ts with
  | nil => intro a n h; simp only [follow, Option.some.injEq] at h; subst h; rfl
  | cons x ts ih =>
    intro a n h
    simp only [follow] at h
    split at h
    · rename_i ha
      obtain ⟨k, hk, rfl⟩ := Option.map_eq_some_iff.mp h
      rw [List.flatMap_cons, ih _ _ hk, memRead_add, ha]
    · cases h
def readsWhole (s : State) (pa n : Nat) : Bool := match s.physPages true pa n (Machine.pages n) with
  | .ok ts => decide (follow pa ts = some n)
  | .error _ => false
theorem readsWhole_of {s pa n} (h : readsWhole s pa n = true) : s.readPhys pa n = .ok (memRead s.mem pa n) := by
  unfold readsWhole at h
  unfold State.readPhys
  split at h
  · rename_i ts ht
    rw [ht]
    exact congrArg Except.ok (follow_read _ _ _ _ (of_decide_eq_true h))
  · cases h

/-- A save of 128 v-registers, one unit of scratchpad and one tile (R354): lane 0 goes on, lane 1 is parked with cause 4. -/
def saveMem : Memory :=
  [(0, leBytes 8 0x147564153), (8, leBytes 8 (128 + 2 ^ 18 + 2 ^ 24 + 5 * 2 ^ 32)), (16, [3]), (20, [2]), (24, [4]), (40, [9]),
   (56, leBytes 4 225920), (64, leBytes 4 512), (72, leBytes 4 29184), (80, leBytes 4 29184), (88, leBytes 4 94784), (96, leBytes 4 225864),
   (104, leBytes 4 225920), (112, leBytes 4 225920), (132, [1]),
   (512, leBytes 4 0x400000), (512 + 88, leBytes 4 (128 + 2 ^ 18 + 2 ^ 24)), (512 + 132, [5]), (512 + 384, [7]),
   (1408, leBytes 4 0x400008), (1408 + 88, leBytes 4 (128 + 2 ^ 18 + 2 ^ 24)), (1408 + 92, [0x60]), (1408 + 132, [5]), (1408 + 144, [4]),
   (1408 + 152, leBytes 4 0x20000),
   (29184 + 4, leBytes 4 65536), (29184 + 8, [1, 2, 3]), (94784 + 8, leBytes 8 0x155)].foldl (fun m x => memWrite m (area + x.1) x.2) mem0
/-- Core 1 of die 0 is enabled and empty. -/
def restored : State :=
  { cmdS (2 ^ 17) area 0 with mem := saveMem, dies := [(0, { cmdDie (2 ^ 17) area with regs := put 0xA8 2 (cmdDie (2 ^ 17) area).regs }), (4, tabled)] }
def fp3 : Word := w32 (128 + 2 ^ 18 + 2 ^ 24)
theorem field_area {m : Memory} {n o k v : Nat} (h : decide (o + k ≤ n) = true) (hv : leVal (memRead m (area + o) k) = v) :
    field (memRead m area n) o k = v := by
  rw [field_memRead _ _ _ _ _ (of_decide_eq_true h), hv]
theorem witness_RestoreCompletes :
    restored.subject = .command 0 0 0 ∧ (restored.dreg 0 (hwReg 0 0x030)).toNat / 2 ^ 17 % 64 = 1 ∧
    (restored.dreg 0 (hwReg 0 0x038)).toNat = area ∧ area % 4096 = 0 ∧ restored.fitsCore (coreKey 0 1) fp3 = true ∧
    (∃ h, restored.readPhys area 512 = .ok h ∧ field h 0 4 = 0x47564153 ∧ field h 4 4 = 1 ∧ field h 24 4 = 4 ∧ field h 56 8 = 225920) ∧
    (∃ bs, restored.readPhys area 225920 = .ok bs ∧ field bs 8 4 = fp3.toNat ∧ field bs 12 4 = 5 ∧ field bs 16 4 = 3 ∧
      field bs 64 8 = 512 ∧ field bs (512 + 92) 4 = 0 ∧ field bs (1408 + 92) 4 / 32 % 8 = 3 ∧ field bs (1408 + 144) 4 = 4 ∧
      field bs (512 + 384) 4 = 7 ∧ field bs 132 4 = 1 ∧ field bs 80 8 = 29184 ∧ field bs 29184 4 = 0 ∧
      field bs (29184 + 4) 4 = 65536 ∧ 29184 + 8 + 65536 ≤ bs.length ∧ field bs 88 8 = 94784 ∧ field bs 96 8 = 94784 + 131080 * 1 ∧
      field bs 94784 8 % 16 = 0 ∧ field bs 120 4 = 0) ∧
    (fpNV fp3 = 128 ∧ fpSpad fp3 = 1 ∧ fpAcc fp3 = 1 ∧ fpNS fp3 = 0) ∧ Memory.wf (restored.spadOf 1) = true ∧ restored.faultRoom 0 = false := by
  refine ⟨rfl, by decide +kernel, by decide +kernel, by decide, by decide +kernel,
    ⟨_, readsWhole_of (by decide +kernel), ?_⟩, ⟨_, readsWhole_of (by decide +kernel), ?_⟩, by decide +kernel,
    by decide +kernel, by decide +kernel⟩
  · refine ⟨?_, ?_, ?_, ?_⟩ <;> exact field_area (by decide) (by decide +kernel)
  · have h92 : field (memRead restored.mem area 225920) (1408 + 92) 4 = 96 := field_area (by decide) (by decide +kernel)
    have ht : field (memRead restored.mem area 225920) 94784 8 = 0 := field_area (by decide) (by decide +kernel)
    refine ⟨?_, ?_, ?_, ?_, ?_, by rw [h92], ?_, ?_, ?_, ?_, ?_, ?_, ?_, ?_, ?_, by rw [ht], ?_⟩
    all_goals first
      | exact field_area (by decide) (by decide +kernel)
      | (simp [memRead])

/-! ## Memory blocks, the mailbox, the fabric, turns: further clauses -/

/-- A scrub of a block in which the patrol left 9 flawed bits, with CORRLIM 16, and the write-back threshold at its reset value. -/
def flawedS (n : Nat) : State :=
  let s := stack 1 (.unitPa 0 0 n)
  { s with blocks := s.blocks.map fun x => (x.1, { x.2 with flawed := [(0, 9)] }) }
theorem witness_MemoryBlockEvents_flawed : ∀ n ∈ [0, 16, 17],
    (flawedS n).subject = .unitPa 0 0 n ∧ (flawedS n).inUnit 0 0 = true ∧ ((flawedS n).breg 0 8).toNat.testBit 0 = true ∧
    get ((flawedS n).block 0).flawed 0 0 = 9 ∧ ((flawedS n).breg 0 0).toNat / 256 % 32 = 16 ∧
    max n 9 = (if n = 0 then 9 else n) := by decide +kernel

/-- IDENTIFY with a buffer at 64, for a certificate chain, a constant of the package that is not known, of at most 4,096 bytes;
ATTEST as CMDBUF's 4,096 bytes hold it. -/
def identifyArgs : List Byte := leBytes 8 64 ++ leBytes 8 4096
def attestBuf : List Byte := cmd 0x02 (leBytes 32 5) ++ List.replicate 4048 0
def attesting : State :=
  { State.reset with ctrl := { Ctrl.fresh with pkstate := 3, mbstat := 0x80000009, cmd := some (9, attestBuf) } }
theorem witness_ImageCommands_reports (hn : Config.certChain.length ≤ 4096) :
    InMailbox (mail 0x01 identifyArgs 3) 0x01 16 9 (cmd 0x01 identifyArgs) ∧ field (cmd 0x01 identifyArgs) 16 8 ≠ 0 ∧
    Config.certChain.length ≤ field (cmd 0x01 identifyArgs) 24 8 ∧ bufStatus (field (cmd 0x01 identifyArgs) 16 8) Config.certChain.length = 0 ∧
    Memory.wf (mail 0x01 identifyArgs 3).hostMem = true ∧ InMailbox attesting 0x02 32 9 attestBuf ∧ attestBuf.length = 4096 := by
  have h16 : field (cmd 0x01 identifyArgs) 16 8 = 64 := by decide +kernel
  have h24 : field (cmd 0x01 identifyArgs) 24 8 = 4096 := by decide +kernel
  refine ⟨inMailbox_of (by decide +kernel), by rw [h16]; decide, by rw [h24]; exact hn, ?_, by decide +kernel,
    ⟨rfl, by decide +kernel, by decide +kernel, by decide +kernel, rfl, by decide +kernel⟩, by decide +kernel⟩
  rw [h16]
  unfold bufStatus
  rw [if_neg (by decide), if_neg (by omega)]

theorem witness_FleetCommands_reports : (mail 0x0A [] 3).ctrl.events.length < 65536 ∧
    (mail 0x09 (leBytes 8 64 ++ leBytes 8 4096) 3).ctrl.sampled = [] ∧
    Memory.wf (mail 0x09 (leBytes 8 64 ++ leBytes 8 4096) 3).hostMem = true := by decide +kernel

theorem witness_HaltAndDump_complete : ∀ x ∈ (halting [] 0).groups, ∀ m ∈ x.2.members, m.2.deferred = none := by decide +kernel

/-- Channel 9 out of service; a notice of reset; a peer without a channel for LOSSTO cycles, or whose notice has come. -/
def offLink : State :=
  { linked 1 .fresh .nothing with
      dies := [(0, { chanDie 1 .fresh with fabric := [(0, 0x100), (0x208, 1), (0x1000 + 8 * 9, BitVec.ofNat 64 (1 + 256))] }), (4, tabled)] }
def notice0 : Flit := flitSeal ⟨flitHdr 1 0 0 6 0 0 0, List.replicate 64 0, 0⟩ 0
theorem witness_LinkEvents_notice :
    offLink.chanOn 0 9 = false ∧ (linked 1 .fresh .nothing).chanOn 0 9 = true ∧ (linked 1 .fresh .nothing).flitBad 1 notice0 = false ∧
    flitSeq notice0 = ((linked 1 .fresh .nothing).link 0 1).expect ∧ flitTyp notice0 = 6 ∧ flitTyp (flit1 0) ≠ 3 :=
  ⟨by decide +kernel, by decide +kernel, sealed_good (by decide +kernel), by decide +kernel, by decide +kernel, by decide +kernel⟩
def downLink : State := { linked 0 .fresh (.peer 1) with ctrl := { Ctrl.fresh with down := [(1, 0xFFFFFFFF)] } }
theorem witness_ChannelAndPeerEvents_loss :
    (downLink.freg 0 0x028).toNat ≤ get downLink.ctrl.down 1 0 ∧ 1 ≠ downLink.pkg ∧ 1 < downLink.domain ∧ downLink.domain ≠ 1 ∧
    downLink.peerState 1 ≠ 2 ∧ ((linked 1 { Link.fresh with notice := true } (.peer 1)).link 0 1).notice = true ∧
    (¬ ((linked 1 .fresh (.peer 1)).freg 0 0x028).toNat ≤ get (linked 1 .fresh (.peer 1)).ctrl.down 1 0) ∧
    (∀ k < 4, ((linked 1 .fresh (.peer 1)).link k 1).notice = false) ∧
    (linked 2 .fresh .nothing).chanOn 0 9 = true ∧ (linked 2 .fresh .nothing).chanState 0 9 ≠ 3 ∧ offLink.chanOn 0 9 = false := by
  decide +kernel

/-- A lane whose PC lies in the page of a peer that is absent: its fetch waits. -/
def tFar : Thread := { tm with pc := 0x30000 }
def farFetch : State :=
  { lane tFar with agenda := [.issue 5 0], ctrl := { Ctrl.fresh with pkstate := 3 },
                   dies := [(0, { tabled with fabric := [(0, 0x100)] }), (4, tabled)] }
theorem witness_StepRunsDecodedInstruction_fetch :
    (turned 4096 0).fetch (hw0 + 2) 0 (isSup (hw0 + 2)) 4096 = .error 7 ∧
    (let sT : State := { farFetch with turnNo := 1, agenda := [], writer := everyone }
     farFetch.group? 5 = some (gOf tFar) ∧ lookup 0 (gOf tFar).members = some tFar ∧ tFar.canIssue = true ∧
     sT.mayIssue 5 (gOf tFar) = true ∧ (gOf tFar).activeAt tFar.pc = [0] ∧ sT.itsTurn 5 (gOf tFar) (some 0) = true ∧
     ((sT.tookTurn 5 (some 0)).boundary 5 (gOf tFar) [0]).1 = false ∧
     (sT.tookTurn 5 (some 0)).fetch 5 5 (isSup 5) tFar.pc = .error 0) := by decide +kernel

/-- Overflow and no overflow, in binary32 and in the arrays' format. -/
theorem witness_RoundIsCorrect_overflow :
    (2 : ℚ) ^ (f32.bias + 1) ≤ (1 : ℚ) * (2 : ℚ) ^ (128 : Int) ∧ (2 : ℚ) ^ (fAcc.bias + 1) ≤ (1 : ℚ) * (2 : ℚ) ^ (fAcc.bias + 1) ∧
    (3 : ℚ) * (2 : ℚ) ^ (-1 : Int) < (2 : ℚ) ^ (f32.bias + 1) - (2 : ℚ) ^ (f32.bias - f32.fw) ∧
    (3 : ℚ) * (2 : ℚ) ^ (-1 : Int) < (2 : ℚ) ^ (fAcc.bias + 1) - (2 : ℚ) ^ (fAcc.bias - fAcc.fw) ∧
    2 ^ (fAcc.fw + 2) ≤ 2 ^ (fAcc.fw + 2) := by
  refine ⟨?_, le_refl _ |>.trans (by norm_num), ?_, ?_, le_refl _⟩
  · norm_num [f32, FpFmt.bias]
  · norm_num [f32, FpFmt.bias]
  · have h : (2 : ℚ) ^ (512 : Int) = 2 ^ (480 : Int) * 4294967296 := by
      rw [show (512 : Int) = 480 + 32 from rfl, zpow_add₀ (by norm_num)]
      norm_num
    have h1 : (1 : ℚ) ≤ 2 ^ (480 : Int) := one_le_zpow₀ (by norm_num) (by norm_num)
    have hb : fAcc.bias + 1 = 512 ∧ fAcc.bias - fAcc.fw = 480 := by decide
    have e : (3 : ℚ) * 2 ^ (-1 : Int) = 3 / 2 := by norm_num
    rw [hb.1, hb.2, h, e]
    generalize (2 : ℚ) ^ (480 : Int) = y at h1 ⊢
    linarith
end Sys2Proof.Tests
end

/-! SUPPORT. What a physical write and a fault record leave alone: no group of the package changes, so that a fault taken
on a SIMT core changes the faulting thread and no other. -/

namespace Sys2Proof.Machine

/-! ## Writes at a home -/

@[simp] theorem State.raise_groups (s : State) (core ev p1 p2 n : Nat) : (s.raise core ev p1 p2 n).groups = s.groups := by
  unfold State.raise
  split
  · rfl
  · rfl

@[simp] theorem State.pushTo_groups (s : State) (v : DWord) (a : Option Attr) (u : Subscriber) :
    (s.pushTo v a u).2.groups = s.groups := by
  unfold State.pushTo
  dsimp only
  split_ifs
  · rfl
  · rfl
  · rfl
  · rfl
  · simp

@[simp] theorem State.pushAll_groups (s : State) (v : DWord) (a : Option Attr) (us : List Subscriber) :
    (s.pushAll v a us).2.groups = s.groups := by
  induction us generalizing s with
  | nil => rfl
  | cons u us ih => exact (ih _).trans (s.pushTo_groups v a u)

@[simp] theorem State.pushLocs_groups (s : State) (mem cells : Memory) (a : Option Attr) (ls : List HomeLoc) :
    (s.pushLocs mem cells a ls).2.groups = s.groups := by
  induction ls generalizing s with
  | nil => rfl
  | cons l ls ih =>
    simp only [State.pushLocs, ih]
    split
    · exact s.pushAll_groups ..
    · rfl

@[simp] theorem State.noteDir_groups (s : State) (t : Target) (n die : Nat) (write : Bool) :
    (s.noteDir t n die write).groups = s.groups := rfl

@[simp] theorem State.reencode_groups (s : State) (t : Target) (cells : Memory) :
    (s.reencode t cells).groups = s.groups := by
  unfold State.reencode
  split_ifs
  · rfl
  · dsimp only
    split
    · rfl
    · rfl

@[simp] theorem State.homePut_groups (s : State) (t : Target) (cells : Memory) (a : Option Attr) (die : Nat) :
    (s.homePut t cells a die).groups = s.groups := by
  simp [State.homePut]

/-! ## Physical writes and fault records -/

@[simp] theorem State.putPages_groups (s : State) (ts : List (Target × Nat)) (bs : List Byte) :
    (s.putPages ts bs).groups = s.groups := by
  induction ts generalizing s bs with
  | nil => rfl
  | cons x ts ih => exact (ih _ _).trans (s.homePut_groups ..)

theorem State.writePhys_groups {s s' : State} {pa : Nat} {bs : List Byte} (h : s.writePhys pa bs = .ok s') :
    s'.groups = s.groups := by
  unfold State.writePhys at h
  split at h
  · cases h
  · cases h
    exact s.putPages_groups ..

theorem State.ringWrite_groups {s s' : State} {base size head : DWord} {bs : List Byte}
    (h : s.ringWrite base size head bs = some s') : s'.groups = s.groups := by
  unfold State.ringWrite at h
  cases hw : s.writePhys (base.toNat + head.toNat % 2 ^ ringK size) bs with
  | error c => simp [hw, Except.toOption] at h
  | ok s1 =>
    obtain rfl : s1 = s' := by simpa [hw, Except.toOption] using h
    exact State.writePhys_groups hw

theorem State.faultAppend_groups {s s' : State} {d : Nat} {r : FaultRec} (h : s.faultAppend d r = some s') :
    s'.groups = s.groups := by
  obtain ⟨s1, hw, rfl⟩ := Option.map_eq_some_iff.1 h
  exact (s1.setDreg_groups ..).trans (State.ringWrite_groups hw)

/-- A record appended or held in its die (R349). -/
@[simp] theorem State.queueFault_groups (s : State) (d : Nat) (r : FaultRec) : (s.queueFault d r).groups = s.groups := by
  unfold State.queueFault
  dsimp only
  split
  · cases h : s.faultAppend d r with
    | none => rfl
    | some s' => exact State.faultAppend_groups h
  · rfl

@[simp] theorem State.queueFault_thread (s : State) (d : Nat) (r : FaultRec) (v : Who) :
    (s.queueFault d r).thread? v = s.thread? v := by
  simp [State.thread?, State.group?]

/-! ## Faults on a SIMT core (R37) -/

/-- A thread parked with a fault that was not deferred. -/
def Thread.park (cause : Word) (datum : DWord) (t : Thread) : Thread := { t with run := .parked cause datum false }

@[simp] theorem Thread.park_park (c c' : Word) (x x' : DWord) (t : Thread) : (t.park c x).park c' x' = t.park c' x' := rfl

/-- No thread there takes a fault. -/
theorem State.takeFault_absent {s : State} {w : Who} (h : s.thread? w = none) (cause : Word) (datum pc : DWord)
    (deferred : Bool) : s.takeFault w cause datum pc deferred = s := by
  unfold State.takeFault
  cases hg : s.group? w.slot with
  | none => rfl
  | some g =>
    have hl : lookup w.lane g.members = none := by simpa [State.thread?, hg] using h
    simp [hl]

/-- On a SIMT core the thread is parked and its record queued. -/
theorem State.takeFault_of_simt {s : State} {w : Who} {g : Group} {t : Thread} (hw : isLatency w.slot = false)
    (hg : s.group? w.slot = some g) (ht : lookup w.lane g.members = some t) (cause : Word) (datum pc : DWord) :
    ∃ r, s.takeFault w cause datum pc false =
      (s.setThread w (t.park cause datum)).queueFault (dieOfSlot w.slot) r := by
  simp only [State.takeFault, hg, ht, hw, Bool.false_eq_true, if_false]
  exact ⟨_, rfl⟩

/-- A fault parks its thread and changes no other. -/
theorem State.takeFault_simt {w : Who} (hw : isLatency w.slot = false) (s : State) (cause : Word) (datum pc : DWord)
    (v : Who) : (s.takeFault w cause datum pc false).thread? v =
      if v = w then (s.thread? w).map (Thread.park cause datum) else s.thread? v := by
  cases ht : s.thread? w with
  | none =>
    rw [State.takeFault_absent ht]
    split
    · next hv => rw [hv, ht]; rfl
    · rfl
  | some t =>
    obtain ⟨g, hg, hl⟩ := Option.bind_eq_some_iff.1 ht
    obtain ⟨r, e⟩ := State.takeFault_of_simt hw hg hl cause datum pc
    rw [e, State.queueFault_thread, State.thread_setThread, hg]
    rfl

/-- The same cause in some lanes parks each of them, whatever its guard, and no other lane of the group. -/
theorem State.faultLanes_simt {slot : Nat} (hs : isLatency slot = false) (s : State) (lanes : List Nat)
    (cause detail : Nat) (datum pc : DWord) (l : Nat) :
    (s.faultLanes slot lanes cause detail datum pc).thread? ⟨slot, l⟩ =
      if l ∈ lanes then (s.thread? ⟨slot, l⟩).map (Thread.park (causeWord cause detail) datum)
      else s.thread? ⟨slot, l⟩ := by
  induction lanes generalizing s with
  | nil => simp [State.faultLanes, each]
  | cons a as ih =>
    refine (ih _).trans ?_
    rw [State.takeFault_simt hs]
    by_cases ha : l = a
    · subst ha
      simp [Function.comp_def]
    · simp [ha]

end Sys2Proof.Machine

/-! Words whose major names no instruction (R114 to R116): which majors the decoder's two rows take, what it
answers for them, and what their rows do at issue. -/

namespace Sys2Proof.Machine

/-! ## Decoding -/

/-- The major is the word modulo 64: bits [5:0] (R97). -/
theorem majorOf_eq_mod (w : DWord) : majorOf w = w.toNat % 64 := by
  simp [majorOf]

theorem isFallow_iff (w : DWord) : isFallow w = true ↔ 0x25 ≤ w.toNat % 64 ∧ w.toNat % 64 ≤ 0x3E := by
  rw [← majorOf_eq_mod]
  simp only [isFallow, Bool.and_eq_true, decide_eq_true_eq]
  rfl

theorem isIllegalMajor_iff (w : DWord) :
    isIllegalMajor w = true ↔ w.toNat % 64 ∈ [0x00, 0x3F, 0x0F, 0x1E, 0x1F, 0x24] := by
  rw [← majorOf_eq_mod, isIllegalMajor, List.contains_iff_mem]
  exact List.Perm.mem_iff (by decide)

/-- No major is of both rows: 0x24 and 0x3F stand on either side of the fallow ones. -/
theorem not_fallow_of_illegalMajor {w : DWord} (h : isIllegalMajor w = true) : isFallow w = false := by
  rw [isIllegalMajor_iff] at h
  rw [Bool.eq_false_iff, ne_eq, isFallow_iff]
  simp only [List.mem_cons, List.not_mem_nil, or_false] at h
  omega

theorem decode_of_fallow {w : DWord} (h : isFallow w = true) :
    decode w = .ok ⟨⟨false, 0⟩, 0, .fallowInstruction⟩ := by
  simp [decode, h]

theorem decode_of_illegalMajor {w : DWord} (h : isIllegalMajor w = true) :
    decode w = .ok ⟨⟨false, 0⟩, 0, .illegalMajor⟩ := by
  simp [decode, h, not_fallow_of_illegalMajor h]

/-! ## At issue -/

section
variable {s : State} {u : Issuer} {g : Group}

/-- Each of the two rows gives every issuing lane its cause. -/
theorem wordFault_next (hu : s.issuer = some u) (hg : s.group? u.slot = some g) (d : Detail) :
    wordFault d s = .next (s.faultLanes u.slot (g.activeAt u.pc) 1 d.code u.word u.pc) := by
  simp [wordFault, hu, hg]

/-- The row of either kind of word, with the detail that R115 and R116 give it. -/
theorem exec_wordWithoutInstruction (hu : s.issuer = some u) (hg : s.group? u.slot = some g) {i : Instr} {detail : Nat}
    (hi : (i = .fallowInstruction ∧ detail = 3) ∨ (i = .illegalMajor ∧ detail = 1)) :
    exec i s = .next (s.faultLanes u.slot (g.activeAt u.pc) 1 detail u.word u.pc) := by
  obtain ⟨rfl, rfl⟩ | ⟨rfl, rfl⟩ := hi
  · exact wordFault_next hu hg .fallow
  · exact wordFault_next hu hg .undefined

end

/-- Settles O39: the decoder's two rows by the word's major; at issue, each issuing lane of a SIMT core is parked
(`State.faultLanes_simt`), and the one lane of a hardware thread takes the fault alone. -/
theorem wordsWithoutInstruction : Obligations.WordsWithoutInstruction := by
  refine ⟨fun w hw => decode_of_illegalMajor ((isIllegalMajor_iff w).2 hw),
    fun w h1 h2 => decode_of_fallow ((isFallow_iff w).2 ⟨h1, h2⟩),
    fun s u g hu hg i detail hi => ⟨fun hs => ?_, fun _ ha => ?_⟩⟩
  · refine ⟨_, exec_wordWithoutInstruction hu hg hi, fun l hl => ?_⟩
    rw [State.faultLanes_simt hs, if_pos hl]
    rfl
  · rw [exec_wordWithoutInstruction hu hg hi, ha]
    rfl

end Sys2Proof.Machine

/-! SUPPORT. Guards: what they hold after a write, what a result that writes a register and a guard leaves in a thread,
and ADDX (R160). -/

namespace Sys2Proof.Machine

/-! ## Guards -/

/-- What a guard reads after a guard is written: g0 discards it (R84). -/
theorem Thread.guard_setGuard (t : Thread) {i j : Nat} (b : Bool) (hj : j < 8) :
    (t.setGuard i b).guard j = if j ≠ 0 ∧ j = i then b else t.guard j := by
  unfold Thread.setGuard Thread.guard
  by_cases hi : i = 0
  · simp [hi]
  · by_cases hji : j = i
    · subst hji
      cases b with
      | false => simp [hi]
      | true => simp [hi, hj]
    · have hone : (1#8 <<< i).getLsbD j = false := by
        rw [BitVec.getLsbD_shiftLeft, BitVec.getLsbD_one]
        simp
        omega
      rw [if_neg (show ¬ ((i == 0) = true) by simpa using hi), if_neg (show ¬ (j ≠ 0 ∧ j = i) from fun h => hji h.2)]
      cases b with
      | false => simp only [BitVec.getLsbD_and, BitVec.getLsbD_not, hone, hj, decide_true, Bool.not_false, Bool.and_true,
          Bool.false_eq_true, if_false]
      | true => simp only [BitVec.getLsbD_or, hone, Bool.or_false, if_true]

theorem Thread.guard_of_guards {t x : Thread} (h : x.guards = t.guards) (k : Nat) : x.guard k = t.guard k := by
  rw [Thread.guard, h, Thread.guard]

/-- A guard written changes the guards alone, to what they alone determine. -/
theorem Thread.setGuard_of_guards {t x : Thread} (h : x.guards = t.guards) (i : Nat) (b : Bool) :
    x.setGuard i b = { x with guards := (t.setGuard i b).guards } := by
  unfold Thread.setGuard
  split
  · rw [← h]
  · simp only [h]

/-- Register writes neither change the guards nor depend on them. -/
theorem Thread.setReg_withGuards (t : Thread) (G : BitVec 8) (i : Nat) (v : Word) :
    ({ t with guards := G } : Thread).setReg i v = { t.setReg i v with guards := G } := by
  unfold Thread.setReg
  split <;> rfl

theorem Thread.each_setReg_withGuards (ws : List (Nat × Word)) (t : Thread) (G : BitVec 8) :
    each (fun w t => Thread.setReg t w.1 w.2) ws { t with guards := G } =
      { each (fun w t => Thread.setReg t w.1 w.2) ws t with guards := G } := by
  induction ws generalizing t with
  | nil => rfl
  | cons w ws ih =>
    show each _ ws (Thread.setReg _ _ _) = _
    rw [Thread.setReg_withGuards, ih]
    rfl

theorem Thread.write_withGuards (t : Thread) (G : BitVec 8) (ws : List (Nat × Word)) :
    ({ t with guards := G } : Thread).write ws = { t.write ws with guards := G } := by
  simp only [Thread.write, Thread.each_setReg_withGuards]

theorem Thread.write_guards (t : Thread) (ws : List (Nat × Word)) : (t.write ws).guards = t.guards := by
  have h := congrArg Thread.guards (t.write_withGuards t.guards ws)
  exact h

/-- A result of registers and a guard is the registers' result on the thread with that guard, the marks of loads apart. -/
theorem Thread.effect_guard (t : Thread) (ws : List (Nat × Word)) (k : Nat) (b : Bool) :
    ∃ ld, t.effect { regs := ws, guards := [(k, b)] } =
      { ({ t with guards := (t.setGuard k b).guards } : Thread).effect { regs := ws } with loaded := ld } := by
  simp only [Thread.effect, Thread.writeGuards, each, Thread.write_withGuards]
  rw [Thread.setGuard_of_guards (t.write_guards ws)]
  exact ⟨_, rfl⟩

/-! ## Marks of loads -/

/-- Where a thread goes next does not depend on its marks (R131). -/
theorem Thread.loopNext_withLoaded (t : Thread) (ld : List Nat) :
    ({ t with loaded := ld } : Thread).loopNext = ({ t.loopNext.1 with loaded := ld }, t.loopNext.2) := by
  unfold Thread.loopNext
  dsimp only
  split_ifs <;> rfl

theorem Thread.advance_withLoaded (t : Thread) (ld : List Nat) (lat : Bool) :
    ({ t with loaded := ld } : Thread).advance lat = { t.advance lat with loaded := ld } := by
  rw [Thread.advance, Thread.loopNext_withLoaded]
  rfl

end Sys2Proof.Machine

namespace Sys2Proof.Claims
open Machine

theorem Thread_advance_guards (t : Thread) (lat : Bool) : (t.advance lat).guards = t.guards := by
  rw [Thread_advance_keeps]

/-- What a result of one register or of a pair leaves in a thread. -/
theorem effect_wide (t : Thread) (wide : Bool) (d : BitVec 9) (v : DWord) (lat : Bool) :
    WroteW wide d v t ((t.effect { regs := wideOut wide d.toNat v }).advance lat) := by
  cases wide with
  | false => exact effect_one t d _ lat
  | true => exact effect_pair t d v lat

theorem WentOn.withLoaded {t t' : Thread} (h : WentOn t t') (ld : List Nat) : WentOn t { t' with loaded := ld } := by
  have e := congrArg (fun x : Thread => { x with loaded := ld }) h
  exact e

/-- No result speaks of the marks of loads. -/
theorem WroteW.withLoaded {wide : Bool} {d : BitVec 9} {v : DWord} {t t' : Thread} (h : WroteW wide d v t t')
    (ld : List Nat) : WroteW wide d v t { t' with loaded := ld } := by
  cases wide with
  | false =>
    obtain ⟨hr, hw, hp⟩ := h
    exact ⟨hr, hw.withLoaded ld, hp⟩
  | true =>
    obtain ⟨hr, hw, hp⟩ := h
    exact ⟨hr, hw.withLoaded ld, hp⟩

/-- What a result of one register or a pair and of a guard leaves in a thread. -/
theorem effect_wide_guard (t : Thread) (wide : Bool) (d : BitVec 9) (v : DWord) (k : Nat) (b lat : Bool) :
    let t' := (t.effect { regs := wideOut wide d.toNat v, guards := [(k, b)] }).advance lat
    t'.guards = (t.setGuard k b).guards ∧ WroteW wide d v { t with guards := t'.guards } t' := by
  obtain ⟨ld, e⟩ := t.effect_guard (wideOut wide d.toNat v) k b
  have h := (effect_wide { t with guards := (t.setGuard k b).guards } wide d v lat).withLoaded ld
  rw [← Thread.advance_withLoaded, ← e] at h
  have hg : ((t.effect { regs := wideOut wide d.toNat v, guards := [(k, b)] }).advance lat).guards =
      (t.setGuard k b).guards := by
    rw [Thread_advance_guards, e]
    exact Thread.write_guards _ _
  exact ⟨hg, by rw [hg]; exact h⟩

/-! ## Operands of width W -/

/-- A source of width W as a number. -/
theorem toNat_srcW (wide : Bool) (g : Group) (t : Thread) (sf : Bool) (r : BitVec 9) :
    (srcW wide g t sf r).toNat = if wide then (src64 g t sf r).toNat else (src32 g t sf r).toNat := by
  cases wide with
  | false => exact BitVec.toNat_setWidth_of_le (show 32 ≤ 64 by decide)
  | true => rfl

/-- Width W of R156: variant 0 is 32 bits and variant 1 is 64. -/
theorem FmtA_wide_eq {f : FmtA} (h : f.var.toNat ≤ 1) : FmtA_wide f = (f.var == 1) := by
  obtain h | h : f.var = 0 ∨ f.var = 1 := by
    rw [← BitVec.toNat_inj, ← BitVec.toNat_inj]
    exact Nat.le_one_iff_eq_zero_or_eq_one.1 h
  · rw [FmtA_wide, h]; rfl
  · rw [FmtA_wide, h]; rfl

/-! ## ADDX (R160) -/

/-- The exact sum of ADDX. -/
def addxSum (f : FmtA) (g : Group) (t : Thread) : Nat :=
  (if f.var = 1 then (src64 g t f.sA f.a).toNat else (src32 g t f.sA f.a).toNat) +
    (if f.var = 1 then (src64 g t f.sB f.b).toNat else (src32 g t f.sB f.b).toNat) +
    if f.c.getLsbD 3 = false ∧ t.guard (f.c.toNat % 8) = true then 1 else 0

/-- ADDX writes the sum and, to the guard of C[6:4], whether it reached 2^w. -/
theorem addxOut_eq {f : FmtA} (h : f.var.toNat ≤ 1) (c : Ctx) (t : Thread) : addxOut f c t =
    { regs := wideOut (f.var == 1) f.d.toNat (d64 (addxSum f c.g t)),
      guards := [(f.c.toNat / 16 % 8, decide (2 ^ (if f.var = 1 then 64 else 32) ≤ addxSum f c.g t))] } := by
  have hc : (if f.c.getLsbD 3 then 0 else addxOut.b2n01 (t.guard (f.c.toNat % 8))) =
      if f.c.getLsbD 3 = false ∧ t.guard (f.c.toNat % 8) = true then 1 else 0 := by
    cases f.c.getLsbD 3 <;> simp [addxOut.b2n01]
  simp only [addxOut, FmtA_wide_eq h, addxSum, hc, toNat_srcW, beq_iff_eq] <;> rfl

/-- The decoder answers no instruction with a reserved field (R97). -/
theorem rsvd_of_decode {w : DWord} {x : Decoded} (h : decode w = .ok x) :
    x.i = .fallowInstruction ∨ x.i = .illegalMajor ∨ (form x.i).rsvd = false := by
  unfold decode at h
  split at h
  · obtain rfl := Except.ok.inj h
    exact .inl rfl
  split at h
  · obtain rfl := Except.ok.inj h
    exact .inr (.inl rfl)
  split at h
  · cases h
  split at h
  · cases h
  split at h
  · cases h
  next hr =>
    obtain rfl := Except.ok.inj h
    simp only [Bool.or_eq_true, not_or, Bool.not_eq_true] at hr
    obtain ⟨⟨_, hrsvd⟩, _⟩ := hr
    exact .inr (.inr hrsvd)

/-- C[8:7] of ADDX is zero. -/
theorem form_addx_rsvd {f : FmtA} (h : 128 ≤ f.c.toNat) : (form (.addx f)).rsvd = true :=
  Bool.or_eq_true_iff.2 (.inr (decide_eq_true h))

/-- Settles O4: the register's and the guard's write (`effect_wide_guard`) of the exact sum. -/
theorem addWithCarry : Obligations.AddWithCarry := by
  refine ⟨fun f hf g k w hd => ?_, fun f s u g h hv => ?_⟩
  · have hr := rsvd_of_decode hd
    simp only [form_addx_rsvd hf, reduceCtorEq, or_self] at hr
  · obtain ⟨s', h1, h2, h3⟩ := regInstr_next h (fun c _ t => addxOut f c t) fun l t => by
      rw [addxOut_eq hv]
      exact ⟨rfl, rfl⟩
    refine ⟨s', h1, h2, fun l t hl => ?_⟩
    obtain ⟨t', ht, hp⟩ := h3 l t hl
    refine ⟨t', ht, ?_⟩
    split at hp
    · next hg =>
      rw [addxOut_eq hv] at hp
      obtain ⟨hG, hW⟩ := effect_wide_guard t (f.var == 1) f.d (d64 (addxSum f (groupAt s (.addx f) u g) t))
        (f.c.toNat / 16 % 8)
        (decide (2 ^ (if f.var = 1 then 64 else 32) ≤ addxSum f (groupAt s (.addx f) u g) t)) (isLatency u.slot)
      rw [← hp] at hG hW
      rw [if_pos hg]
      refine ⟨fun k hk => ?_, fun h0 => ?_, fun h1 => ?_⟩
      · rw [Thread.guard_of_guards hG]
        exact t.guard_setGuard _ hk
      · rw [h0] at hW
        change Wrote32 f.d ((d64 _).setWidth 32) _ t' at hW
        rwa [d64, BitVec.setWidth_ofNat_of_le (by decide)] at hW
      · rw [h1] at hW
        exact hW
    · next hg =>
      rw [if_neg hg]
      exact hp

end Sys2Proof.Claims

/-! SUPPORT. Lanes that may fault: what issuing a register instruction does when each lane's Out is known only for the
threads that issue it, and what a fault leaves in a lane whatever the other lanes do; and the divisions (R158). -/

namespace Sys2Proof.Claims
open Machine

/-! ## Lanes one after the other -/

/-- Each lane's step changes no thread of the slot but that lane's. -/
def StepsOwnThread (slot : Nat) (f : Nat → State → State) : Prop :=
  ∀ l s k, k ≠ l → (f l s).thread? ⟨slot, k⟩ = s.thread? ⟨slot, k⟩

section
variable {slot : Nat} {f f' : Nat → State → State} {lanes : List Nat}

/-- A lane that takes no step keeps its thread. -/
theorem each_thread_other (hf : StepsOwnThread slot f) {l : Nat}
    (hl : l ∉ lanes) (s : State) : (each f lanes s).thread? ⟨slot, l⟩ = s.thread? ⟨slot, l⟩ := by
  induction lanes generalizing s with
  | nil => rfl
  | cons a as ih =>
    rw [List.mem_cons, not_or] at hl
    exact (ih hl.2 (f a s)).trans (hf a s l hl.1)

/-- After all the lanes, a lane's thread is what its own step leaves, from a state in which it was as at first. -/
theorem each_thread_own (hf : StepsOwnThread slot f) (nd : lanes.Nodup) (s : State) {l : Nat}
    (hl : l ∈ lanes) :
    ∃ x : State, x.thread? ⟨slot, l⟩ = s.thread? ⟨slot, l⟩ ∧
      (each f lanes s).thread? ⟨slot, l⟩ = (f l x).thread? ⟨slot, l⟩ := by
  induction lanes generalizing s with
  | nil => cases hl
  | cons a as ih =>
    obtain ⟨ha, nd⟩ := List.nodup_cons.1 nd
    obtain rfl | hl := List.mem_cons.1 hl
    · exact ⟨s, rfl, each_thread_other hf ha (f l s)⟩
    · obtain ⟨x, h1, h2⟩ := ih nd (f a s) hl
      exact ⟨x, h1.trans (hf a s l fun e => ha (e ▸ hl)), h2⟩

/-- Two kinds of step that agree wherever the lane's thread is as at first come to the same state. -/
theorem each_congr_threads (hf : StepsOwnThread slot f') (nd : lanes.Nodup) (s : State)
    (h : ∀ l ∈ lanes, ∀ x : State, x.thread? ⟨slot, l⟩ = s.thread? ⟨slot, l⟩ → f l x = f' l x) :
    each f lanes s = each f' lanes s := by
  induction lanes generalizing s with
  | nil => rfl
  | cons a as ih =>
    obtain ⟨ha, nd⟩ := List.nodup_cons.1 nd
    have e : f a s = f' a s := h a (List.mem_cons_self ..) s rfl
    show each f as (f a s) = each f' as (f' a s)
    rw [e]
    refine ih nd (f' a s) fun l hl x hx => h l (List.mem_cons_of_mem _ hl) x (hx.trans (hf a s l ?_))
    exact fun hla => ha (hla ▸ hl)

end

/-! ## One lane's step -/

/-- What `eachLane` does for one lane. -/
def laneStep (f : Ctx → Nat → Thread → State → State) (c : Ctx) (l : Nat) (s : State) : State :=
  match s.thread? (c.who l) with
  | some t => if t.guardHolds c.u.g then f c l t s else s.setThread (c.who l) (t.advance c.lat)
  | none => s

theorem eachLane_eq (f : Ctx → Nat → Thread → State → State) (c : Ctx) (s : State) :
    eachLane f c s = each (laneStep f c) c.lanes s := rfl

section
variable {f f' : Ctx → Nat → Thread → State → State} {c : Ctx} {l : Nat} {s : State}

theorem laneStep_holds {t : Thread} (ht : s.thread? (c.who l) = some t) (hg : t.guardHolds c.u.g = true) :
    laneStep f c l s = f c l t s := by
  simp [laneStep, ht, hg]

/-- Meanings that agree on the thread of a lane, if its guard holds, agree on the lane. -/
theorem laneStep_congr (h : ∀ t, s.thread? (c.who l) = some t → t.guardHolds c.u.g = true → f c l t s = f' c l t s) :
    laneStep f c l s = laneStep f' c l s := by
  unfold laneStep
  split
  · next t ht =>
    split
    · next hg => exact h t ht hg
    · rfl
  · rfl

/-- A lane's step changes no other thread if the meaning does not. -/
theorem laneStep_thread_ne {k : Nat} (hk : k ≠ l)
    (h : ∀ t, (f c l t s).thread? (c.who k) = s.thread? (c.who k)) :
    (laneStep f c l s).thread? (c.who k) = s.thread? (c.who k) := by
  unfold laneStep
  split
  · next t ht =>
    split
    · exact h t
    · rw [State.thread_setThread, if_neg (by simpa [Ctx.who] using hk)]
  · rfl

end

/-! ## Register instructions -/

section
variable {i : Instr} {s : State} {u : Issuer} {g : Group} {f : Ctx → Nat → Thread → Out}

/-- One lane of a register instruction, as a step of the state. -/
def outStep (f : Ctx → Nat → Thread → Out) (c : Ctx) (l : Nat) (t : Thread) (s : State) : State :=
  s.lane (c.who l) c.asid t (f c l t)

/-- A register instruction at issue runs its lanes one after the other. -/
theorem regInstr_each (h : AtIssue s i u g) : regInstr i s f =
    .next (each (laneStep (outStep f) (ctxAt s i u g)) (g.activeAt u.pc) (entry s i u g)) := issue_next h _

/-- A register instruction whose Outs, for the threads that issue it, end in sequence with no event (`regInstr_next` asks
it of every thread). -/
theorem regInstr_next_of_lanes (h : AtIssue s i u g)
    (hf : ∀ l t, LaneAt s i u g l t → t.guardHolds u.g = true →
      (f (ctxAt s i u g) l t).fin = .seq ∧ (f (ctxAt s i u g) l t).events = []) :
    ∃ s', regInstr i s f = .next s' ∧ OnlyLanes s s' u g ∧ EachLane s i u g s' fun l t t' =>
      t' = (t.effect (f (ctxAt s i u g) l t)).advance (isLatency u.slot) := by
  obtain ⟨s', h1, h2⟩ := eachLane_next h
    (fun c l t s => s.setThread (c.who l) ((t.effect (f c l t)).advance c.lat)) _ fun _ _ _ => rfl
  refine ⟨s', Eq.trans ?_ h1, h2⟩
  rw [regInstr_each h, issue_next h, eachLane_eq]
  refine congrArg _ (each_congr_threads (slot := u.slot) (fun l x k hk => ?_) (activeAt_nodup g u.pc) _ fun l hl x hx => ?_)
  · exact laneStep_thread_ne hk fun t => by rw [State.thread_setThread, if_neg (by simpa [Ctx.who] using hk)]
  · refine laneStep_congr fun t ht hg => ?_
    obtain ⟨hseq, hev⟩ := hf l t ⟨hl, hx.symm.trans ht⟩ hg
    exact lane_seq x _ _ t _ hseq hev

/-- A lane whose Out is a fault takes it, with no effect (R153). -/
theorem lane_fault {o : Out} {cause detail : Nat} {datum : DWord} (ho : o.fin = .fault cause detail datum) (s : State)
    (w : Who) (asid : Nat) (t : Thread) : s.lane w asid t o = s.takeFault w (causeWord cause detail) datum t.pc false := by
  simp [State.lane, ho, State.finish]

/-- On a SIMT core a lane that goes on or faults changes no other lane's thread. -/
theorem lane_thread_ne {slot : Nat} (hs : isLatency slot = false) {o : Out} (he : o.events = [])
    (ho : o.fin = .seq ∨ ∃ cause detail datum, o.fin = .fault cause detail datum) {k l : Nat} (hk : k ≠ l) (s : State)
    (asid : Nat) (t : Thread) : (s.lane ⟨slot, l⟩ asid t o).thread? ⟨slot, k⟩ = s.thread? ⟨slot, k⟩ := by
  obtain ho | ⟨cause, detail, datum, ho⟩ := ho
  · rw [lane_seq s _ asid t o ho he, State.thread_setThread, if_neg (by simpa using hk)]
  · rw [lane_fault ho, State.takeFault_simt hs, if_neg (by simpa using hk)]

/-- On a SIMT core a lane that faults is parked, whatever the other lanes of the subset do (R37). -/
theorem regInstr_fault_simt (h : AtIssue s i u g) (hs : isLatency u.slot = false)
    (hev : ∀ l t, (f (ctxAt s i u g) l t).events = [])
    (hfin : ∀ l t, (f (ctxAt s i u g) l t).fin = .seq ∨
      ∃ cause detail datum, (f (ctxAt s i u g) l t).fin = .fault cause detail datum) :
    ∃ s', regInstr i s f = .next s' ∧ ∀ l t, LaneAt s i u g l t → t.guardHolds u.g = true →
      ∀ cause detail datum, (f (ctxAt s i u g) l t).fin = .fault cause detail datum →
        s'.thread? ⟨u.slot, l⟩ = some (t.park (causeWord cause detail) datum) := by
  refine ⟨_, regInstr_each h, fun l t hl hg cause detail datum ho => ?_⟩
  obtain ⟨x, hx, e⟩ := each_thread_own (slot := u.slot) (f := laneStep (outStep f) (ctxAt s i u g))
    (fun l x k hk => laneStep_thread_ne hk fun t => lane_thread_ne hs (hev l t) (hfin l t) hk x _ t)
    (activeAt_nodup g u.pc) (entry s i u g) hl.mem
  have ht : x.thread? ⟨u.slot, l⟩ = some t := hx.trans hl.thread
  refine e.trans ?_
  rw [laneStep_holds ht hg, outStep, lane_fault ho, State.takeFault_simt hs]
  simp [Ctx.who, ctxAt, ht]

/-- A subset of one lane that faults does that and nothing else. -/
theorem regInstr_fault_one (h : AtIssue s i u g) {l : Nat} (ha : g.activeAt u.pc = [l]) {t : Thread}
    (hl : LaneAt s i u g l t) (hg : t.guardHolds u.g = true) {cause detail : Nat} {datum : DWord}
    (ho : (f (ctxAt s i u g) l t).fin = .fault cause detail datum) :
    regInstr i s f = .next ((entry s i u g).takeFault ⟨u.slot, l⟩ (causeWord cause detail) datum t.pc false) := by
  rw [regInstr_each h, ha]
  exact congrArg _ ((laneStep_holds hl.thread hg).trans (lane_fault ho ..))

end

/-! ## Quotients and remainders as numbers -/

theorem sdiv_eq_ofInt_tdiv {w : Nat} (a b : BitVec w) : a.sdiv b = BitVec.ofInt w (a.toInt.tdiv b.toInt) :=
  BitVec.eq_of_toInt_eq (by rw [BitVec.toInt_sdiv, BitVec.toInt_ofInt])

theorem srem_eq_ofInt_sub {w : Nat} (a b : BitVec w) :
    a.srem b = BitVec.ofInt w (a.toInt - a.toInt.tdiv b.toInt * b.toInt) := by
  rw [Int.mul_comm, ← Int.tmod_def, ← BitVec.toInt_srem, BitVec.ofInt_toInt]

theorem exec_div (f : FmtA) (s : State) : exec (.div f) s = regInstr (.div f) s fun c _ t => divOut f
    (fun a b => BitVec.ofInt 32 (a.toInt.tdiv b.toInt)) (fun a b => BitVec.ofInt 64 (a.toInt.tdiv b.toInt)) c t := by
  simp only [← sdiv_eq_ofInt_tdiv]
  rfl

theorem exec_rem (f : FmtA) (s : State) : exec (.rem f) s = regInstr (.rem f) s fun c _ t => divOut f
    (fun a b => BitVec.ofInt 32 (a.toInt - a.toInt.tdiv b.toInt * b.toInt))
    (fun a b => BitVec.ofInt 64 (a.toInt - a.toInt.tdiv b.toInt * b.toInt)) c t := by
  simp only [← srem_eq_ofInt_sub]
  rfl

theorem exec_divu (f : FmtA) (s : State) : exec (.divu f) s = regInstr (.divu f) s fun c _ t => divOut f
    (fun a b => BitVec.ofNat 32 (a.toNat / b.toNat)) (fun a b => BitVec.ofNat 64 (a.toNat / b.toNat)) c t := by
  simp only [← BitVec.udiv_def]
  rfl

theorem exec_remu (f : FmtA) (s : State) : exec (.remu f) s = regInstr (.remu f) s fun c _ t => divOut f
    (fun a b => BitVec.ofNat 32 (a.toNat % b.toNat)) (fun a b => BitVec.ofNat 64 (a.toNat % b.toNat)) c t := by
  simp only [← BitVec.umod_def]
  rfl

/-! ## Divisions (R158) -/

section
variable {f : FmtA} {op32 : Word → Word → Word} {op64 : DWord → DWord → DWord} {c : Ctx} {t : Thread}

theorem divOut_of_ne_zero (h : srcW (FmtA_wide f) c.g t f.sB f.b ≠ 0) :
    divOut f op32 op64 c t = binOut f op32 op64 c t := by
  rw [divOut, if_neg (by simpa using h)]

theorem divOut_of_zero (h : srcW (FmtA_wide f) c.g t f.sB f.b = 0) :
    divOut f op32 op64 c t = { fin := .fault 0x10 0 0 } := by
  rw [divOut, if_pos (by simpa using h)]

theorem binOut_narrow (h : FmtA_wide f = false) :
    binOut f op32 op64 c t = { regs := [(f.d.toNat, op32 (src32 c.g t f.sA f.a) (src32 c.g t f.sB f.b))] } := by
  rw [binOut, h, if_neg Bool.false_ne_true]

theorem binOut_wide (h : FmtA_wide f = true) :
    binOut f op32 op64 c t = { regs := pairOut f.d.toNat (op64 (src64 c.g t f.sA f.a) (src64 c.g t f.sB f.b)) } := by
  rw [binOut, if_pos h]

/-- A two-source result ends in sequence with no event. -/
theorem binOut_seq : (binOut f op32 op64 c t).fin = .seq ∧ (binOut f op32 op64 c t).events = [] := by
  unfold binOut
  split
  · exact ⟨rfl, rfl⟩
  · exact ⟨rfl, rfl⟩

theorem divOut_events : (divOut f op32 op64 c t).events = [] := by
  unfold divOut
  split
  · rfl
  · exact binOut_seq.2

/-- A division goes on or faults. -/
theorem divOut_fin : (divOut f op32 op64 c t).fin = .seq ∨
    ∃ cause detail datum, (divOut f op32 op64 c t).fin = .fault cause detail datum := by
  unfold divOut
  split
  · exact .inr ⟨_, _, _, rfl⟩
  · exact .inl binOut_seq.1

variable {i : Instr} {s : State} {u : Issuer} {g : Group}

/-- Where no lane's divisor is 0, every lane writes its result. -/
theorem divOut_gives (he : exec i s = regInstr i s fun c _ t => divOut f op32 op64 c t) (h : AtIssue s i u g)
    (hv : f.var.toNat ≤ 1)
    (hb : ∀ l t, LaneAt s i u g l t → t.guardHolds u.g = true → srcW (f.var == 1) (groupAt s i u g) t f.sB f.b ≠ 0) :
    ∃ s', exec i s = .next s' ∧ OnlyLanes s s' u g ∧ EachLane s i u g s' fun _ t t' =>
      (f.var = 0 → Wrote32 f.d (op32 (src32 (groupAt s i u g) t f.sA f.a) (src32 (groupAt s i u g) t f.sB f.b)) t t') ∧
      (f.var = 1 → Wrote64 f.d (op64 (src64 (groupAt s i u g) t f.sA f.a) (src64 (groupAt s i u g) t f.sB f.b)) t t') := by
  have hbin {l : Nat} {t : Thread} (hl : LaneAt s i u g l t) (hg : t.guardHolds u.g = true) :
      divOut f op32 op64 (ctxAt s i u g) t = binOut f op32 op64 (ctxAt s i u g) t :=
    divOut_of_ne_zero (by rw [FmtA_wide_eq hv]; exact hb l t hl hg)
  obtain ⟨s', h1, h2, h3⟩ := regInstr_next_of_lanes (f := fun c _ t => divOut f op32 op64 c t) h fun l t hl hg => by
    rw [hbin hl hg]
    exact binOut_seq
  refine ⟨s', he.trans h1, h2, fun l t hl => ?_⟩
  obtain ⟨t', ht, hp⟩ := h3 l t hl
  refine ⟨t', ht, ?_⟩
  split at hp
  · next hg =>
    rw [if_pos hg, hp, hbin hl hg]
    refine ⟨fun h0 => ?_, fun h1 => ?_⟩
    · rw [binOut_narrow (by rw [FmtA_wide, h0]; rfl)]
      exact effect_one t f.d _ _
    · rw [binOut_wide (by rw [FmtA_wide, h1]; rfl)]
      exact effect_pair t f.d _ _
  · next hg =>
    rw [if_neg hg]
    exact hp

/-- A lane whose divisor is 0 takes cause 0x10 with detail 0, whatever the other lanes' divisors are. -/
theorem divOut_faults (he : exec i s = regInstr i s fun c _ t => divOut f op32 op64 c t) (h : AtIssue s i u g)
    (hv : f.var.toNat ≤ 1) :
    let zero (t : Thread) : Prop := t.guardHolds u.g = true ∧ srcW (f.var == 1) (groupAt s i u g) t f.sB f.b = 0
    (isLatency u.slot = false → ∃ s', exec i s = .next s' ∧ ∀ l t, LaneAt s i u g l t → zero t →
      ∃ t', s'.thread? ⟨u.slot, l⟩ = some t' ∧ t' = { t with run := .parked (causeWord 0x10 0) 0 false }) ∧
    ∀ t, isLatency u.slot = true → g.activeAt u.pc = [0] → LaneAt s i u g 0 t → zero t →
      exec i s = .next ((entry s i u g).takeFault ⟨u.slot, 0⟩ (causeWord 0x10 0) 0 t.pc false) := by
  have hfin {t : Thread} (hz : srcW (f.var == 1) (groupAt s i u g) t f.sB f.b = 0) :
      (divOut f op32 op64 (ctxAt s i u g) t).fin = .fault 0x10 0 0 := by
    rw [divOut_of_zero (by rw [FmtA_wide_eq hv]; exact hz)]
  refine ⟨fun hs => ?_, fun t _ ha hl ⟨hg, hz⟩ => ?_⟩
  · obtain ⟨s', h1, h2⟩ := regInstr_fault_simt (f := fun c _ t => divOut f op32 op64 c t) h hs
      (fun _ _ => divOut_events) fun _ _ => divOut_fin
    exact ⟨s', he.trans h1, fun l t hl ⟨hg, hz⟩ => ⟨_, h2 l t hl hg _ _ _ (hfin hz), rfl⟩⟩
  · exact he.trans (regInstr_fault_one h ha hl hg (hfin hz))

end

/-- Settles O2: each of the four divides as `divOut_gives` says and faults as `divOut_faults` says. -/
theorem divisionForms : Obligations.DivisionForms := by
  refine ⟨fun s u g f i hi h hv hb => ?_, fun s u g f i hi h hv => ?_⟩
  · simp only [List.mem_cons, List.not_mem_nil, or_false] at hi
    obtain rfl | rfl | rfl | rfl := hi
    · exact divOut_gives (exec_div f s) h hv hb
    · exact divOut_gives (exec_divu f s) h hv hb
    · exact divOut_gives (exec_rem f s) h hv hb
    · exact divOut_gives (exec_remu f s) h hv hb
  · simp only [List.mem_cons, List.not_mem_nil, or_false] at hi
    obtain rfl | rfl | rfl | rfl := hi
    · exact divOut_faults (exec_div f s) h hv
    · exact divOut_faults (exec_divu f s) h hv
    · exact divOut_faults (exec_rem f s) h hv
    · exact divOut_faults (exec_remu f s) h hv

end Sys2Proof.Claims

/-! SUPPORT. The bits of a number given bit by bit, and of the bit-field operations (R161): each of BFX and BFI is
known by its bits, and a byte of PRMT by the nibble that selects it. -/

namespace Sys2Proof.Machine

/-! ## A number given bit by bit -/

/-- The number whose bits below `w` are `bit` and whose others are clear. -/
def sumOfBits (w : Nat) (bit : Nat → Bool) : Nat := (List.range w).foldl (fun x k => x + 2 ^ k * (bit k).toNat) 0

theorem sumOfBits_succ (w : Nat) (bit : Nat → Bool) :
    sumOfBits (w + 1) bit = 2 ^ w * (bit w).toNat + sumOfBits w bit := by
  simp [sumOfBits, List.range_succ, Nat.add_comm]

theorem sumOfBits_lt (w : Nat) (bit : Nat → Bool) : sumOfBits w bit < 2 ^ w := by
  induction w with
  | zero => simp [sumOfBits]
  | succ w ih =>
    rw [sumOfBits_succ, Nat.pow_succ]
    cases bit w with
    | false => simp; omega
    | true => simp; omega

theorem testBit_sumOfBits (w : Nat) (bit : Nat → Bool) (k : Nat) :
    (sumOfBits w bit).testBit k = (decide (k < w) && bit k) := by
  induction w with
  | zero => simp [sumOfBits]
  | succ w ih =>
    rw [sumOfBits_succ, Nat.testBit_two_pow_mul_add _ (sumOfBits_lt w bit), ih]
    rcases Nat.lt_trichotomy k w with h | rfl | h
    · simp [h, Nat.lt_succ_of_lt h]
    · cases bit k with
      | false => simp
      | true => simp
    · rw [Nat.testBit_bool_toNat]
      simp [Nat.not_lt_of_gt h, show ¬ k < w + 1 by omega, show k - w ≠ 0 by omega]

/-- A word is the number of its bits. -/
theorem eq_ofNat_sumOfBits {w : Nat} {x : BitVec w} {bit : Nat → Bool} (h : ∀ k < w, x.getLsbD k = bit k) :
    x = BitVec.ofNat w (sumOfBits w bit) := by
  refine BitVec.eq_of_getLsbD_eq fun k hk => ?_
  rw [h k hk, BitVec.getLsbD_ofNat, testBit_sumOfBits]
  simp [hk]

/-! ## BFX and BFI -/

theorem bfLen_le (w p n : Nat) : bfLen w p n ≤ w := by
  unfold bfLen
  split <;> omega

/-- The bits of `m` bits of a word from `p` on. -/
theorem testBit_field {w : Nat} (a : BitVec w) (p m k : Nat) :
    (a.toNat / 2 ^ p % 2 ^ m).testBit k = (decide (k < m) && a.getLsbD (p + k)) := by
  rw [Nat.testBit_mod_two_pow, Nat.testBit_div_two_pow, BitVec.testBit_toNat, Nat.add_comm]

/-- An `m`-bit number less 2^m, in `w` bits: the number with ones above it. -/
theorem ofInt_sub_two_pow {w m : Nat} (hm : m ≤ w) (x : Nat) :
    BitVec.ofInt w ((x : Int) - 2 ^ m) = BitVec.ofNat w (2 ^ m * (2 ^ (w - m) - 1) + x) := by
  have hmul : 2 ^ m * (2 ^ (w - m) - 1) = 2 ^ w - 2 ^ m := by
    rw [Nat.mul_sub, ← Nat.pow_add, Nat.add_sub_cancel' hm, Nat.mul_one]
  have hle : 2 ^ m ≤ 2 ^ w := Nat.pow_le_pow_right (by decide) hm
  rw [← BitVec.ofInt_natCast]
  refine BitVec.eq_of_toInt_eq ?_
  rw [BitVec.toInt_ofInt, BitVec.toInt_ofInt, ← Int.add_bmod_right, hmul]
  congr 1
  push_cast [hle]
  ring

theorem getLsbD_ofInt_sub_two_pow {w m x : Nat} (hm : m ≤ w) (hx : x < 2 ^ m) {k : Nat} (hk : k < w) :
    (BitVec.ofInt w ((x : Int) - 2 ^ m)).getLsbD k = if k < m then x.testBit k else true := by
  rw [ofInt_sub_two_pow hm, BitVec.getLsbD_ofNat, Nat.testBit_two_pow_mul_add _ hx, Nat.testBit_two_pow_sub_one]
  split
  · simp [hk]
  · simp [hk]
    omega

/-- BFX: the field, and above it zeros or, extended signed, copies of its top bit. -/
theorem bfxV_eq_sumOfBits {w : Nat} (signed : Bool) (a b c : BitVec w) :
    let p := b.toNat % 256
    let m := bfLen w p (c.toNat % 256)
    bfxV signed a b c = BitVec.ofNat w (sumOfBits w fun k =>
      if k < m then a.getLsbD (p + k) else m ≠ 0 ∧ signed ∧ a.getLsbD (p + m - 1)) := by
  refine eq_ofNat_sumOfBits fun k hk => ?_
  unfold bfxV
  have hm := bfLen_le w (b.toNat % 256) (c.toNat % 256)
  dsimp only
  generalize bfLen w (b.toNat % 256) (c.toNat % 256) = m at hm ⊢
  generalize b.toNat % 256 = p
  have htop (h0 : m ≠ 0) : (a.toNat / 2 ^ p % 2 ^ m).testBit (m - 1) = a.getLsbD (p + m - 1) := by
    rw [testBit_field, ← Nat.add_sub_assoc (by omega)]
    simp
    omega
  split
  · next h =>
    simp only [Bool.and_eq_true, bne_iff_ne] at h
    obtain ⟨⟨hs, h0⟩, ht⟩ := h
    rw [htop h0] at ht
    rw [getLsbD_ofInt_sub_two_pow hm (Nat.mod_lt _ (by positivity)) hk, testBit_field]
    split <;> simp [*]
  · next h =>
    rw [BitVec.getLsbD_ofNat, testBit_field]
    by_cases hkm : k < m
    · simp [hk, hkm]
    · by_cases h0 : m = 0
      · simp [h0]
      · rw [htop h0] at h
        simpa [hkm, h0] using h

/-- BFI: the low bits of `a` inside the field, the old bits outside. -/
theorem bfiV_eq_sumOfBits {w : Nat} (old a b c : BitVec w) :
    let p := b.toNat % 256
    let m := bfLen w p (c.toNat % 256)
    bfiV old a b c = BitVec.ofNat w (sumOfBits w fun k =>
      if p ≤ k ∧ k < p + m then a.getLsbD (k - p) else old.getLsbD k) := by
  refine eq_ofNat_sumOfBits fun k hk => ?_
  unfold bfiV
  dsimp only
  generalize bfLen w (b.toNat % 256) (c.toNat % 256) = m
  generalize b.toNat % 256 = p
  have hmask : (BitVec.ofNat w ((2 ^ m - 1) * 2 ^ p)).getLsbD k = decide (p ≤ k ∧ k < p + m) := by
    rw [BitVec.getLsbD_ofNat, Nat.testBit_mul_two_pow, Nat.testBit_two_pow_sub_one]
    simp only [hk, decide_true, Bool.true_and, ← Bool.decide_and]
    exact decide_eq_decide.2 (by omega)
  rw [BitVec.getLsbD_or, BitVec.getLsbD_and, BitVec.getLsbD_and, BitVec.getLsbD_not, hmask, BitVec.getLsbD_shiftLeft]
  split
  · next h => simp [h, hk, Nat.not_lt_of_le h.1]
  · next h => simp [h, hk]

/-! ## PRMT -/

/-- A nibble of a word as a number. -/
theorem toNat_nibble (c : Word) (i : Nat) : (c.extractLsb' (4 * i) 4).toNat = c.toNat / 16 ^ i % 16 := by
  rw [BitVec.extractLsb'_toNat, Nat.shiftRight_eq_div_pow, Nat.pow_mul]

/-- A nibble's top bit. -/
theorem getLsbD_three_iff (n : BitVec 4) : n.getLsbD 3 = true ↔ 8 ≤ n.toNat := by
  revert n
  decide

end Sys2Proof.Machine

namespace Sys2Proof.Claims
open Machine

/-- A three-source instruction whose variant says 32 bits. -/
theorem gives32_of_triOut {i : Instr} {f : FmtA} {op32 : Word → Word → Word → Word}
    {op64 : DWord → DWord → DWord → DWord} (he : ∀ s, exec i s = regInstr i s fun c _ t => triOut f op32 op64 c t)
    (h : f.var.getLsbD 0 = false) :
    Gives32 i f.d fun g t => op32 (src32 g t f.sA f.a) (src32 g t f.sB f.b) (src32 g t f.sC f.c) :=
  gives32_of_regInstr _ he fun c _ t => by rw [triOut, FmtA_wide, h, if_neg Bool.false_ne_true]

/-- A three-source instruction whose variant says 64 bits. -/
theorem gives64_of_triOut {i : Instr} {f : FmtA} {op32 : Word → Word → Word → Word}
    {op64 : DWord → DWord → DWord → DWord} (he : ∀ s, exec i s = regInstr i s fun c _ t => triOut f op32 op64 c t)
    (h : f.var.getLsbD 0 = true) :
    Gives64 i f.d fun g t => op64 (src64 g t f.sA f.a) (src64 g t f.sB f.b) (src64 g t f.sC f.c) :=
  gives64_of_regInstr _ he fun c _ t => by rw [triOut, FmtA_wide, h, if_pos rfl]

/-- PRMT: each byte is the byte of b:a that its nibble of c selects, or eight copies of that byte's sign. -/
theorem prmtV_bytes (a b c : Word) : prmtV a b c =
    (let x : DWord := b ++ a
     let k (i : Nat) := c.extractLsb' (4 * i) 4
     let byte (i : Nat) : Byte :=
       let y := x.extractLsb' (8 * ((k i).toNat % 8)) 8
       if (k i).getLsbD 3 then (if y.getLsbD 7 then 0xFF else 0x00) else y
     byte 3 ++ byte 2 ++ byte 1 ++ byte 0) := by
  simp only [prmtV, getLsbD_three_iff, toNat_nibble, BitVec.setWidth_ushiftRight_eq_extractLsb]

/-- Settles O5: BFX and BFI have the bits that R161 names, and PRMT its bytes. -/
theorem bitFieldForms : Obligations.BitFieldForms := by
  refine ⟨fun f _ => ⟨fun h => ?_, fun h => ?_, fun h => ?_, fun h => ?_⟩, fun f => ?_⟩
  · have H := gives32_of_triOut (i := .bfx f) (fun _ => rfl) h
    simp only [bfxV_eq_sumOfBits] at H
    exact H
  · have H := gives64_of_triOut (i := .bfx f) (fun _ => rfl) h
    simp only [bfxV_eq_sumOfBits] at H
    exact H
  · refine gives32_of_regInstr (fun c _ t => bfiOut f c t) (fun _ => rfl) fun c l t => ?_
    rw [bfiOut, FmtA_wide, h, if_neg (by decide), bfiV_eq_sumOfBits]
    rfl
  · refine gives64_of_regInstr (fun c _ t => bfiOut f c t) (fun _ => rfl) fun c l t => ?_
    rw [bfiOut, FmtA_wide, h, if_pos (by decide), bfiV_eq_sumOfBits]
    rfl
  · exact gives32_of_regInstr _ (fun _ => rfl) fun c l t => by rw [prmtV_bytes]

end Sys2Proof.Claims
